-- ==== Sys2Proof/Word.lean ====
section
/-! DEFINITION. The words of the machine: 64-bit words, bytes, vectors of 64 lanes, tagged scalar values, sparse tables. -/

namespace Sys2Proof

/-- A scalar word (02_bundle R35, class S; also a class K mask). -/
abbrev Word := BitVec 64

/-- A byte of scratchpad, vault or instruction memory. -/
abbrev Byte := BitVec 8

/-- A vector register: 64 lanes of 32 bits, lane i in bits 32i+31..32i (07_vector R172). -/
abbrev Vec := BitVec 2048

/-- A scalar value with its deferred-fault tag (04_scalar R80, R83). -/
structure TV where
  val : Word
  df  : Bool
deriving DecidableEq, Repr

/-- An untagged value. -/
def TV.plain (w : Word) : TV := ⟨w, false⟩

/-- The load value of a scalar register or port (04_scalar R81). -/
def TV.zero : TV := ⟨0, false⟩

/-- A sparse table: keys strictly rising, an unlisted key holds the table's default. -/
abbrev Tab (α : Type) := List (Nat × α)

/-- The name of a tile, (row << 7) | col (01_wafer R21). -/
abbrev TileName := Nat

end Sys2Proof
end

