-- ==== Sys2Proof/Syntax.lean ====
section
/-! DEFINITION. The abstract instructions: one constructor per row of spec/opcode_table.json, and the operand records of the rows that are events or commands. -/

namespace Sys2Proof

/-- Who an operation in flight belongs to: context, task and gang (14_kernel R337, 16_context R376). -/
structure Owner where
  ctx  : Nat
  task : Nat
  gang : TileName
  /-- the handler bank was active at the trigger (16_context R379). -/
  hand : Bool
  /-- bundle index, slot and trigger port, for a fault raised after the trigger (20_fault R452). -/
  pc   : Nat
  slot : Nat
  trig : Nat
  /-- its trigger cycle, from which the AGE of a held operation counts (16_context R376) -/
  born : Nat
deriving DecidableEq, Repr

/-- The atomic read-modify-writes of 06_region R154 and 09_window R241. -/
inductive AtomOp where
  | add | and | or | xor | min | max | xchg | cas
deriving DecidableEq, Repr

/-- A mesh direction (10_route R253). -/
inductive Dir where
  | w | n | e | s
deriving DecidableEq, Repr

/-- What an access does at its array (06_region R147, R154). -/
inductive MemOp where
  | load (bytes : Nat)
  | store (bytes : Nat) (data : Word)
  | atom (op : AtomOp) (t cmp : Word) (ord ford : BitVec 3)
deriving DecidableEq, Repr

/-- The synchronisation side of an ordered access (13_binding R296, R300, R302):
the generic address the operation names, and whether it acquires and releases. -/
structure Ordered where
  sync : Word
  acq  : Bool
  rel  : Bool
deriving DecidableEq, Repr

/-- A local or gang access on its way to its array (06_region R147). -/
structure MemAccess where
  tile : TileName
  addr : Nat
  op   : MemOp
  /-- result port and the slabs whose port takes the result -/
  port : Nat
  dests : List TileName
  ord  : Option Ordered
  /-- place of the path in the order of R139 -/
  path : Nat
  /-- a release whose check of 13_binding R302 failed, with the gang slab that met the condition: it makes no write -/
  stop : Option Nat
deriving DecidableEq, Repr

/-- A domain access (06_region R147, R149): the access at the target and the cycles its reply takes. -/
structure RemoteAccess where
  own  : Owner
  acc  : MemAccess
  back : Nat
deriving DecidableEq, Repr

/-- A vault atomic (09_window R241). -/
structure WAtomOp where
  own   : Owner
  src   : TileName
  dests : List TileName
  op    : AtomOp
  t     : Word
  cmp   : Word
  ordc  : BitVec 3
  ford  : BitVec 3
  gva   : Nat
  home  : TileName
  frame : Nat
  /-- the trigger cycle -/
  trigAt : Nat
deriving DecidableEq, Repr

/-- One beat of a copy on delivery (10_route R263). -/
structure CopyBeat where
  own   : Owner
  src   : TileName
  dst   : TileName
  num   : Nat
  addr  : Nat
  data  : BitVec 512
  srcBar : Option Nat
  dstBar : Option Nat
  post  : Bool
  last  : Bool
deriving DecidableEq, Repr

/-- The fields of fmt that FMTSET copies (03_element R69). -/
structure Fmt where
  afmt : BitVec 4
  bfmt : BitVec 4
  cfmt : BitVec 4
  ascl : BitVec 8
  bscl : BitVec 8
  aw   : BitVec 3
  drnd : BitVec 2
  strict : BitVec 2
deriving DecidableEq, Repr

/-- A bound register (03_element R76). -/
structure Bound where
  lo  : BitVec 32
  hi  : BitVec 32
  act : BitVec 2
deriving DecidableEq, Repr

/-- The barrier record's fields (12_barrier R279). -/
structure BarRec where
  send  : Bool
  home  : BitVec 16
  state : BitVec 4
  outb  : BitVec 32
  inb   : BitVec 32
  arr   : BitVec 16
  exp   : BitVec 16
  gen   : BitVec 4
deriving DecidableEq, Repr

/-- What an operation in flight does when it lands or reaches its array (02_bundle R33, OPERATION_LANDING). -/
inductive Action where
  /-- a front-end result port takes its value -/
  | feRes (port : Nat) (v : TV)
  /-- a divide in flight: result port, its trigger among the ports of I0, a and t (04_scalar R105) -/
  | feDiv (port op : Nat) (a t : TV)
  /-- a slab's scalar result port takes its value -/
  | slRes (tile : TileName) (port : Nat) (v : TV)
  /-- a slab's vector result port takes its value -/
  | vRes (tile : TileName) (port : Nat) (v : Vec)
  /-- c.tctl, c.tstclr, EVMASK (05_sequencer R108, R109, R134) -/
  | tctl (v : Word)
  | tstclr (v : Word)
  | evm (v : BitVec 8)
  /-- FMTSET and BNDSET (R131, R132) -/
  | fmt (f : Fmt)
  | bnd (bs : List (Nat × Bound))
  /-- MARK's comparison (R130): marker, expected offset, actual offset, trigger cycle -/
  | mark (marker : BitVec 16) (expect : BitVec 32) (actual : Word) (cyc : Word)
  /-- a local or gang access at its array cycle (06_region R147) -/
  | mem (a : MemAccess)
  /-- the check of a release before the actions of its ordering point (13_binding R302) -/
  | relCheck (a : MemAccess)
  /-- the acquire of an object of a kind on its ordering point (13_binding R300, R303) -/
  | acquire (kind : Nat) (sync : Word)
  /-- tag table and region map (06_region R158, R159, R163, R164) -/
  | tagWrite (tile : TileName) (slot : Nat) (v : Word)
  | tagClear (tile : TileName) (slot : Nat)
  | tagLook (tile : TileName) (port : Nat) (vpn : Nat)
  | unmap (tile : TileName) (region : Nat)
  | query (tile : TileName) (port : Nat) (region : Nat) (dw : Nat) (banks : Bool)
  | bankRel (tile : TileName) (mask : BitVec 32)
  /-- the map unit's descriptor read and checks at the block end's cycle (R162) -/
  | mapStart (tile : TileName) (region : Nat) (desc : Nat)
  /-- one fill of a first-touch region (17_page R394) -/
  | ftouch (tile : TileName) (region : Nat) (i : Nat)
  /-- a constant row of a first BANKWAIT (14_kernel R338) -/
  | constRow (tile : TileName) (addr : Nat) (bytes : List Byte)
  /-- vector memory (07_vector R189, R191): lane and address; lane, address and word, and whether a word lay outside the range
  of the named bound register (R192) -/
  | vload (tile : TileName) (port : Nat) (lanes : List (Nat × Nat))
  | vstore (tile : TileName) (words : List (Nat × Nat × BitVec 32)) (outside : Bool)
  /-- the interpolation engine (R193, R195) -/
  | floadRow (tile : TileName) (addr : Nat) (row : Nat)
  | feval (xs : List (TileName × Word × Word × Vec))
  | xclr (tile : TileName)
  /-- the matrix engine (08_accumulator R215-R217) -/
  | mxstat (tile : TileName) (from_ : Option TileName)
  | mxload (tile : TileName) (entry : Bool) (idx : Nat) (v : Word)
  | mxswap (tile : TileName)
  | mxzero (tile : TileName) (banks : BitVec 2) (kind : Bool)
  /-- operand row q of the current group, A or B (R208) -/
  | mxrow (tile : TileName) (b : Bool) (q : Nat)
  /-- the end of a group, of a Hadamard pass, a zeroing or a snapshot (R218) -/
  | mxgroup (tile : TileName) (bk : Bool)
  | mxhad (tile : TileName) (acc1 : Bool)
  | mxzeroEnd (tile : TileName) (acc1 : Bool) (kind : Bool)
  | mxsnap (tile : TileName) (front1 : Bool)
  /-- row i of a drain or flag drain in the background (R221, R222) -/
  | mxdrainRow (tile : TileName) (i : Nat)
  /-- staging (09_window R233, R235, R240) -/
  | resClear (tile : TileName) (slot : Nat)
  | winv (tile : TileName) (slot : Nat)
  /-- the clear of DIRTY at its turn among the array writes of the cycle (R235): one slot, or the slots of a region -/
  | dirtySlot (tile : TileName) (slot : Nat)
  | dirtyRegion (tile : TileName) (region : Nat)
  | fillRead (tile : TileName) (slot : Nat) (p : Nat)
  | fillRow (tile : TileName) (slot : Nat) (line : Nat)
  | flushRow (tile : TileName) (slot : Nat) (line : Nat)
  | flushWrite (tile : TileName) (slot : Nat) (p : Nat)
  | refresh (tile : TileName)
  /-- the router (10_route R254, R261) -/
  | routeRow (tile : TileName) (q : Nat)
  | nameLoad (tile : TileName) (idx : Nat) (name : BitVec 16)
  | nameQuery (tile : TileName) (name : BitVec 16)
  /-- barriers (12_barrier R281, R282, R286) -/
  | barWrite (tile : TileName) (n : Nat) (r : BarRec)
  | barAdd (tile : TileName) (n : Nat) (out : Bool) (amount : BitVec 32)
  | barHeld (tile : TileName) (n : Nat)
  | barTest (tile : TileName) (n : Nat)
  | barCheck (tile : TileName) (n : Nat)
  /-- countdown of a delivered copy beat at its source and destination records (10_route R263, 12_barrier R280), and the
  end of the copy -/
  | barBeat (b : CopyBeat)
  /-- the transfer of a fill or flush has ended; its k-th retry slot has settled (09_window R245) -/
  | busTake (tile : TileName) (slot : Nat)
  | busSettle (tile : TileName) (slot : Nat) (k : Nat)
  /-- a beat at a router: where it stands and goes, the input slot it came in by, the cycle of its delivery, the cycle it came
  in, its kind, whether a frame has been denied to it (10_route R256, R259, R260) -/
  | hop (tile dst : TileName) (slot lim since : Nat) (wafer denied : Bool)
  /-- the value of a domain access on its way back to its result ports (06_region R147, R171) -/
  | reply (a : MemAccess) (v : TV)
  /-- the row a copy beat reads on its owned cycle (R263) -/
  | copyRead (tile : TileName) (num : Nat) (row : Nat)
  /-- the map units' work at an INVAL quiet point, and the gang's resume (17_page R402) -/
  | invalStop (gang : TileName)
  /-- one cycle of the interlock trace (21_marker R463) -/
  | traceRow (ctx : Nat)
  /-- an edge that throttling withholds (19_tile R439) -/
  | throttle
  /-- tokens and collectives (15_queue R357, 18_link R423) -/
  | tokGet (tile : TileName) (addr : Nat)
  | collRead (tile : TileName) (desc : Nat) (comm : Nat) (inst : BitVec 32)
deriving DecidableEq, Repr

/-- The operands of CREATE (16_context R365); an operand that the host leaves out is none. -/
structure CreateOps where
  keys      : Option (List (BitVec 576))
  undoShare : Option Nat
  waitdl    : Option Nat
  replayint : Option Nat
  hold      : Option (BitVec 32)
  dumpKey   : Option (BitVec 256)
  dumpBytes : Option Nat
  /-- global virtual address of the queue table the host lays out (15_queue R343) -/
  queueTable : Nat
  /-- pod job number (18_link R417) -/
  job       : BitVec 32
deriving DecidableEq, Repr

/-- A breakpoint (21_marker R466); gang 0xFFFF is any gang. -/
structure Breakpoint where
  kind  : BitVec 2
  gang  : TileName
  value : Word
  count : Nat
deriving DecidableEq, Repr

/-- The operands of TR.ARM (21_marker R463). -/
structure TraceArm where
  thr  : Nat
  tlen : Nat
  wide : Bool
  rows : Nat
deriving DecidableEq, Repr

/-- The operands of SMP.SET (21_marker R464); the gang set is a rectangle of tiles, none for all gangs. -/
structure SampleSet where
  k    : Nat
  rect : Option (Nat × Nat × Nat × Nat)
  logsize : Nat
  head : Nat
deriving DecidableEq, Repr

/-- The operands of RING.SET (15_queue R359). -/
structure RingSet where
  base    : Word
  logsize : Nat
  head    : Nat
  count   : Nat
  timeUs  : Nat
  vector  : Nat
deriving DecidableEq, Repr

/-- An entry of the time-triggered table as the host writes it (15_queue R349). -/
structure TimeEntry where
  record : Nat
  queue  : Nat
  valid  : Bool
  skip   : Bool
  period : Nat
  offset : Nat
  /-- the table-wide GRAN, when the host writes it with the entry -/
  gran   : Option Nat
deriving DecidableEq, Repr

/-- A link of the module (18_link R407): a seam link by the two tiles it joins, a host or a scale-out port. -/
inductive LinkId where
  | seam (a b : TileName)
  | host (port : Nat)
  | scale (port : Nat)
deriving DecidableEq, Repr

/-- A transport frame (18_link R418); crcOk says whether its CRC-32 matched on receipt. -/
structure Frame where
  kind   : BitVec 8
  srcmod : BitVec 8
  dstmod : BitVec 8
  job    : BitVec 32
  seq    : BitVec 32
  ackseq : BitVec 32
  payload : List Byte
  crcOk  : Bool
deriving DecidableEq, Repr

/-- The binding map (19_tile R433): skip positions and front-end references. -/
structure BindingMap where
  skips   : Tab Nat
  singles : Tab (BitVec 16)
  pairs   : Tab (BitVec 16)
  quads   : Tab (BitVec 16)
deriving DecidableEq, Repr

/-- A physical unit (19_tile R435): a slab or a front end of reticle 8Y+X at a column and a row. -/
structure UnitId where
  frontEnd : Bool
  reticle  : Nat
  col      : Nat
  row      : Nat
deriving DecidableEq, Repr

/-- A repair record (19_tile R438): the unit, the counts of the two power cycles whose self-test it passed, the request of the
management plane, the signature over its SHA-512. -/
structure RepairRecord where
  unit    : UnitId
  first   : Nat
  second  : Nat
  request : Nat
  sig     : BitVec 512
deriving DecidableEq, Repr

/-- A message of the module's 1588 clock (18_link R426): of the two-step, end-to-end exchange with a grandmaster, Sync, its
Follow_Up with the time it was sent, and the answer to a delay request with the time that arrived; of the host's clock, the
time that Precision Time Measurement gives. -/
inductive PtpMsg where
  | sync (seq : Nat)
  | followUp (seq sent : Nat)
  | delayResp (seq received : Nat)
  | ptm (nanos : Nat)
deriving DecidableEq, Repr

/-- The source of the 1588 clock (18_link R426). -/
inductive TimeSource where
  | freeRunning
  | scalePort (port : Nat)
  | hostPort
deriving DecidableEq, Repr

/-- An uncorrectable memory error (20_fault R453): its cause, the context that owns the storage, where it was met. -/
structure MemError where
  cause : BitVec 8
  ctx   : Option Nat
  tile  : TileName
  pc    : Nat
  slot  : Nat
  trig  : Nat
  aux   : Word
deriving DecidableEq, Repr

/-- The operands of an event or command of the part, held in the state beside the event (State.arg): one
constructor for each row that has operands. -/
inductive Operand where
  | none
  /-- ROUTINE_LANDING (R213) -/
  | routineLanding (gang : TileName)
  /-- WFILL_LANDING (R235) -/
  | wfillLanding (tile : TileName) (slot : Nat)
  /-- WFLUSH_LANDING (R239) -/
  | wflushLanding (tile : TileName) (slot : Nat)
  /-- WATOM_APPLY (R241) -/
  | watomApply (w : WAtomOp)
  /-- REMOTE_WATOM_APPLY (R241) -/
  | remoteWatomApply (w : WAtomOp)
  /-- REMOTE_WATOM_REPLY (R260) -/
  | remoteWatomReply (w : WAtomOp) (old : Word)
  /-- ROUTESET_CHECK (R254) -/
  | routesetCheck (tile : TileName)
  /-- SWITCH_PROGRAM_START (R254) -/
  | switchProgramStart (tile : TileName)
  /-- ROUTER_STATIC_BEAT (R253) -/
  | routerStaticBeat (tile : TileName) (input : Dir) (data : BitVec 512)
  /-- ASYNC_ITEM_SEND (R258) -/
  | asyncItemSend (tile : TileName) (wafer : Bool)
  /-- REMOTE_ACCESS_ARRIVAL (R147) -/
  | remoteAccessArrival (a : RemoteAccess)
  /-- ARRIVAL_DELIVERY (R284) -/
  | arrivalDelivery (dst src : TileName) (n : Nat) (gen : BitVec 4) (send : Bool)
  /-- RELEASE_DELIVERY (R286) -/
  | releaseDelivery (dst src : TileName) (n : Nat) (gen : BitVec 4)
  /-- COPY_BEAT_DELIVERY (R263) -/
  | copyBeatDelivery (b : CopyBeat)
  /-- TOKEN_DELIVERY (R357) -/
  | tokenDelivery (dst src : TileName) (addr : Nat) (scope : BitVec 3) (post : Bool)
  /-- SOFT_EVENT_DELIVERY (R358) -/
  | softEventDelivery (dst src : TileName) (payload : BitVec 40)
  /-- COLL_CONTRIBUTION_ARRIVAL (R423) -/
  | collContributionArrival (ctx comm rank : Nat) (inst : BitVec 32)
  /-- HOST_RING_ENTRY_WRITE (R360) -/
  | hostRingEntryWrite (ctx ring : Nat) (payload : Word) (source : BitVec 16) (disp : BitVec 8)
  /-- RING_COALESCE_TIMEOUT (R361) -/
  | ringCoalesceTimeout (ctx ring : Nat) (epoch : Nat)
  /-- RING_HEAD_ADVANCE (R360) -/
  | ringHeadAdvance (ctx ring : Nat) (head : Nat)
  /-- WAITEV_COMPLETE (R125) -/
  | waitevComplete (gang : TileName)
  /-- CYCWAIT_COMPLETE (R128) -/
  | cycwaitComplete (gang : TileName)
  /-- CYCALIGN_COMPLETE (R129) -/
  | cycalignComplete (gang : TileName)
  /-- BARWAIT_COMPLETE (R285) -/
  | barwaitComplete (gang : TileName) (record : Nat)
  /-- BANKWAIT_COMPLETE (R167) -/
  | bankwaitComplete (gang : TileName) (unit : Bool) (mask : BitVec 32)
  /-- RGNMAP_WALK_END (R162) -/
  | rgnmapWalkEnd (tile : TileName) (region : Nat)
  /-- RGNMAP_COMPLETE (R162) -/
  | rgnmapComplete (gang : TileName) (unit : Bool) (region : Nat)
  /-- COLLWAIT_COMPLETE (R424) -/
  | collwaitComplete (gang : TileName)
  /-- SYS_ANSWER (R133) -/
  | sysAnswer (gang : TileName) (answer : Word)
  /-- HALT_DRAIN_COMPLETE (R334) -/
  | haltDrainComplete (gang : TileName) (task : Nat)
  /-- TASK_START (R336) -/
  | taskStart (task : Nat)
  /-- TIME_TABLE_FIRING (R350) -/
  | timeTableFiring (slot : Nat)
  /-- HEARTBEAT (R440) -/
  | heartbeat (gang : TileName)
  /-- HEARTBEAT_TIMEOUT (R440) -/
  | heartbeatTimeout (gang : TileName)
  /-- BEACON_RECEIVE (R443) -/
  | beaconReceive (tile : TileName) (beacon : Word) (latency : Nat)
  /-- SAMPLE_TICK (R464) -/
  | sampleTick (ctx : Nat)
  /-- BREAKPOINT_HIT (R467) -/
  | breakpointHit (ctx idx : Nat) (gang : TileName)
  /-- STEP_STOP_EDGE (R468) -/
  | stepStopEdge (ctx : Nat)
  /-- FREEZE_EDGE (R376) -/
  | freezeEdge (ctx : Nat)
  /-- UNCORRECTABLE_ERROR_DETECT (R453) -/
  | uncorrectableErrorDetect (err : MemError)
  /-- ROLLBACK (R454) -/
  | rollback (ctx : Nat)
  /-- REPLAY_REQUEST (R455) -/
  | replayRequest (ctx : Nat)
  /-- REPLAY_BOUNDARY_CUT (R455) -/
  | replayBoundaryCut (ctx : Nat)
  /-- QUIESCE_CUT (R373) -/
  | quiesceCut (ctx : Nat)
  /-- QUIESCE_BOUND_EXPIRY (R375) -/
  | quiesceBoundExpiry (ctx : Nat)
  /-- INVAL_TIMEOUT (R403) -/
  | invalTimeout (ctx : Nat)
  /-- CONTEXT_RESUME_START (R386) -/
  | contextResumeStart (ctx : Nat)
  /-- DUMP_WRITE (R457) -/
  | dumpWrite (ctx : Nat)
  /-- DUMP_ABORT (R459) -/
  | dumpAbort (ctx : Nat) (cause : BitVec 8)
  /-- CREATE (R365) -/
  | create (ctx : Nat) (ops : CreateOps)
  /-- START (R365) -/
  | start (ctx : Nat)
  /-- QUIESCE (R370) -/
  | quiesce (ctx : Nat) (kinds : BitVec 3) (boundUs : Nat)
  /-- FREEZE (R376) -/
  | freeze (ctx : Nat)
  /-- RESUME (R386) -/
  | resume (ctx : Nat)
  /-- EXPORT (R380) -/
  | exportImage (ctx : Nat) (transport : Nat)
  /-- RESTORE (R385) -/
  | restore (ctx : Nat) (image : Nat) (transport : Nat)
  /-- KILL (R339) -/
  | kill (ctx : Nat)
  /-- RELEASE (R365) -/
  | release (ctx : Nat)
  /-- LOADDONE (R366) -/
  | loaddone (ctx : Nat)
  /-- STEP (R468) -/
  | stepCmd (ctx : Nat) (n : Nat)
  /-- BK_SET (R466) -/
  | bkSet (ctx idx : Nat) (bp : Breakpoint)
  /-- BK_CLEAR (R466) -/
  | bkClear (ctx idx : Nat)
  /-- TR_ARM (R463) -/
  | trArm (ctx : Nat) (arm : TraceArm)
  /-- SMP_SET (R464) -/
  | smpSet (ctx : Nat) (smp : Option SampleSet)
  /-- MK_READ (R462) -/
  | mkRead (ctx : Nat) (gang : TileName) (n : Nat)
  /-- PG_INVAL (R402) -/
  | pgInval (ctx vpn count timeoutUs : Nat)
  /-- PG_MIGRATE (R404) -/
  | pgMigrate (ctx vpn : Nat) (tile : TileName) (req gen : Nat) (timeoutUs : Nat)
  /-- PG_ANSWER (R401) -/
  | pgAnswer (ctx req gen : Nat) (code : BitVec 16)
  /-- WIN_SET (R414) -/
  | winSet (ctx win : Nat) (base : Word) (en : Bool)
  /-- COMM_SET (R421) -/
  | commSet (ctx comm : Nat) (ranks : List (Nat × TileName))
  /-- RING_SET (R359) -/
  | ringSet (ctx ring : Nat) (r : RingSet)
  /-- TT_SET (R349) -/
  | ttSet (ctx idx : Nat) (e : TimeEntry)
  /-- LOAD_OBJECT (R328) -/
  | loadObject (ctx : Nat) (obj : List Byte)
  /-- PAGE_REQUEST_ARRIVAL (R398) -/
  | pageRequestArrival (ctx : Nat) (gen : Nat) (tile : TileName) (req vpn : Nat)
  /-- HOST_MAILBOX_WRITE (R412) -/
  | hostMailboxWrite (tile : TileName) (i : BitVec 3) (value : Word)
  /-- DOORBELL_WRITE (R413) -/
  | doorbellWrite (port : Nat) (tile : TileName) (value : Word)
  /-- HOST_WINDOW_WRITE (R414) -/
  | hostWindowWrite (win offset : Nat) (bytes : List Byte)
  /-- HOST_WINDOW_READ (R414) -/
  | hostWindowRead (win offset count : Nat)
  /-- HOST_LEAF_WRITE (R396) -/
  | hostLeafWrite (ctx level va : Nat) (entry : Word)
  /-- LINK_TRAINING (R408) -/
  | linkTraining (link : LinkId) (pass : Bool)
  /-- LINK_UNRECOVERABLE_ERROR (R408) -/
  | linkUnrecoverableError (link : LinkId)
  /-- SEAM_BEAT_ERROR (R410) -/
  | seamBeatError (link : LinkId) (correctable : Bool) (ctx : Option Nat)
  /-- TRANSPORT_DATA_RECEIVE (R419) -/
  | transportDataReceive (port : Nat) (f : Frame)
  /-- TRANSPORT_ACK_RECEIVE (R419) -/
  | transportAckReceive (port : Nat) (f : Frame)
  /-- TRANSPORT_NAK_RECEIVE (R419) -/
  | transportNakReceive (port : Nat) (f : Frame)
  /-- TRANSPORT_RESEND_TIMEOUT (R419) -/
  | transportResendTimeout (port : Nat) (epoch : Nat)
  /-- PTP_MESSAGE (R426) -/
  | ptpMessage (source : TimeSource) (msg : PtpMsg)
  /-- SELFTEST_RESULT (R430) -/
  | selftestResult (reticle : Nat) (badSlabs badFrontEnds : List Nat)
  /-- ISLAND_MERGE (R431) -/
  | islandMerge (a b : Nat)
  /-- BINDING_MAP_WRITE (R434) -/
  | bindingMapWrite (m : BindingMap)
  /-- REMAP (R437) -/
  | remap (m : BindingMap)
  /-- REINSTATEMENT (R438) -/
  | reinstatement (u : UnitId) (record : RepairRecord)
  /-- DROOP_ALARM (R439) -/
  | droopAlarm (island : Nat)
  /-- LINK_STOP (R408) -/
  | linkStop (link : LinkId)
  /-- ALIGNMENT_ARRIVAL (R129) -/
  | alignmentArrival (dst src : TileName)
  /-- TIME_SOURCE_SELECT (R426) -/
  | timeSourceSelect (source : TimeSource)
  /-- PIN_RELEASE_COMPLETE (R163) -/
  | pinReleaseComplete (tile : TileName) (region : Nat) (leaves : List Nat)
deriving DecidableEq, Repr

/-- The instructions and events of the part: one constructor per row of the opcode table.
A slot's fields are its guard g, its source port s, its unit u where two units share the row (02_bundle R31, R42, R44);
a micro-op's are its gang and the microword's fields (08_accumulator R218).  The operands of an event or command stand
in the state beside it (Operand). -/
inductive Instr where
  /-- BUNDLE_ISSUE (R33): The sequencer fetches and decodes one bundle, reads every firing slot's source at the start of the cycle and writes its destination at the end of the cycle. -/
  | bundleIssue (gang : TileName)
  /-- REGISTER_WRITE (R41): A move writes a register, operand port, parameter register or staging field that has no behaviour of its own. -/
  | registerWrite (g : BitVec 5) (d : BitVec 10) (s : BitVec 9)
  /-- TCTL_WRITE (R109): A write to c.tctl changes only the RW fields of tctl, at c+1. -/
  | tctlWrite (g : BitVec 5) (s : BitVec 9)
  /-- TSTCLR (R108): A write to c.tstclr clears, at c+1, each W1C bit of tst whose bit in the value is 1. -/
  | tstclr (g : BitVec 5) (s : BitVec 9)
  /-- OPERATION_LANDING (R33): A triggered operation of latency L delivers its result or state change at c+L. -/
  | operationLanding (own : Owner) (act : Action)
  /-- ADD (R94): Adds a and t modulo 2^64 into the r port at c+1. -/
  | add (g : BitVec 5) (u : BitVec 1) (s : BitVec 9)
  /-- SUB (R94): Subtracts t from a modulo 2^64 into the r port. -/
  | sub (g : BitVec 5) (u : BitVec 1) (s : BitVec 9)
  /-- ADDSH (R94): Computes a + (t << c[5..0]) into the r port. -/
  | addsh (g : BitVec 5) (u : BitVec 1) (s : BitVec 9)
  /-- AND (R94): Delivers a AND t into the r port. -/
  | and (g : BitVec 5) (u : BitVec 1) (s : BitVec 9)
  /-- OR (R94): Delivers a OR t into the r port. -/
  | or (g : BitVec 5) (u : BitVec 1) (s : BitVec 9)
  /-- XOR (R94): Delivers a XOR t into the r port. -/
  | xor (g : BitVec 5) (u : BitVec 1) (s : BitVec 9)
  /-- ANDN (R94): Delivers a AND NOT t into the r port. -/
  | andn (g : BitVec 5) (u : BitVec 1) (s : BitVec 9)
  /-- SHL (R94): Shifts a left by t[5..0]. -/
  | shl (g : BitVec 5) (u : BitVec 1) (s : BitVec 9)
  /-- SHR (R94): Shifts a right logically by t[5..0]. -/
  | shr (g : BitVec 5) (u : BitVec 1) (s : BitVec 9)
  /-- SAR (R94): Shifts a right arithmetically by t[5..0]. -/
  | sar (g : BitVec 5) (u : BitVec 1) (s : BitVec 9)
  /-- ROL (R94): Rotates a left by t[5..0]. -/
  | rol (g : BitVec 5) (u : BitVec 1) (s : BitVec 9)
  /-- MUL (R95): Delivers the low 64 bits of a·t into the m port at c+3. -/
  | mul (g : BitVec 5) (u : BitVec 1) (s : BitVec 9)
  /-- MULH (R95): Delivers the high 64 bits of the signed product. -/
  | mulh (g : BitVec 5) (u : BitVec 1) (s : BitVec 9)
  /-- MULHU (R95): Delivers the high 64 bits of the unsigned product. -/
  | mulhu (g : BitVec 5) (u : BitVec 1) (s : BitVec 9)
  /-- DIVS (R96): Delivers the signed quotient into the d port at c+18; division by zero gives all ones and sets tst.DZF. -/
  | divs (g : BitVec 5) (u : BitVec 1) (s : BitVec 9)
  /-- DIVU (R96): Delivers the unsigned quotient into the d port at c+18. -/
  | divu (g : BitVec 5) (u : BitVec 1) (s : BitVec 9)
  /-- REMU (R96): Delivers the unsigned remainder into the d port at c+18. -/
  | remu (g : BitVec 5) (u : BitVec 1) (s : BitVec 9)
  /-- MIN (R97): Delivers the signed minimum of a and t. -/
  | min (g : BitVec 5) (u : BitVec 1) (s : BitVec 9)
  /-- MAX (R97): Delivers the signed maximum of a and t. -/
  | max (g : BitVec 5) (u : BitVec 1) (s : BitVec 9)
  /-- MINU (R97): Delivers the unsigned minimum of a and t. -/
  | minu (g : BitVec 5) (u : BitVec 1) (s : BitVec 9)
  /-- MAXU (R97): Delivers the unsigned maximum of a and t. -/
  | maxu (g : BitVec 5) (u : BitVec 1) (s : BitVec 9)
  /-- CLZ (R97): Counts the leading zero bits of t. -/
  | clz (g : BitVec 5) (u : BitVec 1) (s : BitVec 9)
  /-- CTZ (R97): Counts the trailing zero bits of t. -/
  | ctz (g : BitVec 5) (u : BitVec 1) (s : BitVec 9)
  /-- POPC (R97): Counts the set bits of t. -/
  | popc (g : BitVec 5) (u : BitVec 1) (s : BitVec 9)
  /-- EXTR (R98): Extracts the field of a that the descriptor in t names, with optional sign extension. -/
  | extr (g : BitVec 5) (u : BitVec 1) (s : BitVec 9)
  /-- INS (R98): Inserts c into the field of a that the descriptor in t names. -/
  | ins (g : BitVec 5) (u : BitVec 1) (s : BitVec 9)
  /-- SEXT (R98): Sign-extends a from width t[6..0]. -/
  | sext (g : BitVec 5) (u : BitVec 1) (s : BitVec 9)
  /-- ZEXT (R98): Zero-extends a from width t[6..0]. -/
  | zext (g : BitVec 5) (u : BitVec 1) (s : BitVec 9)
  /-- SEL (R99): Delivers a when t is nonzero and c otherwise. -/
  | sel (g : BitVec 5) (u : BitVec 1) (s : BitVec 9)
  /-- CMPEQ (R100): Delivers a = t into the p port. -/
  | cmpeq (g : BitVec 5) (u : BitVec 1) (s : BitVec 9)
  /-- CMPNE (R100): Delivers a ≠ t into the p port. -/
  | cmpne (g : BitVec 5) (u : BitVec 1) (s : BitVec 9)
  /-- CMPLT (R100): Delivers signed a < t into the p port. -/
  | cmplt (g : BitVec 5) (u : BitVec 1) (s : BitVec 9)
  /-- CMPLTU (R100): Delivers unsigned a < t into the p port. -/
  | cmpltu (g : BitVec 5) (u : BitVec 1) (s : BitVec 9)
  /-- CMPLE (R100): Delivers signed a ≤ t into the p port. -/
  | cmple (g : BitVec 5) (u : BitVec 1) (s : BitVec 9)
  /-- CMPLEU (R100): Delivers unsigned a ≤ t into the p port. -/
  | cmpleu (g : BitVec 5) (u : BitVec 1) (s : BitVec 9)
  /-- CMPBIT (R100): Delivers bit t[5..0] of a into the p port. -/
  | cmpbit (g : BitVec 5) (u : BitVec 1) (s : BitVec 9)
  /-- CVTA (R102): Converts between a generic address and an aperture word or offset; a failure gives a tagged zero. -/
  | cvta (g : BitVec 5) (u : BitVec 1) (s : BitVec 9)
  /-- ISSP (R103): Tests whether a lies in a window of a space that the mask in t selects. -/
  | issp (g : BitVec 5) (u : BitVec 1) (s : BitVec 9)
  /-- ADD_W (R93): Performs a 32-bit add and sign-extends the result. -/
  | addW (g : BitVec 5) (u : BitVec 1) (s : BitVec 9)
  /-- SUB_W (R93): Performs a 32-bit subtract and sign-extends the result. -/
  | subW (g : BitVec 5) (u : BitVec 1) (s : BitVec 9)
  /-- SHL_W (R93): Performs a 32-bit left shift. -/
  | shlW (g : BitVec 5) (u : BitVec 1) (s : BitVec 9)
  /-- SHR_W (R93): Performs a 32-bit logical right shift and sign-extends the result. -/
  | shrW (g : BitVec 5) (u : BitVec 1) (s : BitVec 9)
  /-- SAR_W (R93): Performs a 32-bit arithmetic right shift. -/
  | sarW (g : BitVec 5) (u : BitVec 1) (s : BitVec 9)
  /-- ROL_W (R93): Performs a 32-bit rotate left. -/
  | rolW (g : BitVec 5) (u : BitVec 1) (s : BitVec 9)
  /-- MUL_W (R95): Delivers the sign-extended low 32 bits of the 32-bit product. -/
  | mulW (g : BitVec 5) (u : BitVec 1) (s : BitVec 9)
  /-- MULH_W (R95): Delivers the high 32 bits of the signed 32-bit product. -/
  | mulhW (g : BitVec 5) (u : BitVec 1) (s : BitVec 9)
  /-- MULHU_W (R95): Delivers the high 32 bits of the unsigned 32-bit product. -/
  | mulhuW (g : BitVec 5) (u : BitVec 1) (s : BitVec 9)
  /-- DIVS_W (R96): Performs a 32-bit signed divide. -/
  | divsW (g : BitVec 5) (u : BitVec 1) (s : BitVec 9)
  /-- DIVU_W (R96): Performs a 32-bit unsigned divide. -/
  | divuW (g : BitVec 5) (u : BitVec 1) (s : BitVec 9)
  /-- REMU_W (R96): Delivers the 32-bit unsigned remainder. -/
  | remuW (g : BitVec 5) (u : BitVec 1) (s : BitVec 9)
  /-- MIN_W (R97): Delivers the 32-bit signed minimum. -/
  | minW (g : BitVec 5) (u : BitVec 1) (s : BitVec 9)
  /-- MAX_W (R97): Delivers the 32-bit signed maximum. -/
  | maxW (g : BitVec 5) (u : BitVec 1) (s : BitVec 9)
  /-- MINU_W (R97): Delivers the 32-bit unsigned minimum. -/
  | minuW (g : BitVec 5) (u : BitVec 1) (s : BitVec 9)
  /-- MAXU_W (R97): Delivers the 32-bit unsigned maximum. -/
  | maxuW (g : BitVec 5) (u : BitVec 1) (s : BitVec 9)
  /-- CLZ_W (R97): Counts the leading zeros of t[31..0]. -/
  | clzW (g : BitVec 5) (u : BitVec 1) (s : BitVec 9)
  /-- CTZ_W (R97): Counts the trailing zeros of t[31..0]. -/
  | ctzW (g : BitVec 5) (u : BitVec 1) (s : BitVec 9)
  /-- CMPEQ_W (R100): Performs a 32-bit equality compare. -/
  | cmpeqW (g : BitVec 5) (u : BitVec 1) (s : BitVec 9)
  /-- CMPNE_W (R100): Performs a 32-bit inequality compare. -/
  | cmpneW (g : BitVec 5) (u : BitVec 1) (s : BitVec 9)
  /-- CMPLT_W (R100): Performs a 32-bit signed less-than compare. -/
  | cmpltW (g : BitVec 5) (u : BitVec 1) (s : BitVec 9)
  /-- CMPLTU_W (R100): Performs a 32-bit unsigned less-than compare. -/
  | cmpltuW (g : BitVec 5) (u : BitVec 1) (s : BitVec 9)
  /-- CMPLE_W (R100): Performs a 32-bit signed less-or-equal compare. -/
  | cmpleW (g : BitVec 5) (u : BitVec 1) (s : BitVec 9)
  /-- CMPLEU_W (R100): Performs a 32-bit unsigned less-or-equal compare. -/
  | cmpleuW (g : BitVec 5) (u : BitVec 1) (s : BitVec 9)
  /-- JMP (R111): Records a jump exit to t, taken at the block end. -/
  | jmp (g : BitVec 5) (s : BitVec 9)
  /-- JMPR (R111): Records a jump exit to c.opa + t. -/
  | jmpr (g : BitVec 5) (s : BitVec 9)
  /-- CALL (R111): Records a call exit to t, which pushes the return index. -/
  | call (g : BitVec 5) (s : BitVec 9)
  /-- CALLR (R111): Records a call exit to c.opa + t, which pushes the return index. -/
  | callr (g : BitVec 5) (s : BitVec 9)
  /-- RET (R111): Records a return exit to the popped return index. -/
  | ret (g : BitVec 5) (s : BitVec 9)
  /-- LOOP (R114): Pushes a loop level with trip count t[31..0], body end c.opa and strides c.opb at the block end. -/
  | loop (g : BitVec 5) (s : BitVec 9)
  /-- LOOPM (R114): Pushes a loop level whose trip count is read from mailbox t[2..0]. -/
  | loopm (g : BitVec 5) (s : BitVec 9)
  /-- BRKL (R117): Pops the innermost t[2..0] loop levels at the block end, before the exit is resolved. -/
  | brkl (g : BitVec 5) (s : BitVec 9)
  /-- CHKDF (R120): Fires an exit to c.opb when its trigger value carries DF. -/
  | chkdf (g : BitVec 5) (s : BitVec 9)
  /-- CHKMX (R121): Fires an exit to c.opb when the named matrix condition (PARKED or BUSY) holds in any slab. -/
  | chkmx (g : BitVec 5) (s : BitVec 9)
  /-- QPOINT (R122): Marks the block end as a quiet point of the kinds in t[2..0]. -/
  | qpoint (g : BitVec 5) (s : BitVec 9)
  /-- WAITEV (R125): Waits at the block end for an event of a class enabled in t[7..0]. -/
  | waitev (g : BitVec 5) (s : BitVec 9)
  /-- CYCRD (R127): Delivers cyc, or the offset within the segment, into c.r at c+1. -/
  | cycrd (g : BitVec 5) (s : BitVec 9)
  /-- CYCWAIT (R128): Waits at the block end until cycle max(e+1, t). -/
  | cycwait (g : BitVec 5) (s : BitVec 9)
  /-- CYCALIGN (R129): In a QPOINT block, announces arrival to the domain and waits to correct cyc by tst.DIFF. -/
  | cycalign (g : BitVec 5) (s : BitVec 9)
  /-- MARK (R130): Compares an expected segment offset with the actual one at c+1. -/
  | mark (g : BitVec 5) (s : BitVec 9)
  /-- FMTSET (R131): Copies the staging image into fmt at c+4, after checking it at the trigger. -/
  | fmtset (g : BitVec 5) (s : BitVec 9)
  /-- BNDSET (R132): Applies the staged bounds and actions of the selected bound registers at c+4. -/
  | bndset (g : BitVec 5) (s : BitVec 9)
  /-- PAND (R88): Delivers t AND b into c.p. -/
  | pand (g : BitVec 5) (s : BitVec 9)
  /-- POR (R88): Delivers t OR b into c.p. -/
  | por (g : BitVec 5) (s : BitVec 9)
  /-- PXOR (R88): Delivers t XOR b into c.p. -/
  | pxor (g : BitVec 5) (s : BitVec 9)
  /-- PNOT (R88): Delivers NOT t into c.p. -/
  | pnot (g : BitVec 5) (s : BitVec 9)
  /-- TRAP (R133): When it wins, raises the user trap with code t[15..0]. -/
  | trap (g : BitVec 5) (s : BitVec 9)
  /-- SYS (R133): When it wins, enters WAITING and passes service number t[15..0] with argument c.opa to the service controller. -/
  | sys (g : BitVec 5) (s : BitVec 9)
  /-- EVRET (R134): When it wins in HANDLER, restores the loop levels and resumes issue at ERET. -/
  | evret (g : BitVec 5) (s : BitVec 9)
  /-- EVMASK (R134): Sets tctl.EVM to t[7..0] at c+1. -/
  | evmask (g : BitVec 5) (s : BitVec 9)
  /-- HALT (R133): When it wins, ends the task on the tile with exit code t[7..0] and enters HALTING. -/
  | halt (g : BitVec 5) (s : BitVec 9)
  /-- LD_B (R147): Loads one byte from local address opa + t, zero-extended, into r at c+4. -/
  | ldB (g : BitVec 5) (u : BitVec 2) (s : BitVec 9)
  /-- LD_H (R147): Loads a halfword from a local address. -/
  | ldH (g : BitVec 5) (u : BitVec 2) (s : BitVec 9)
  /-- LD_W (R147): Loads a word from a local address. -/
  | ldW (g : BitVec 5) (u : BitVec 2) (s : BitVec 9)
  /-- LD_D (R147): Loads a doubleword from a local address. -/
  | ldD (g : BitVec 5) (u : BitVec 2) (s : BitVec 9)
  /-- LDS_B (R148): Speculatively loads a byte; a failed check gives a tagged 0 instead of a fault. -/
  | ldsB (g : BitVec 5) (u : BitVec 2) (s : BitVec 9)
  /-- LDS_H (R148): Speculatively loads a halfword. -/
  | ldsH (g : BitVec 5) (u : BitVec 2) (s : BitVec 9)
  /-- LDS_W (R148): Speculatively loads a word. -/
  | ldsW (g : BitVec 5) (u : BitVec 2) (s : BitVec 9)
  /-- LDS_D (R148): Speculatively loads a doubleword. -/
  | ldsD (g : BitVec 5) (u : BitVec 2) (s : BitVec 9)
  /-- ST_B (R147): Stores the low byte of t at local address opa + opb, landing at c+2. -/
  | stB (g : BitVec 5) (u : BitVec 2) (s : BitVec 9)
  /-- ST_H (R147): Stores a halfword at a local address. -/
  | stH (g : BitVec 5) (u : BitVec 2) (s : BitVec 9)
  /-- ST_W (R147): Stores a word at a local address. -/
  | stW (g : BitVec 5) (u : BitVec 2) (s : BitVec 9)
  /-- ST_D (R147): Stores a doubleword at a local address. -/
  | stD (g : BitVec 5) (u : BitVec 2) (s : BitVec 9)
  /-- LDG_B (R147): Loads a byte from a generic local, gang or domain address. -/
  | ldgB (g : BitVec 5) (u : BitVec 2) (s : BitVec 9)
  /-- LDG_H (R147): Loads a halfword from a generic address. -/
  | ldgH (g : BitVec 5) (u : BitVec 2) (s : BitVec 9)
  /-- LDG_W (R147): Loads a word from a generic address. -/
  | ldgW (g : BitVec 5) (u : BitVec 2) (s : BitVec 9)
  /-- LDG_D (R147): Loads a doubleword from a generic address. -/
  | ldgD (g : BitVec 5) (u : BitVec 2) (s : BitVec 9)
  /-- STG_B (R147): Stores a byte at a generic local, gang or domain address. -/
  | stgB (g : BitVec 5) (u : BitVec 2) (s : BitVec 9)
  /-- STG_H (R147): Stores a halfword at a generic address. -/
  | stgH (g : BitVec 5) (u : BitVec 2) (s : BitVec 9)
  /-- STG_W (R147): Stores a word at a generic address. -/
  | stgW (g : BitVec 5) (u : BitVec 2) (s : BitVec 9)
  /-- STG_D (R147): Stores a doubleword at a generic address. -/
  | stgD (g : BitVec 5) (u : BitVec 2) (s : BitVec 9)
  /-- LD_ACQ (R153): Performs an acquire doubleword load at the scope in scp. -/
  | ldAcq (g : BitVec 5) (u : BitVec 2) (s : BitVec 9)
  /-- LD_SC (R153): Performs a sequentially consistent doubleword load. -/
  | ldSc (g : BitVec 5) (u : BitVec 2) (s : BitVec 9)
  /-- ST_REL (R153): Performs a release doubleword store; it faults UNFLUSHED when a bound lock region is dirty. -/
  | stRel (g : BitVec 5) (u : BitVec 2) (s : BitVec 9)
  /-- ST_SC (R153): Performs a sequentially consistent doubleword store. -/
  | stSc (g : BitVec 5) (u : BitVec 2) (s : BitVec 9)
  /-- ATOM_ADD (R154): Atomically adds t to the doubleword at opa and returns the old value. -/
  | atomAdd (g : BitVec 5) (u : BitVec 2) (s : BitVec 9)
  /-- ATOM_AND (R154): Atomically ANDs t into the doubleword at opa. -/
  | atomAnd (g : BitVec 5) (u : BitVec 2) (s : BitVec 9)
  /-- ATOM_OR (R154): Atomically ORs t into the doubleword at opa. -/
  | atomOr (g : BitVec 5) (u : BitVec 2) (s : BitVec 9)
  /-- ATOM_XOR (R154): Atomically XORs t into the doubleword at opa. -/
  | atomXor (g : BitVec 5) (u : BitVec 2) (s : BitVec 9)
  /-- ATOM_MIN (R154): Atomically stores the signed minimum of the old value and t. -/
  | atomMin (g : BitVec 5) (u : BitVec 2) (s : BitVec 9)
  /-- ATOM_MAX (R154): Atomically stores the signed maximum of the old value and t. -/
  | atomMax (g : BitVec 5) (u : BitVec 2) (s : BitVec 9)
  /-- ATOM_XCHG (R154): Atomically exchanges the doubleword with t. -/
  | atomXchg (g : BitVec 5) (u : BitVec 2) (s : BitVec 9)
  /-- ATOM_CAS (R154): Atomically compares the doubleword with opb and stores t when they are equal. -/
  | atomCas (g : BitVec 5) (u : BitVec 2) (s : BitVec 9)
  /-- FENCE_ACQ (R155): An acquire fence at scope t[2..0], with its ordering point at c+1. -/
  | fenceAcq (g : BitVec 5) (u : BitVec 2) (s : BitVec 9)
  /-- FENCE_REL (R155): A release fence. -/
  | fenceRel (g : BitVec 5) (u : BitVec 2) (s : BitVec 9)
  /-- FENCE_AR (R155): An acquire-release fence. -/
  | fenceAr (g : BitVec 5) (u : BitVec 2) (s : BitVec 9)
  /-- FENCE_SC (R155): A sequentially consistent fence. -/
  | fenceSc (g : BitVec 5) (u : BitVec 2) (s : BitVec 9)
  /-- TAGLOOK (R158): Returns the lowest valid window slot holding the page of t, or 0xFFFF. -/
  | taglook (g : BitVec 5) (u : BitVec 2) (s : BitVec 9)
  /-- TAGSET (R159): Writes tag entry opa[9..0] valid, with region opb and VPN t[47..12]. -/
  | tagset (g : BitVec 5) (u : BitVec 2) (s : BitVec 9)
  /-- TAGCLR (R159): Invalidates tag entry t[9..0]. -/
  | tagclr (g : BitVec 5) (u : BitVec 2) (s : BitVec 9)
  /-- RGNMAP (R162): Waits at the block end while the map unit checks, walks and pins the region that the descriptor describes. -/
  | rgnmap (g : BitVec 5) (u : BitVec 2) (s : BitVec 9)
  /-- RGNUNMAP (R163): Unmaps region t[5..0], clears its tag entries and slot states, and releases its pins. -/
  | rgnunmap (g : BitVec 5) (u : BitVec 2) (s : BitVec 9)
  /-- RGNQRY (R164): Returns a doubleword of a region map entry, or the bank ownership word. -/
  | rgnqry (g : BitVec 5) (u : BitVec 2) (s : BitVec 9)
  /-- BANKREL (R166): Frees, at c+2, the held banks named in t. -/
  | bankrel (g : BitVec 5) (u : BitVec 2) (s : BitVec 9)
  /-- BANKWAIT (R167): Waits until every named bank is FREE or held, then takes them. -/
  | bankwait (g : BitVec 5) (u : BitVec 2) (s : BitVec 9)
  /-- VADD (R179): Per-lane FP32 add into v.fp at c+4. -/
  | vadd (g : BitVec 5) (s : BitVec 9)
  /-- VSUB (R179): Per-lane FP32 subtract. -/
  | vsub (g : BitVec 5) (s : BitVec 9)
  /-- VMUL (R179): Per-lane FP32 multiply. -/
  | vmul (g : BitVec 5) (s : BitVec 9)
  /-- VFMA (R179): Per-lane fused multiply-add with one rounding. -/
  | vfma (g : BitVec 5) (s : BitVec 9)
  /-- VMIN (R179): Per-lane FP32 minimum. -/
  | vmin (g : BitVec 5) (s : BitVec 9)
  /-- VMAX (R179): Per-lane FP32 maximum. -/
  | vmax (g : BitVec 5) (s : BitVec 9)
  /-- VABS (R180): Clears the sign bit of each lane. -/
  | vabs (g : BitVec 5) (s : BitVec 9)
  /-- VNEG (R180): Inverts the sign bit of each lane. -/
  | vneg (g : BitVec 5) (s : BitVec 9)
  /-- VIADD (R180): Per-lane 32-bit integer add. -/
  | viadd (g : BitVec 5) (s : BitVec 9)
  /-- VISUB (R180): Per-lane 32-bit integer subtract. -/
  | visub (g : BitVec 5) (s : BitVec 9)
  /-- VIMUL (R180): Per-lane low 32 bits of the integer product. -/
  | vimul (g : BitVec 5) (s : BitVec 9)
  /-- VAND (R180): Per-lane AND. -/
  | vand (g : BitVec 5) (s : BitVec 9)
  /-- VOR (R180): Per-lane OR. -/
  | vor (g : BitVec 5) (s : BitVec 9)
  /-- VXOR (R180): Per-lane XOR. -/
  | vxor (g : BitVec 5) (s : BitVec 9)
  /-- VSHL (R180): Per-lane left shift. -/
  | vshl (g : BitVec 5) (s : BitVec 9)
  /-- VSHR (R180): Per-lane logical right shift. -/
  | vshr (g : BitVec 5) (s : BitVec 9)
  /-- VSAR (R180): Per-lane arithmetic right shift. -/
  | vsar (g : BitVec 5) (s : BitVec 9)
  /-- VCMP_EQ (R181): FP32 equality compare into a mask. -/
  | vcmpEq (g : BitVec 5) (s : BitVec 9)
  /-- VCMP_NE (R181): FP32 inequality compare into a mask. -/
  | vcmpNe (g : BitVec 5) (s : BitVec 9)
  /-- VCMP_LT (R181): FP32 less-than compare into a mask. -/
  | vcmpLt (g : BitVec 5) (s : BitVec 9)
  /-- VCMP_LE (R181): FP32 less-or-equal compare into a mask. -/
  | vcmpLe (g : BitVec 5) (s : BitVec 9)
  /-- VCMP_IEQ (R181): Integer equality compare into a mask. -/
  | vcmpIeq (g : BitVec 5) (s : BitVec 9)
  /-- VCMP_INE (R181): Integer inequality compare into a mask. -/
  | vcmpIne (g : BitVec 5) (s : BitVec 9)
  /-- VCMP_ILT (R181): Signed integer less-than compare into a mask. -/
  | vcmpIlt (g : BitVec 5) (s : BitVec 9)
  /-- VCMP_ILE (R181): Signed integer less-or-equal compare into a mask. -/
  | vcmpIle (g : BitVec 5) (s : BitVec 9)
  /-- VCMP_ILTU (R181): Unsigned integer less-than compare into a mask. -/
  | vcmpIltu (g : BitVec 5) (s : BitVec 9)
  /-- VCMP_ILEU (R181): Unsigned integer less-or-equal compare into a mask. -/
  | vcmpIleu (g : BitVec 5) (s : BitVec 9)
  /-- VSEL (R182): Selects t or a per lane by the mask. -/
  | vsel (g : BitVec 5) (s : BitVec 9)
  /-- VCVT (R183): Converts 64 packed elements from SFMT to DFMT into v.cv at c+3. -/
  | vcvt (g : BitVec 5) (s : BitVec 9)
  /-- VRED_ADD (R184): Reduces the lanes with a fixed FP32 add tree into v.sr at c+8. -/
  | vredAdd (g : BitVec 5) (s : BitVec 9)
  /-- VRED_MIN (R184): Reduces the lanes to their minimum with the fixed tree. -/
  | vredMin (g : BitVec 5) (s : BitVec 9)
  /-- VRED_MAX (R184): Reduces the lanes to their maximum with the fixed tree. -/
  | vredMax (g : BitVec 5) (s : BitVec 9)
  /-- VRED_IADD (R184): Reduces the lanes to their exact 64-bit integer sum. -/
  | vredIadd (g : BitVec 5) (s : BitVec 9)
  /-- VSHUF (R185): Permutes the lanes of t by the indices in a. -/
  | vshuf (g : BitVec 5) (s : BitVec 9)
  /-- VBCAST (R185): Broadcasts lane LANE of t to every lane. -/
  | vbcast (g : BitVec 5) (s : BitVec 9)
  /-- VGSHUF (R185): Permutes lanes across the slabs of the gang. -/
  | vgshuf (g : BitVec 5) (s : BitVec 9)
  /-- VLD (R189): Loads 64 lanes from strided local addresses into v.lr at c+5. -/
  | vld (g : BitVec 5) (s : BitVec 9)
  /-- VST (R189): Stores the active lanes at strided local addresses, landing at c+3. -/
  | vst (g : BitVec 5) (s : BitVec 9)
  /-- VGATH (R189): Gathers lanes from v.adr + t[i] into v.gr at c+12. -/
  | vgath (g : BitVec 5) (s : BitVec 9)
  /-- VSCAT (R189): Scatters a's lanes to v.adr + t[i], landing at c+10. -/
  | vscat (g : BitVec 5) (s : BitVec 9)
  /-- KAND (R186): Delivers t AND km into v.kr. -/
  | kand (g : BitVec 5) (s : BitVec 9)
  /-- KOR (R186): Delivers t OR km. -/
  | kor (g : BitVec 5) (s : BitVec 9)
  /-- KXOR (R186): Delivers t XOR km. -/
  | kxor (g : BitVec 5) (s : BitVec 9)
  /-- KNOT (R186): Delivers NOT t. -/
  | knot (g : BitVec 5) (s : BitVec 9)
  /-- KTAIL (R186): Forms the tail mask of length t over the gang lanes. -/
  | ktail (g : BitVec 5) (s : BitVec 9)
  /-- KPOPC (R186): Counts the set bits of the mask into v.ks. -/
  | kpopc (g : BitVec 5) (s : BitVec 9)
  /-- VCLAMP (R187): Clamps each active lane to the bounds of a bound register. -/
  | vclamp (g : BitVec 5) (s : BitVec 9)
  /-- FLOAD (R193): Loads the 256-segment interpolation table from scratchpad over 48 rows; it takes effect at c+48. -/
  | fload (g : BitVec 5) (s : BitVec 9)
  /-- FEVAL (R195): Evaluates the quadratic segment for each lane into f.r at c+7. -/
  | feval (g : BitVec 5) (s : BitVec 9)
  /-- XPUSH (R197): Pushes a row into the filling transposer tile. -/
  | xpush (g : BitVec 5) (s : BitVec 9)
  /-- XPOP (R198): Delivers the next column of the oldest full tile into x.r at c+1. -/
  | xpop (g : BitVec 5) (s : BitVec 9)
  /-- XCLR (R199): Empties both transposer buffers at c+1. -/
  | xclr (g : BitVec 5) (s : BitVec 9)
  /-- MXCALL (R213): Starts matrix routine t[5..0] after the checks of R228, latching fmt, mp, hm and the bound register. -/
  | mxcall (g : BitVec 5) (s : BitVec 9)
  /-- MXLOAD (R217): Writes a context microword or entry of the microprogram store at c+2. -/
  | mxload (g : BitVec 5) (s : BitVec 9)
  /-- MXRESUME (R214): Restarts the parked routine in every slab at the parked group. -/
  | mxresume (g : BitVec 5) (s : BitVec 9)
  /-- MXSTAT (R215): Delivers the mst of gang slab t[1..0] into m.st at c+1. -/
  | mxstat (g : BitVec 5) (s : BitVec 9)
  /-- MXZERO (R216): Zeroes the selected accumulator banks and their LSF by c+32. -/
  | mxzero (g : BitVec 5) (s : BitVec 9)
  /-- MXSWAP (R217): Inverts mst.FRONT at c+1. -/
  | mxswap (g : BitVec 5) (s : BitVec 9)
  /-- MNOP (R218): Microword that does nothing for one cycle. -/
  | mnop (gang : TileName)
  /-- MLDA (R218): Microword that loads the A descriptor pair and orientation and sets GI to 0. -/
  | mlda (gang : TileName) (x : Bool) (pr : BitVec 2)
  /-- MLDB (R218): Microword that loads the B descriptor pair and orientation. -/
  | mldb (gang : TileName) (x : Bool) (pr : BitVec 2)
  /-- MSTEP (R218): Microword that adds group GI (or all remaining groups) into a bank under the alignment window. -/
  | mstep (gang : TileName) (x bk chk : Bool)
  /-- MCHK (R218): Microword that checks the residency of group GI. -/
  | mchk (gang : TileName) (bk : Bool)
  /-- MLOOP (R218): Microword that sets the loop counter and starts the body. -/
  | mloop (gang : TileName) (n : BitVec 12)
  /-- MEND (R218): Microword that decrements the loop counter and repeats the body while it is positive. -/
  | mend (gang : TileName)
  /-- MHAD (R78): Microword that applies the Hadamard pass to a bank. -/
  | mhad (gang : TileName) (bk : Bool)
  /-- MDRAIN (R221): Microword that drains a bank as converted rows to scratchpad in the background. -/
  | mdrain (gang : TileName) (x bk : Bool) (fmt : BitVec 4)
  /-- MFLAG (R222): Microword that drains the LSF bits of a bank as flag rows and clears them. -/
  | mflag (gang : TileName) (bk : Bool)
  /-- MZERO (R218): Microword that zeroes a bank. -/
  | mzero (gang : TileName) (bk : Bool)
  /-- MSWAP (R218): Microword that inverts mst.FRONT. -/
  | mswap (gang : TileName)
  /-- MSIG (R218): Microword that writes mst.SIG. -/
  | msig (gang : TileName) (n : BitVec 12)
  /-- MSNAP (R218): Microword that copies the front bank into the back bank. -/
  | msnap (gang : TileName)
  /-- MWAIT0 (R218): Microword that waits until the background operation ends. -/
  | mwait0 (gang : TileName)
  /-- MHALT (R218): Microword that ends the routine after the background operation. -/
  | mhalt (gang : TileName)
  /-- WFILL (R239): Checks the slot and reservations, then starts the fixed 256-cycle fill of a window slot from the vault. -/
  | wfill (g : BitVec 5) (s : BitVec 9)
  /-- WFLUSH (R239): Starts the fixed 256-cycle write-back of a slot's dirty lines to the vault. -/
  | wflush (g : BitVec 5) (s : BitVec 9)
  /-- WINV (R240): Clears RES and DIRTY of a slot at c+2 and discards unwritten data. -/
  | winv (g : BitVec 5) (s : BitVec 9)
  /-- WATOM (R241): Starts a doubleword atomic on vault data, locally at c+128 or at a remote home. -/
  | watom (g : BitVec 5) (s : BitVec 9)
  /-- WSTAT (R242): Returns slot, DIRTY or vault status into d.r at c+1. -/
  | wstat (g : BitVec 5) (s : BitVec 9)
  /-- WRES (R243): Returns 64 RES bits into d.r at c+1. -/
  | wres (g : BitVec 5) (s : BitVec 9)
  /-- PGREQ (R397): Asks for a page to be made resident in a slab's vault and returns the request number. -/
  | pgreq (g : BitVec 5) (s : BitVec 9)
  /-- KCOPY (R263): Starts a copy of NB 64-byte rows to a tile as asynchronous beats and returns the copy number. -/
  | kcopy (g : BitVec 5) (s : BitVec 9)
  /-- KSTAT (R264): Returns the state of a copy, or the number of copies in flight. -/
  | kstat (g : BitVec 5) (s : BitVec 9)
  /-- SEND (R257): Puts a lane quarter on the output in direction dd when the switch entry of the cycle names LOCAL. -/
  | send (g : BitVec 5) (d : BitVec 2) (s : BitVec 9)
  /-- ROUTESET (R254): Loads a switch program of P entries from scratchpad; it is checked at c+64. -/
  | routeset (g : BitVec 5) (s : BitVec 9)
  /-- NAMELOAD (R261): Writes a name-cache entry at c+4. -/
  | nameload (g : BitVec 5) (s : BitVec 9)
  /-- NAMEQ (R261): Returns the hit, B, hop and seam counts, and entry for a name into n.r at c+4. -/
  | nameq (g : BitVec 5) (s : BitVec 9)
  /-- BARINIT (R282): Makes a barrier record OPEN with HOME, EXP and SEND, or FREE, at c+2. -/
  | barinit (g : BitVec 5) (s : BitVec 9)
  /-- BARARR (R283): Sets the record HELD and queues an arrival item, which becomes eligible when INB and OUTB are 0. -/
  | bararr (g : BitVec 5) (s : BitVec 9)
  /-- BARWAIT (R285): Waits until the record is OPEN. -/
  | barwait (g : BitVec 5) (s : BitVec 9)
  /-- BARTEST (R281): Returns into b.p at c+4 whether the record is OPEN. -/
  | bartest (g : BitVec 5) (s : BitVec 9)
  /-- BARXIN (R281): Adds b.opa to the record's inbound beat count at c+2. -/
  | barxin (g : BitVec 5) (s : BitVec 9)
  /-- BARXOUT (R281): Adds b.opa to the record's outbound beat count at c+2. -/
  | barxout (g : BitVec 5) (s : BitVec 9)
  /-- TOKPUT (R357): Checks the token-word address and queues a token item, or a soft event, to the destination tile. -/
  | tokput (g : BitVec 5) (s : BitVec 9)
  /-- TOKGET (R357): Takes one token from a local token word at c+2 and returns 1 or 0 into q.r at c+4. -/
  | tokget (g : BitVec 5) (s : BitVec 9)
  /-- RINGPUT (R360): Sends a 64-bit payload to a host ring as a wafer item. -/
  | ringput (g : BitVec 5) (s : BitVec 9)
  /-- COLL (R423): Checks a collective descriptor and sends the gang's contribution to the collective engine. -/
  | coll (g : BitVec 5) (s : BitVec 9)
  /-- COLLWAIT (R424): Waits until the gang's collective has written its result or failed. -/
  | collwait (g : BitVec 5) (s : BitVec 9)
  /-- ROUTINE_LANDING (R213): A matrix routine lands at c+D or c+D′, and BUSY clears. -/
  | routineLanding
  /-- WFILL_LANDING (R235): The fill lands at c+256: the page is visible, PEND clears, and RES is set when the tag still matches. -/
  | wfillLanding
  /-- WFLUSH_LANDING (R239): The flush completes at c+256, with its dirty lines written to the vault. -/
  | wflushLanding
  /-- WATOM_APPLY (R241): The vault's atomic port applies a local WATOM on cycle c+128. -/
  | watomApply
  /-- REMOTE_WATOM_APPLY (R241): A remote WATOM request is applied at its home vault on delivery, and a reply is sent. -/
  | remoteWatomApply
  /-- REMOTE_WATOM_REPLY (R260): The old value of a remote WATOM reaches the requester at x + 2B + 128. -/
  | remoteWatomReply
  /-- ROUTESET_CHECK (R254): At c+64 the loaded switch program is checked and refused with the format trap, or scheduled for T0. -/
  | routesetCheck
  /-- SWITCH_PROGRAM_START (R254): A checked switch program becomes the running program at T0. -/
  | switchProgramStart
  /-- ROUTER_STATIC_BEAT (R253): A static beat arriving at an input is forwarded to outputs and delivered to its receive port as the cycle's entry gives. -/
  | routerStaticBeat
  /-- ASYNC_ITEM_SEND (R258): In an owned injection cycle the tile sends the oldest eligible single-beat item, else a release, else a copy beat. -/
  | asyncItemSend
  /-- REMOTE_ACCESS_ARRIVAL (R147): A domain access reaches the target's array at c+5+h+2s and acts there. -/
  | remoteAccessArrival
  /-- ARRIVAL_DELIVERY (R284): An arrival reaches the home, which counts it and appends a release-list entry. -/
  | arrivalDelivery
  /-- RELEASE_DELIVERY (R286): A release item sets an ARRIVED proxy record OPEN with the carried generation. -/
  | releaseDelivery
  /-- COPY_BEAT_DELIVERY (R263): A copy beat writes its destination row, sets DIRTY, and counts the enabled barrier records down. -/
  | copyBeatDelivery
  /-- TOKEN_DELIVERY (R357): A token item increments COUNT of the token word at D, updates SCOPE, and may post a TOKEN event. -/
  | tokenDelivery
  /-- SOFT_EVENT_DELIVERY (R358): A soft-event item posts a SOFT event to the destination tile, or is dropped and counted. -/
  | softEventDelivery
  /-- COLL_CONTRIBUTION_ARRIVAL (R423): A contribution reaches the collective engine, which forms and writes the result once all have arrived. -/
  | collContributionArrival
  /-- HOST_RING_ENTRY_WRITE (R360): An item reaching the host link engine writes a host-ring entry, or is dropped when the ring is full. -/
  | hostRingEntryWrite
  /-- RING_COALESCE_TIMEOUT (R361): T µs after the first pending entry, the ring's interrupt is raised and PENDING is cleared. -/
  | ringCoalesceTimeout
  /-- RING_HEAD_ADVANCE (R360): The host advances a ring's HEAD, and RING events are posted to enabling EVENT tiles. -/
  | ringHeadAdvance
  /-- WAITEV_COMPLETE (R125): WAITEV completes when an enabled event is pending; it takes that event and puts the word in c.r. -/
  | waitevComplete
  /-- CYCWAIT_COMPLETE (R128): CYCWAIT completes at its target cycle, which is a new segment origin. -/
  | cycwaitComplete
  /-- CYCALIGN_COMPLETE (R129): After all the domain's arrivals, cyc is corrected and the wait completes on the common multiple of 256. -/
  | cycalignComplete
  /-- BARWAIT_COMPLETE (R285): BARWAIT completes on the first cycle on which the record is OPEN. -/
  | barwaitComplete
  /-- BANKWAIT_COMPLETE (R167): BANKWAIT takes its banks when they are free, writes any constant rows, and completes. -/
  | bankwaitComplete
  /-- RGNMAP_WALK_END (R162): The map unit's walk ends, leaving the region MAPPED or FAULTED. -/
  | rgnmapWalkEnd
  /-- RGNMAP_COMPLETE (R162): The RGNMAP wait completes after its checks, its walk and any first-touch fills. -/
  | rgnmapComplete
  /-- COLLWAIT_COMPLETE (R424): COLLWAIT completes with the status in q.c. -/
  | collwaitComplete
  /-- SYS_ANSWER (R133): The service controller's answer reaches c.r, and the fall-through issues on a new segment origin. -/
  | sysAnswer
  /-- HALT_DRAIN_COMPLETE (R334): After its last in-flight landing a halted gang is ENDED, its banks become FREE, and it reports to the dispatcher. -/
  | haltDrainComplete
  /-- TASK_START (R336): Every gang of a task issues its first bundle on the common start cycle T. -/
  | taskStart
  /-- DISPATCH_DECISION (R345): On each cycle that is a multiple of 64 the dispatcher places the fitting candidate of highest priority. -/
  | dispatchDecision
  /-- TIME_TABLE_FIRING (R350): At a firing slot a valid time-table entry makes its record a candidate, or settles an overrun by policy. -/
  | timeTableFiring
  /-- HEARTBEAT (R440): Each gang sends a heartbeat with its state when cyc mod 2^20 = 0. -/
  | heartbeat
  /-- HEARTBEAT_TIMEOUT (R440): A missing heartbeat marks the front end RETIRING and hard-freezes the context with fault class hang. -/
  | heartbeatTimeout
  /-- BELLWETHER_ROUND_START (R443): At each multiple of 4,096 the edge ring sends a beacon to tile (0, 0). -/
  | bellwetherRoundStart
  /-- BEACON_RECEIVE (R443): A tile compares a beacon with its cyc, records any drift, and forwards a corrected beacon. -/
  | beaconReceive
  /-- SAMPLE_TICK (R464): Every 2^k cycles each sampled gang writes a counter row to the sampler ring. -/
  | sampleTick
  /-- BREAKPOINT_HIT (R467): A breakpoint's COUNT-th match freezes the context on its stop edge and posts a BREAK notice. -/
  | breakpointHit
  /-- STEP_STOP_EDGE (R468): After n cycles of a STEP, the context freezes on edge g + n. -/
  | stepStopEdge
  /-- FREEZE_EDGE (R376): On the freeze edge every gang of the context stops and pending actions go to the replay queue. -/
  | freezeEdge
  /-- UNCORRECTABLE_ERROR_DETECT (R453): An uncorrectable memory error is detected and schedules a wafer freeze at t + 64. -/
  | uncorrectableErrorDetect
  /-- ROLLBACK (R454): After a wafer freeze the affected context unwinds undo entries, restores boundary copies and resumes from the boundary. -/
  | rollback
  /-- REPLAY_REQUEST (R455): When REPLAYINT cycles pass or undo reaches half its count, a REPLAY request is raised. -/
  | replayRequest
  /-- REPLAY_BOUNDARY_CUT (R455): At the consistent cut the boundary copies are written, undo is discarded and the context resumes. -/
  | replayBoundaryCut
  /-- QUIESCE_CUT (R373): Once all gangs are stopped and links are clear, the context enters QUIESCED. -/
  | quiesceCut
  /-- QUIESCE_BOUND_EXPIRY (R375): A quiesce bound that expires before the cut hard-freezes the context. -/
  | quiesceBoundExpiry
  /-- INVAL_TIMEOUT (R403): An invalidation not acknowledged in time hard-freezes the context and completes with TIMEOUT. -/
  | invalTimeout
  /-- CONTEXT_RESUME_START (R386): On cycle g every gang resumes, with absolute cycles rebased by g − CYCBASE. -/
  | contextResumeStart
  /-- DUMP_WRITE (R457): A FAULTED context is dumped as a signed, encrypted frozen image with its fault records, then becomes DEAD. -/
  | dumpWrite
  /-- DUMP_ABORT (R459): A fault in the dump path aborts the dump and keeps a summary in flash. -/
  | dumpAbort
  /-- CREATE (R365): Creates a context with its keys, undo share, deadlines and dump settings; it enters LOADING. -/
  | create
  /-- START (R365): Enables dispatch of the context's queues; it enters RUNNING. -/
  | start
  /-- QUIESCE (R370): Raises quiet-point requests of the named kinds; the context enters QUIESCING. -/
  | quiesce
  /-- FREEZE (R376): Hard-freezes the context. -/
  | freeze
  /-- RESUME (R386): Resumes a QUIESCED or FROZEN context at a cycle g. -/
  | resume
  /-- EXPORT (R380): Writes a state image of the context. -/
  | exportImage
  /-- RESTORE (R385): Checks and reads a state image into a FREE context. -/
  | restore
  /-- KILL (R339): Ends every task with no completion and cancels outstanding requests; the context enters DEAD. -/
  | kill
  /-- RELEASE (R365): Frees a DEAD context's resources; it enters FREE. -/
  | release
  /-- LOADDONE (R366): Ends the loading phase; the context enters READY. -/
  | loaddone
  /-- STEP (R468): Resumes the context for n cycles and freezes it again. -/
  | stepCmd
  /-- BK_SET (R466): Sets a breakpoint. -/
  | bkSet
  /-- BK_CLEAR (R466): Clears a breakpoint. -/
  | bkClear
  /-- TR_ARM (R463): Arms the interlock trace, or answers 0 on an SXW-66-L. -/
  | trArm
  /-- SMP_SET (R464): Sets or stops the sampler. -/
  | smpSet
  /-- MK_READ (R462): Reads and frees marker-log records. -/
  | mkRead
  /-- PG_INVAL (R402): Requests invalidation of every pin of a VPN range. -/
  | pgInval
  /-- PG_MIGRATE (R404): Moves a page's home, re-points translations and answers a pending request. -/
  | pgMigrate
  /-- PG_ANSWER (R401): Fails a HOST-PENDING page request with a nonzero code. -/
  | pgAnswer
  /-- WIN_SET (R414): Writes a host window's base, context and enable bit. -/
  | winSet
  /-- COMM_SET (R421): Sets up a communicator. -/
  | commSet
  /-- RING_SET (R359): Sets up a host ring. -/
  | ringSet
  /-- TT_SET (R349): Writes a time-triggered table entry. -/
  | ttSet
  /-- LOAD_OBJECT (R328): The loader checks, relocates and places a code object into a context and returns the outcome word. -/
  | loadObject
  /-- PAGE_REQUEST_ARRIVAL (R398): A page request reaches the service controller and is answered at once or posted to the host. -/
  | pageRequestArrival
  /-- HOST_MAILBOX_WRITE (R412): A host write to a mailbox is held pending until the next segment origin, or dropped. -/
  | hostMailboxWrite
  /-- DOORBELL_WRITE (R413): A host doorbell write posts a HOST event, or is refused and counted. -/
  | doorbellWrite
  /-- HOST_WINDOW_WRITE (R414): A host write through a window is translated and written, undo-logged, or dropped. -/
  | hostWindowWrite
  /-- HOST_WINDOW_READ (R414): A host read through a window is translated, giving all ones for a missing page. -/
  | hostWindowRead
  /-- HOST_LEAF_WRITE (R396): A host write to a page-table entry is made when its PCNT is 0, and refused otherwise. -/
  | hostLeafWrite
  /-- LINK_TRAINING (R408): A link enters TRAINING on bring-up, a remap or a request, and ends UP or FAILED. -/
  | linkTraining
  /-- LINK_UNRECOVERABLE_ERROR (R408): An error that retry cannot absorb sets the link FAILED and posts a LINK event. -/
  | linkUnrecoverableError
  /-- SEAM_BEAT_ERROR (R410): A seam link corrects a single-bit beat error, or reports an uncorrectable one. -/
  | seamBeatError
  /-- TRANSPORT_DATA_RECEIVE (R419): A DATA frame with the expected SEQ and a good CRC is accepted; otherwise it is dropped and a NAK is sent. -/
  | transportDataReceive
  /-- TRANSPORT_ACK_RECEIVE (R419): An ACK releases the acknowledged frames. -/
  | transportAckReceive
  /-- TRANSPORT_NAK_RECEIVE (R419): A NAK causes a resend from ACKSEQ. -/
  | transportNakReceive
  /-- TRANSPORT_RESEND_TIMEOUT (R419): After 10 µs without an ACK the sender resends, and after 16 resends the port fails over. -/
  | transportResendTimeout
  /-- PTP_MESSAGE (R426): An IEEE 1588 message disciplines the module clock. -/
  | ptpMessage
  /-- TIME_SOURCE_LOSS (R426): Loss of the time source holds the clock's frequency and tells the host. -/
  | timeSourceLoss
  /-- POWER_ON (R429): The service controller, host link and edge ring come up, and the bring-up phases begin. -/
  | powerOn
  /-- SELFTEST_RESULT (R430): A reticle's self-test marks its slabs and front ends good or defective. -/
  | selftestResult
  /-- ISLAND_MERGE (R431): A seam link reaching UP merges two islands, aligning their counts after quiescing their contexts. -/
  | islandMerge
  /-- BINDING_MAP_WRITE (R434): The binding map is written, checked and attested with a signed record. -/
  | bindingMapWrite
  /-- REMAP (R437): While quiesced, RETIRING units are bypassed, vaults are copied and a new map is attested. -/
  | remap
  /-- REINSTATEMENT (R438): A RETIRED unit with a signed repair record returns to SPARE. -/
  | reinstatement
  /-- VOLTAGE_TRIM (R439): Every millisecond the service controller trims each island's regulator. -/
  | voltageTrim
  /-- DROOP_ALARM (R439): A droop alarm withholds the next schedule-clock edge wafer-wide. -/
  | droopAlarm
  /-- POWER_OFF (R429): Power-off ends the SERVICE phase of the module. -/
  | powerOff
  /-- LINK_STOP (R408): The service controller stops an UP link while the module is quiesced, and the link enters DOWN. -/
  | linkStop
  /-- ALIGNMENT_ARRIVAL (R129): A CYCALIGN arrival announcement of another domain tile reaches a waiting tile; once all have arrived, it lowers cyc by tst.DIFF and clears DRIFT and DIFF. -/
  | alignmentArrival
  /-- TIME_SOURCE_SELECT (R426): The host selects the 1588 clock source: free-running, a named scale-out port, or the PCI Express host clock. -/
  | timeSourceSelect
  /-- PIN_RELEASE_COMPLETE (R163): The map unit completes, on its own time, the release of a region's pins after RGNUNMAP, lowering each leaf's PCNT. -/
  | pinReleaseComplete
deriving DecidableEq, Repr

end Sys2Proof
end

