-- ==== Sys2Proof/Config.lean ====
section
/-! DEFINITION. What the part fixes, and the values the manual leaves open as constants without a body. -/

namespace Sys2Proof.Config

/-- Whether the module is an SXW-66-D (00_scope R1): both ordering codes are covered, log 1. -/
opaque developmentModule : Bool

/-- The device's feature version (14_kernel R320: this part reports 1). -/
def featureVersion : Nat := 1

/-- Schedule cycles in one microsecond of unstretched wall time (01_wafer R24: 1.2 GHz). -/
def cyclesPerUs : Nat := 1200

/-- The open durations of 00_scope R485, one free value for each use (the counter State.freeCount): the cycles
a controller or an engine takes beyond its stated minimum.  No body: nothing constrains it.  Log 10. -/
opaque delay : Nat → Nat

/-- The service numbers of SYS that the operator's firmware serves, and what it answers to number n with argument a at its
k-th use (05_sequencer R133, R487).  Open: both belong to the operator's system.  Log 11. -/
opaque sysServed : Nat → Bool
opaque sysAnswer : Nat → Word → Nat → Word

/-- The bundles a portable body and its constants lower to (14_kernel R332: a fixed function of the body and the feature
version, which the manual does not give), and for each operation the bundle and slot of the moves into its trigger port, its
first and its second operand port.  The loader takes it only where it keeps what R331 to R333 say.  Log 12. -/
opaque lowerMuast : List Byte → List Byte → Nat → List (BitVec 256) × List (List (Nat × Nat))

/-- SHA-512 and Ed25519 of 16_context R380 and 19_tile R434, AES-256-XTS of R382 and AES Key Wrap of R382:
named by the manual, defined by their own standards.  Uninterpreted here: XTS by key, tweak and plain bytes, the wrap by
transport slot and key.  Log 13. -/
opaque sha512 : List Byte → BitVec 512
opaque ed25519 : BitVec 512 → BitVec 512
/-- A signature of a digest verifies under the module's identity key (19_tile R434, R438).  Log 13. -/
opaque edVerify : BitVec 512 → BitVec 512 → Bool
opaque xts : BitVec 576 → Nat → List Byte → List Byte
opaque wrapKey : Nat → BitVec 576 → BitVec 576

/-- How far the frequency of the 1588 clock stands from the nominal one from its k-th setting on is no number of the manual
(18_link R426): it is within 1 part in 10^7.  Log 14. -/
opaque clockRate : Nat → Nat

/-- The source and payload bits of an event word or of an entry that no rule gives: a fixed function of the bits that the
rules do give, so that equal runs read equal bits (00_scope R3, R5).  Log 17. -/
opaque eventBits : Word → BitVec 56

/-- The module's logical index in its pod, and the module that each scale-out port reaches (18_link R417): given by the
operator's management plane.  Log 18. -/
opaque moduleCode : BitVec 8
opaque peerCode : Nat → BitVec 8
def moduleIndex : Nat := moduleCode.toNat
def portPeer (p : Nat) : Nat := (peerCode p).toNat

/-- The payloads that carry a contribution between modules, and the contribution that a list of received payloads makes
up (18_link R418 gives the frame's header, no rule the payload's coding): communicator, number, rank, operation, format,
root, count, bytes.  Log 18. -/
opaque contributionFrames : Nat → Nat → Nat → List Nat → List Byte → List (List Byte)
opaque contributionIn : List (List Byte) → Option (Nat × Nat × Nat × List Nat × List Byte)

/-- Where the service controller puts the root table of a context: home and frame (17_page R389).  Log 135. -/
opaque rootTable : Nat → Nat × Nat

/-- Key slots of the module (01_wafer R26). -/
def keySlots : Nat := 2048

/-- The operator's policy on signatures, whether a transport slot unwraps the keys of an image
wrapped under another, the bytes of the k-th dump (16_context R385, 20_fault R457, R459).  Log 19. -/
opaque sigRequired : Bool
opaque unwraps : Nat → Nat → Bool
opaque dumpKeyOk : BitVec 256 → Bool
opaque dumpSize : Nat → Nat

/-- What the hardware and the service controller's own choices give: whether the k-th training attempt of a link passes, the
slabs and front ends that the k-th self-test of a reticle finds defective (13·row + column), the binding map that the service
controller chooses (19_tile R430, R434, R437), the trim that an island's monitors ask for, 0 down, 1 none, 2 up, and the edges
in 4,096 that throttling withholds (R439).  Log 20. -/
opaque linkTrains : Nat → Bool
opaque badSlabs : Nat → List Nat
opaque badFrontEnds : Nat → List Nat
opaque bindingChoice : Nat → Option BindingMap
opaque trim : Nat → Nat
opaque throttleDuty : Nat → Nat

/-- Codes in the records of 16_context R383 and 21_marker R463 that no rule gives: of the sequencer's states in the order of
05_sequencer R107, of XKIND by exit port and of LOP by trigger port, the bit of WAITS for a unit of R384.  Log 21. -/
opaque stateCode : Nat → Byte
opaque exitKind : Nat → BitVec 4
opaque lopCode : Nat → BitVec 2
opaque waitBit : Nat → Nat

/-- The module's serial number and the public key of its identity (19_tile R434, 16_context R380).  Log 13. -/
opaque serial : BitVec 128
opaque signer : BitVec 256

end Sys2Proof.Config
end

