-- ==== Sys2Proof/Machine/State.lean ====
section
/-! DEFINITION. The state of the module as plain data: gangs, slabs, contexts, tasks, memories, the agenda of future events, and State.reset. -/

namespace Sys2Proof.Machine

/-- Why a step stops with a fault of the model.  A fault of the part (20_fault R445) is no such stop: it is a
next state with a fault record and a freeze edge. -/
inductive Fault where
  /-- Raised by a slot's meaning when no front end is issuing a bundle: no rule gives a move outside a bundle an
  effect.  Safe: the part never does this. -/
  | noBundle
  /-- Raised by an event's meaning when the operands beside it are not its own.  Safe: the agenda always holds the
  two together. -/
  | noOperand
  /-- Raised by step when no event is due and no bundle is issuing: a module that is powered off (19_tile R429).
  Safe: nothing happens until the host acts. -/
  | idle
deriving DecidableEq, Repr

/-- Why an instruction has no meaning. -/
inductive Refusal where
  /-- Raised by exec for an arm that has no meaning yet.  Safe: the machine stops. -/
  | notModelled (mnemonic : String)
  /-- Raised by step when a slot's 24 bits are no instruction: the check of 02_bundle R53 empties such a bundle
  before any slot of it is run.  Safe: no bundle that passed the check holds such a slot. -/
  | reservedEncoding
deriving DecidableEq, Repr

/-- The states of a sequencer (05_sequencer R107). -/
inductive SeqState where
  | idle | issuing | waiting | handler | stopped | frozen | halting
deriving DecidableEq, Repr

/-- A loop level (05_sequencer R106, R114): the four strides stand in one word, stride i in bits 16i+15..16i. -/
structure LoopLevel where
  start   : Nat
  last    : Nat
  trips   : BitVec 32
  iter    : BitVec 32
  strides : Word
deriving DecidableEq, Repr

/-- A fired exit (05_sequencer R106 XKIND, XTGT, XSLOT): the exit's port, its target or operand, the argument of
SYS, the slot and the bundle of the block it stood in. -/
structure ExitRec where
  port : Nat
  tgt  : Word
  aux  : Word
  slot : Nat
  bpos : Nat
deriving DecidableEq, Repr

/-- A pending loop operation (R106 LOP): its port, count, c.opa, c.opb and slot. -/
structure LoopOp where
  port : Nat
  n    : Nat
  e    : Word
  strides : Word
  slot : Nat
deriving DecidableEq, Repr

/-- A fired wait (R106 WAITS, 02_bundle R52). -/
inductive WaitKind where
  | waitev (mask : BitVec 8)
  | cycwait (t : Word)
  | cycalign
  | barwait (n : Nat)
  | bankwait (unit : Bool) (mask : BitVec 32) (consts : Bool)
  | rgnmap (unit : Bool) (region : Nat) (desc : Nat)
  | collwait
  | sys (num arg : Word)
deriving DecidableEq, Repr

/-- The block record (05_sequencer R106). -/
structure Block where
  bpos  : Nat
  exit  : Option ExitRec
  xcol  : Bool
  lop   : Option LoopOp
  qp    : BitVec 3
  /-- the slot of the latest QPOINT that fired, 0xFF when none did -/
  qpSlot : Nat
  waits : List WaitKind
  cwaits : Nat
  /-- a recorded control trap: cause, slot, port (R110 step 1, R135) -/
  trap  : Option (Nat × Nat × Nat)
deriving DecidableEq, Repr

/-- The empty block record. -/
def Block.empty : Block := ⟨0, none, false, none, 0, 0xFF, [], 0, none⟩

/-- The sticky flags of tst (05_sequencer R108); LSD and CSD are read from the stacks. -/
structure Tst where
  excol : Bool
  scopenarrow : Bool
  cvovf : Bool
  invf  : Bool
  bndf  : Bool
  dzf   : Bool
  drift : Bool
  diff  : BitVec 16
deriving DecidableEq, Repr

def Tst.reset : Tst := ⟨false, false, false, false, false, false, false, 0⟩

/-- The control bits of tctl (R109); INH is the gang's handler bit. -/
structure Tctl where
  exitstrict  : Bool
  scopestrict : Bool
  event : Bool
  evm   : BitVec 8
deriving DecidableEq, Repr

def Tctl.reset : Tctl := ⟨false, false, false, 0⟩

/-- The reset value of fmt and of its staging image (03_element R69). -/
def fmtReset : Fmt := ⟨0, 0, 4, 0, 0, 1, 0, 0⟩

/-- The reset value of a bound register and of its staging (03_element R76). -/
def boundReset : Bound := ⟨0xFF800000, 0x7F800000, 0⟩

/-- A drift record of the marker log (21_marker R461). -/
structure MarkRec where
  marker  : BitVec 16
  pc      : Nat
  gang    : TileName
  replays : Nat
  expect  : BitVec 32
  actual  : BitVec 32
  drift   : BitVec 32
  cyc     : Word
deriving DecidableEq, Repr

/-- A pending event: its arrival cycle and the source name that orders those of one cycle, its event word (R484). -/
structure PendEv where
  at_  : Nat
  src  : Nat
  word : Word
deriving DecidableEq, Repr

/-- An outstanding collective of a gang: communicator, rank, number, descriptor (18_link R421, R422, R428). -/
structure CollOut where
  comm : Nat
  rank : Nat
  inst : BitVec 32
  desc : BitVec 512
deriving DecidableEq, Repr

/-- The front-end state of a gang (05_sequencer R106, 11_group R268), keyed by the name of its slab 0.
s, e: registers of 04_scalar R80 and 05_sequencer R91; p: bit i is predicate i, bit 0 unused (p0 reads 1, R87);
main, hand: the two banks of I0, I1 and C ports (16_context R379) by port number: a result port's source number, an
operand port's destination number plus 1000. -/
structure Gang where
  ctx    : Nat
  task   : Nat
  width  : Nat
  seq    : SeqState
  /-- the state a frozen gang returns to (R107) -/
  saved  : SeqState
  handler : Bool
  pc     : Nat
  /-- ORIGIN, on the tile's own count (R106) -/
  origin : Word
  /-- innermost level first -/
  loops  : List LoopLevel
  /-- newest entry first -/
  calls  : List Nat
  eret   : Nat
  blk    : Block
  /-- outstanding waits while WAITING, the cycle the wait began, whether one is a SYS -/
  waits  : List WaitKind
  waitStart : Nat
  /-- the first cycle on which the gang may issue after the waits that have completed (02_bundle R52, R124), and the barrier
  records whose BARWAIT acquires at that origin (13_binding R296) -/
  waitEnd : Nat
  acqs   : List Nat
  s      : Tab TV
  e      : Tab TV
  p      : BitVec 16
  mbx    : Tab Word
  mbxPend : Tab Word
  main   : Tab TV
  hand   : Tab TV
  fmt    : Fmt
  fmtStage : Fmt
  bd     : Tab Bound
  bdStage : Tab Bound
  tst    : Tst
  tctl   : Tctl
  dmem   : Word
  /-- pending events, oldest first (R484) -/
  events : List PendEv
  haltCode : BitVec 8
  /-- 0 none, else the quiet point kinds the gang stopped for (R122) -/
  stopKinds : BitVec 3
  /-- alignment arrivals seen: tile name and corrected cycle (R129) -/
  aligned : List (TileName × Nat)
  /-- cycle, index and fired slots of the last bundle issued, for the interlock trace (21_marker R463) -/
  lastIssue : Option (Nat × Nat × BitVec 8)
  /-- first bank wait not yet made (14_kernel R338) -/
  firstBank : Bool
  /-- counters 0..11 of 21_marker R465 -/
  counters : Tab (BitVec 32)
  /-- the collective outstanding; its q.c once it has ended (18_link R424) -/
  coll   : Option CollOut
  collDone : Option Word
  lastBeat : Nat
deriving DecidableEq, Repr

/-- The load values of a gang's front end (04_scalar R81, 05_sequencer R107 to R109, 14_kernel R335). -/
def Gang.fresh (ctx task width : Nat) : Gang :=
  { ctx, task, width, seq := .idle, saved := .idle, handler := false, pc := 0, origin := 0, loops := [], calls := [],
    eret := 0, blk := .empty, waits := [], waitStart := 0, waitEnd := 0, acqs := [], s := [], e := [], p := 0, mbx := [],
    mbxPend := [], main := [], hand := [], fmt := fmtReset, fmtStage := fmtReset, bd := [], bdStage := [],
    tst := .reset, tctl := .reset, dmem := 0, events := [], haltCode := 0, stopKinds := 0, aligned := [],
    lastIssue := none, firstBank := true, counters := [], coll := none, collDone := none, lastBeat := 0 }

/-- The states of an accumulator bank (08_accumulator R203 to R205). -/
inductive BankState where
  | idle | running | parked | draining
deriving DecidableEq, Repr

/-- An accumulator bank (R203): elements and LSF bits by key 128·i + j, an unlisted one +0 or clear. -/
structure AccBank where
  el   : Tab (BitVec 32)
  lsf  : Tab Bool
  kind : Bool
  st   : BankState
deriving DecidableEq, Repr

def AccBank.fresh : AccBank := ⟨[], [], false, .idle⟩

/-- An operand descriptor with the orientation of the microword that loaded it (R207, R208). -/
structure MxDesc where
  w1 : Word
  w2 : Word
  o  : Bool
deriving DecidableEq, Repr

/-- A background operation of a routine (R221, R222): the bank, the cycle its microword started, its format, whether
it is a flag drain. -/
structure MxBg where
  acc1 : Bool
  at_  : Nat
  /-- micro-PC of its microword; fmt is 15 when a trap stops its rows -/
  upc  : Nat
  fmt  : BitVec 4
  flag : Bool
deriving DecidableEq, Repr

/-- A routine's run in one slab (R213, R230). -/
structure MxRun where
  own   : Owner
  upc   : Nat
  /-- where the run goes on, before MSTEPs that cost nothing are passed (R217) -/
  base  : Nat
  /-- micro-PC of the microword under way, and the cycle on which it started (R229, R230) -/
  gupc  : Nat
  since : Nat
  land  : Nat
  lc    : Nat
  loopStart : Nat
  gi    : Nat
  fmt   : Fmt
  mp    : Tab Word
  hm    : Tab Word
  bound : Option Bound
  a     : MxDesc
  b     : MxDesc
  rowsA : Tab (BitVec 1024)
  rowsB : Tab (BitVec 1024)
  bg    : Option MxBg
  /-- parked at microword upc on bank acc1?; a fault ended the run early -/
  parked : Option Bool
  skip   : Bool
  /-- banks to return to IDLE at the landing after a numeric trap (R229) -/
  release : List Bool
deriving DecidableEq, Repr

/-- A transposer tile (07_vector R196 to R198): rows in push order, pops made, latched hx0, cycles of first and last push. -/
structure XTile where
  rows  : List Vec
  pops  : Nat
  hx0   : Word
  first : Nat
  last  : Nat
deriving DecidableEq, Repr

/-- The state of a window slot (09_window R235). -/
structure WSlot where
  res   : Bool
  dirty : Word
  pend  : Bool
  flush : Bool
deriving DecidableEq, Repr

def WSlot.fresh : WSlot := ⟨false, 0, false, false⟩

/-- A beat that arrives over the vertical bus with bits changed: the flipped lanes, 0 to 255 data and 256 to 271 parity, and
for each group whether a retransfer checks (09_window R232, R245).  An input: what the hardware does. -/
structure BusErr where
  beat  : Nat
  flips : BitVec 272
  ok    : BitVec 16
deriving DecidableEq, Repr

/-- A parity mismatch of a transfer: beat, group, the data lanes of it that differed, whether its retransfer checks. -/
structure BusMiss where
  beat  : Nat
  group : Nat
  lanes : List Nat
  ok    : Bool
deriving DecidableEq, Repr

/-- A fill or flush in flight (R239): trigger cycle, latched page and translation, whether the page is homed here, the lines
read so far, the dirty lines, whether an acquire has overridden the setting of RES (13_binding R303), the mismatches of its
transfer, whether its transfer or its read has failed (R245). -/
structure StageOp where
  own   : Owner
  start : Nat
  vpn   : Nat
  home  : TileName
  frame : Nat
  here  : Bool
  lines : Tab (BitVec 512)
  dirty : Word
  noRes : Bool
  bus   : List BusMiss
  failed : Bool
deriving DecidableEq, Repr

/-- A record of the vault error log (R244). -/
structure ErrRec where
  /-- the context's number; 256 once that context is released, for a later one of the number is another (16_context R364) -/
  ctx  : Nat
  cyc  : Word
  seq  : BitVec 16
  kind : BitVec 4
  op   : BitVec 2
  retry : BitVec 2
  lane : BitVec 8
  lcnt : BitVec 4
  swap : Bool
  beat : BitVec 7
  vpn  : Nat
  line : Nat
  bit  : Nat
  /-- cycle from which it is visible -/
  visible : Nat
deriving DecidableEq, Repr

/-- A pinned translation (17_page R392): page, the table entry that counts it (R395), home, frame, writable. -/
structure Pin where
  vpn   : Nat
  key   : Nat
  home  : TileName
  frame : Nat
  w     : Bool
deriving DecidableEq, Repr

/-- The states of a page request (17_page R398). -/
inductive ReqState where
  | issued | hostPending
deriving DecidableEq, Repr

/-- An entry of a request table (R397): the context that asks, number, page, state. -/
structure PageReq where
  ctx  : Nat
  num  : Nat
  vpn  : Nat
  st   : ReqState
deriving DecidableEq, Repr

/-- A switch program (10_route R253): P, T0, entries by index. -/
structure SwitchProg where
  p  : Nat
  t0 : Nat
  entries : Tab Word
  /-- the reset program of context load counts as no old program (R254) -/
  isReset : Bool
deriving DecidableEq, Repr

/-- The reset program (R254). -/
def SwitchProg.reset : SwitchProg := ⟨4, 0, [], true⟩

/-- A switch program being loaded or waiting for its T0 (R254). -/
structure PendProg where
  own  : Owner
  p    : Nat
  addr : Nat
  entries : Tab Word
  t0   : Option Nat
deriving DecidableEq, Repr

/-- What an asynchronous item carries (10_route R258): the event it becomes at its destination. -/
inductive ItemKind where
  | arrival (n : Nat) (gen : BitVec 4) (send : Bool)
  | release (n : Nat) (gen : BitVec 4)
  | token (addr : Nat) (scope : BitVec 3) (post : Bool) (sync : Word)
  | softEvent (payload : BitVec 40)
  | ring (ctx ring : Nat) (payload : Word)
  | coll (ctx comm rank : Nat) (inst : BitVec 32)
  | watom (w : WAtomOp)
  | pageReq (ctx gen req vpn : Nat)
  | align
deriving DecidableEq, Repr

/-- An item in an injection queue (R258): what it carries, its destination, the first cycle it may be sent. -/
structure Item where
  own  : Owner
  kind : ItemKind
  dst  : TileName
  eligible : Nat
  /-- trigger cycle and unit: the order of the queue -/
  order : Nat
deriving DecidableEq, Repr

/-- A copy in flight (R263): number, source and destination, beats, next beat, beats delivered. -/
structure CopyOp where
  own  : Owner
  src  : Nat
  dstTile : TileName
  dst  : Nat
  nb   : Nat
  next : Nat
  delivered : Nat
  srcBar : Option Nat
  dstBar : Option Nat
  post : Bool
  wafer : Bool
  order : Nat
  /-- trigger cycle: its first beat leaves after it (R258) -/
  start : Nat
deriving DecidableEq, Repr

/-- An asynchronous frame of an output that a beat on its way uses: tile, output, cycle, and the beat's owner
(10_route R252, R259). -/
structure FrameUse where
  tile : TileName
  out  : Nat
  at_  : Nat
  own  : Owner
deriving DecidableEq, Repr

/-- The matrix engine of a slab (08_accumulator R203, R205, R206, R218). -/
structure Mx where
  acc0 : AccBank
  acc1 : AccBank
  pgrp : BitVec 16
  pslot : BitVec 10
  popb : Bool
  pself : Bool
  ridx : BitVec 6
  sig  : BitVec 8
  busy : Bool
  front : Bool
  mp   : Tab Word
  run  : Option MxRun
  /-- V-path cycles that rows of drains claim: first and last (R223) -/
  vclaims : List (Nat × Nat)
  /-- context part of the store, and entries 16..63 -/
  words : Tab Word
  entries : Tab Nat
deriving DecidableEq, Repr

def Mx.fresh : Mx := ⟨.fresh, .fresh, 0, 0, false, false, 0, 0, false, false, [], none, [], [], []⟩

/-- The slab state of one tile (11_group R268), keyed by tile name.  ports: scalar operand and result ports of
L0, L1, V, F, X, M, D, K, N, B, Q by port number (operands plus 1000); hports: the handler bank of B, K, Q
(16_context R379); vports: vector ports; shape and shadow: hm0..hm3 at 0..3, hv at 4..7, hx at 8..11, hd at 12..15. -/
structure Slab where
  ports  : Tab TV
  hports : Tab TV
  vports : Tab Vec
  v      : Tab Vec
  k      : Tab Word
  shape  : Tab Word
  shadow : Tab Word
  ftab   : Tab (BitVec 32)
  fnew   : Tab (BitVec 32)
  /-- trigger cycle of an FLOAD in flight (07_vector R193) -/
  fload  : Option Nat
  /-- transposer tiles, oldest first (R197) -/
  xtiles : List XTile
  mx     : Mx
  slots  : Tab WSlot
  stage  : Tab StageOp
  /-- reservations of 09_window R234: resource 0..3, first and last cycle -/
  resv   : List (Nat × Nat × Nat)
  requests : Tab PageReq
  reqCount : Nat
  errlog : List ErrRec
  errSeq : BitVec 16
  laneCount : Tab Nat
  spares : Nat
  swaps  : List Nat
  /-- what the hardware does: wrong cells by frame, line and bit, 0 to 511 data and 512 + 8w to 512 + 8w + 7 the check bits of
  word w (R231); beats that the next transfer spoils (R245) -/
  cellErr : List (Nat × Nat × Nat)
  busErr : List BusErr
  pins   : Tab (List Pin)
  prog   : SwitchProg
  pend   : Option PendProg
  names  : Tab (BitVec 16)
  injW   : List Item
  injD   : List Item
  copies : Tab CopyOp
  copySeq : Nat
  releases : List (TileName × Nat × BitVec 4 × Bool)
  relList : List (Nat × TileName)
  /-- owning task of banks 1..31; an unlisted bank is FREE (06_region R165) -/
  banks  : Tab Nat
  /-- this tile's cyc minus the reference count (19_tile R442, R443) -/
  skew   : Int
  /-- the running gang's slab 0 that drives this slab -/
  gang   : Option TileName
  /-- the context, by number and generation, whose slab state this is: a task of another one loads its context first
  (07_vector R176, 09_window R250) -/
  holder : Option (Nat × Nat)
deriving DecidableEq, Repr

/-- The load values of a slab (07_vector R176, 08_accumulator R230, 09_window R250, 10_route R254, 12_barrier R290). -/
def Slab.fresh : Slab :=
  { ports := [], hports := [], vports := [], v := [], k := [], shape := [], shadow := [],
    ftab := [], fnew := [], fload := none, xtiles := [], mx := .fresh, slots := [], stage := [], resv := [],
    requests := [], reqCount := 0, errlog := [], errSeq := 0, laneCount := [], spares := 8, swaps := [], cellErr := [],
    busErr := [], pins := [], prog := .reset, pend := none, names := [], injW := [], injD := [], copies := [],
    copySeq := 0, releases := [], relList := [], banks := [], skew := 0, gang := none, holder := none }

/-- A fault record (20_fault R452). -/
structure FaultRec where
  cls   : Nat
  cause : Nat
  slot  : Nat
  primary : Bool
  nested : Bool
  handler : Bool
  delivery : Bool
  ctx   : Nat
  tile  : TileName
  gen   : Nat
  pc    : Nat
  trig  : Nat
  cyc   : Nat
  edge  : Nat
  aux   : Word
  gslab : Nat
  depth : Nat
  seq   : Nat
deriving DecidableEq, Repr

/-- A future event: its cycle, its place within the cycle, its order among equals, its owner, itself. -/
structure Ev where
  at_  : Nat
  ord  : Nat
  sub  : Nat
  own  : Option Owner
  instr : Instr
  arg  : Operand
deriving DecidableEq, Repr

/-- The states of a task on the module (14_kernel R334, 11_group R277). -/
inductive TaskState where
  | placed | running | ended
deriving DecidableEq, Repr

/-- A kernel descriptor as loaded (14_kernel R319), with its names, quiet points and regions. -/
structure Kernel where
  entry  : Nat
  length : Nat
  gang   : Nat
  event  : Bool
  levels : List (Nat × Nat)
  undo   : Nat
  names  : List Nat
  qpoints : List (Nat × Nat)
  regions : List (Nat × Nat × Nat)
deriving DecidableEq, Repr

/-- A loaded object (14_kernel R316 to R330). -/
structure Object where
  /-- the object as it was given to the loader (16_context R381) -/
  given    : List Byte
  codeBase : Nat
  nbundle  : Nat
  dataBase : Nat
  dataSize : Nat
  kernels  : List Kernel
  /-- constant blocks and offset table: scratchpad address and bytes -/
  consts   : List (Nat × List Byte)
  routes   : List (Nat × List Word)
  routines : List Nat
  /-- global symbols: name, value, offset-table slot -/
  globals  : List (List Byte × Word × Option Nat)
deriving DecidableEq, Repr

/-- A task (14_kernel R334 to R337). -/
structure Task where
  ctx    : Nat
  st     : TaskState
  object : Nat
  kernel : Nat
  origin : TileName
  /-- gangs of the rectangle with their state: 0 PLACED, 1 ISSUING, 2 DRAINING, 3 ENDED, and exit code -/
  gangs  : List (TileName × Nat × BitVec 8)
  width  : Nat
  dmem   : Word
  event  : Bool
  entry  : Nat
  mbx    : List Word
  /-- queue, record index, SEQ, TAG, NOTIFY ring -/
  queue  : Nat
  record : Nat
  seqno  : BitVec 32
  tag    : BitVec 32
  notify : Option Nat
  /-- graph that launched it, time-table entry that fired it -/
  graph  : Option Nat
  ttEntry : Option Nat
  undo   : Nat
  /-- front ends of its gangs in the provisional binding of an island (19_tile R432) -/
  fes    : Tab UnitId
deriving DecidableEq, Repr

/-- A host ring (15_queue R359), its device-side counts and the entries written to host memory. -/
structure HostRing where
  set     : RingSet
  head    : Nat
  tail    : Nat
  drops   : Nat
  pending : Nat
  epoch   : Nat
  entries : List (Word × BitVec 16 × BitVec 8 × Nat)
deriving DecidableEq, Repr

/-- A candidate of the dispatcher (15_queue R345 to R347): source, record fields, age, pass count, reservation. -/
structure Cand where
  ctx    : Nat
  queue  : Nat
  prio   : Nat
  /-- 0 queue head, 1 time table, 2 graph node, 3 control node of a graph -/
  source : Nat
  idx    : Nat
  /-- the record as it was checked -/
  record : BitVec 512
  age    : Nat
  passes : Nat
  rect   : Option (Nat × Nat × Nat × Nat)
deriving DecidableEq, Repr

/-- A running command graph (15_queue R351 to R353). -/
structure GraphRun where
  id     : Nat
  ctx    : Nat
  header : Nat
  queue  : Nat
  node   : Nat
  counts : Tab Nat
  lastCount : Nat
  /-- the last kernel node's task until it completes; whether the graph waits for it to go to node after_ -/
  task   : Option Nat
  waiting : Bool
  after_ : Nat
  lastCode : BitVec 8
  anyNonzero : Bool
  launchRecord : Nat
  /-- time-table entry that fired the launching record -/
  ttEntry : Option Nat
  seqno  : BitVec 32
  tag    : BitVec 32
  notify : Option Nat
deriving DecidableEq, Repr

/-- An entry of the time-triggered table with the dispatcher's counts (R349). -/
structure TtRow where
  ctx   : Nat
  e     : TimeEntry
  inst  : Nat
  skips : Nat
  /-- an instance that is a candidate or has not completed, a held firing (R350) -/
  active : Bool
  held  : Bool
deriving DecidableEq, Repr

/-- A pending invalidation (17_page R402, R403): range, gangs still to acknowledge, whether it completes a command. -/
structure Inval where
  vpn   : Nat
  count : Nat
  gangs : List TileName
  /-- gangs that have acted and wait for the migration before they walk again, and the pages of each region whose pins were
  released for it (17_page R404) -/
  acked : List TileName
  walks : List (TileName × Nat × List Nat)
  deadline : Nat
  /-- migration that follows: target, request, generation -/
  migrate : Option (TileName × Nat × Nat)
  /-- timed out: pins released at the next resume; the command has been answered -/
  expired : Bool
  told : Bool
deriving DecidableEq, Repr

/-- The states of a context (16_context R367). -/
inductive CtxState where
  | free | loading | ready | running | quiescing | quiesced | frozen | faulted | dumping | dead
deriving DecidableEq, Repr

/-- A rank's contribution to a collective (18_link R422, R423): operation, format, root, count, bytes. -/
structure Contribution where
  rank  : Nat
  op    : Nat
  fmt   : Nat
  root  : Nat
  count : Nat
  bytes : List Byte
deriving DecidableEq, Repr

/-- A communicator's instance in progress (18_link R423): contributions received. -/
structure CollInst where
  comm : Nat
  inst : BitVec 32
  got  : List Contribution
deriving DecidableEq, Repr

/-- The state a replay boundary or an image keeps of a context's tiles (16_context R383, 20_fault R455). -/
structure Boundary where
  cut    : Nat
  gangs  : Tab Gang
  slabs  : Tab Slab
  mem    : List Host.Cell
  tasks  : Tab Task
  rings  : Tab HostRing
  colls  : List CollInst
  orphans : List (TileName × CollOut)
  comms  : Tab (List (Nat × TileName))
  collCount : Tab (BitVec 32)
  graphs : List GraphRun
  tt     : Tab TtRow
  cands  : List Cand
  /-- the queue table with its error and completion lists, by global virtual address (R381 type 6) -/
  queues : List (Nat × List Byte)
deriving DecidableEq, Repr

/-- The interlock trace of a context (21_marker R463). -/
structure TraceSt where
  arm   : TraceArm
  /-- gang that started it and first cycle traced; none while armed -/
  started : Option (TileName × Nat)
  left  : Nat
  rows  : Nat
  dropped : Nat
deriving DecidableEq, Repr

/-- The sampler of a context (21_marker R464). -/
structure SampleSt where
  set   : SampleSet
  head  : Nat
  tail  : Nat
  drops : Nat
deriving DecidableEq, Repr

/-- A context (16_context R364 to R367). -/
structure Ctx where
  st     : CtxState
  gen    : Nat
  ops    : CreateOps
  nkeys  : Nat
  /-- the root table's home and frame, and the table entries by where they stand: 512 · (home · 2^17 + frame) + index
  (17_page R389, R390) -/
  root   : TileName × Nat
  ptes   : Tab Word
  /-- leaves, by where they stand, that the host may write although they are pinned, until it has (R401) -/
  openLeaves : List Nat
  /-- undo entries, newest first: vault line key and old line (09_window R248) -/
  undo   : List (Nat × BitVec 512)
  image  : Tab (BitVec 256)
  words  : Tab Word
  entries : Tab Nat
  /-- free run bookkeeping: microwords of the store that loaded routines hold -/
  wordsUsed : List (Nat × Nat)
  objects : Tab Object
  rings  : Tab HostRing
  comms  : Tab (List (Nat × TileName))
  /-- COLLs counted per communicator and rank (18_link R421) -/
  collCount : Tab (BitVec 32)
  colls  : List CollInst
  /-- collectives that gangs began which have ended or were succeeded since (14_kernel R337) -/
  orphans : List (TileName × CollOut)
  quiesce : Option (BitVec 3 × Nat)
  /-- a replay request stands; a task has ended since it was raised (20_fault R455, R369) -/
  replayReq : Bool
  replayEnd : Bool
  invals : List Inval
  /-- the freeze edge set for the context; a command or a debugger asked for the stop; a wafer freeze did (20_fault R454) -/
  edge   : Option Nat
  stopReq : Bool
  waferStop : Bool
  /-- quiesced by the service controller for a merge of islands, to be resumed by it (19_tile R431) -/
  svcStop : Bool
  /-- the resume cycle g chosen and not yet reached (16_context R386) -/
  resumeAt : Option Nat
  /-- the edge at which it was frozen, actions pending there with at_ = REMAIN (16_context R376) -/
  frozenAt : Nat
  replayQ : List Ev
  stepEdge : Option Nat
  cycBase : Nat
  bps    : Tab Breakpoint
  /-- what the resumes since the boundary have added to the values of CYCLE breakpoints (21_marker R466) -/
  runShift : Word
  /-- BREAK notices of the hits since the last freeze edge (21_marker R467) -/
  breaks : List FaultRec
  trace  : Option TraceSt
  sampler : Option SampleSt
  markers : Tab (List MarkRec)
  lost   : Tab Nat
  faults : List FaultRec
  droppedFaults : Nat
  trunc  : Bool
  boundary : Option Boundary
  replays : Nat
  rollbacks : Nat
  lastBoundary : Nat
  needRollback : Bool
  /-- a fault demands a dump whatever the primary record is (20_fault R447, R456) -/
  mustDump : Bool
  /-- cancelled requests named by a kill (17_page R400) -/
  cancelled : List (TileName × Nat)
deriving DecidableEq, Repr

def createOpsAbsent : CreateOps := ⟨none, none, none, none, none, none, none, 0, 0⟩

/-- A free context: every index of its image holds an empty bundle with END = 1 (14_kernel R330). -/
def Ctx.free : Ctx :=
  { st := .free, gen := 0, ops := createOpsAbsent, nkeys := 0, root := (0, 0), ptes := [], openLeaves := [], undo := [], image := [], words := [], entries := [],
    wordsUsed := [], objects := [], rings := [], comms := [], collCount := [], colls := [], orphans := [], quiesce := none,
    replayReq := false, replayEnd := false, invals := [], edge := none, stopReq := false, waferStop := false, svcStop := false, resumeAt := none, frozenAt := 0, replayQ := [], stepEdge := none,
    cycBase := 0, bps := [], runShift := 0, breaks := [], trace := none, sampler := none, markers := [], lost := [], faults := [],
    droppedFaults := 0, trunc := false, boundary := none, replays := 0, rollbacks := 0, lastBoundary := 0,
    needRollback := false, mustDump := false, cancelled := [] }

/-- A state image in host memory (16_context R380): its checks' outcomes and the context it holds. -/
structure Image where
  magic   : Nat
  layout  : Nat
  /-- its reserved fields are 0; its sections lie inside it -/
  reserved0 : Bool
  inBounds : Bool
  digestOk : Bool
  signed  : Bool
  sigOk   : Bool
  cols    : Nat
  rows    : Nat
  feature : Nat
  transport : Nat
  nkeys   : Nat
  cycBase : Nat
  quiet   : Bool
  ctx     : Ctx
  tiles   : Boundary
  /-- valid leaves: the page's virtual address, the entry with FRAME 0 (17_page R406) -/
  leaves  : List (Nat × Word)
  /-- vault pages: VPN, home, bytes of the page -/
  pages   : List (Nat × TileName × List Host.Cell)
  /-- the last section that it holds: 8, less for a dump that ended early (20_fault R458) -/
  last    : Nat
deriving DecidableEq, Repr

/-- The states of a link (18_link R408). -/
inductive LinkState where
  | down | training | up | failed
deriving DecidableEq, Repr

/-- A scale-out port's transport state (18_link R419). -/
structure Port where
  sendSeq : BitVec 32
  recvSeq : BitVec 32
  unacked : List (BitVec 32 × Frame)
  /-- resends of each of these frames, by SEQ (R420) -/
  resends : Tab Nat
  epoch   : Nat
  /-- payloads accepted and not yet part of a contribution, with their job -/
  inbox   : List (BitVec 32 × List Byte)
deriving DecidableEq, Repr

def Port.fresh : Port := ⟨0, 0, [], [], 0, []⟩

/-- The bring-up phases (19_tile R429); starting is the time before SELFTEST, when the host link comes up. -/
inductive Phase where
  | off | starting | selftest | merging | binding | service | outOfService
deriving DecidableEq, Repr

/-- The states of a physical unit (19_tile R435). -/
inductive UnitState where
  | untested | spare | bound | retiring | retired
deriving DecidableEq, Repr

/-- The exchange with the grandmaster under way (18_link R426): its number, when the Sync was sent and came in, when the delay
request was sent; all in nanoseconds. -/
structure PtpExchange where
  seq  : Nat
  sent : Option Nat
  came : Nat
  asked : Option Nat
deriving DecidableEq, Repr

/-- What the service controller or an engine has given the host: notices, completion codes, page-ring entries,
interrupts, rows and answers to reads (16_context R365, 20_fault R452, 18_link R416). -/
inductive HostOut where
  | command (ctx code : Nat) (answer : Nat)
  | fault (r : FaultRec)
  | brk (r : FaultRec)
  | rollback (ctx : Nat) (boundary : Nat)
  /-- an entry of the host's page ring, written through a host port (18_link R416) -/
  | pageRequest (port ctx gen req vpn : Nat) (tile : TileName)
  | irq (ctx ring vector : Nat)
  | load (ctx : Nat) (word : Word)
  | markers (ctx : Nat) (rs : List MarkRec)
  | killAck (ctx : Nat) (reqs : List (TileName × Nat))
  | windowRead (bytes : List Byte)
  /-- a posted write into host memory: host port, address, bytes (18_link R416) -/
  | posted (port : Nat) (addr : Word) (bytes : List Byte)
  | dump (ctx : Nat) (rs : List FaultRec) (trunc : Bool) (dropped : Nat) (image : Nat)
  | sample (ctx : Nat) (cyc : Nat) (gang : TileName) (waiting : Bool) (row : Nat) (counters : List (BitVec 32))
  | trace (ctx : Nat) (cyc : Nat) (gang : TileName) (pc : Nat) (seq : SeqState) (fired : BitVec 8) (waits : List WaitKind)
      (exit : Option ExitRec) (busy : BitVec 6) (tst : Word)
  | timeLost
  /-- a delay request to the grandmaster behind a scale-out port (18_link R426) -/
  | delayReq (port seq : Nat)
  | frame (port : Nat) (f : Frame)
  | attest (gen : Nat) (digest signature : BitVec 512)
  /-- what a read through the command ring gives from now on: the phase of bring-up (19_tile R429), the binding map with its
  attestation (R434), the summaries of the flash (20_fault R459) -/
  | phase (p : Phase)
  | map (bytes record : List Byte)
  | summaries (rs : List FaultRec)
  | completion (ctx queue : Nat) (seq tag : BitVec 32) (code : BitVec 8) (flag : Bool) (record : Nat)
  | report (kind : Nat) (arg : Nat)
  /-- failing units, for the management plane (19_tile R430, R437) -/
  | failing (units : List UnitId)
deriving DecidableEq, Repr

/-- What the sources and guards of a bundle read: its gang and slabs at the start of the cycle (02_bundle R33). -/
structure Snap where
  g     : Gang
  slabs : Tab Slab
deriving DecidableEq, Repr

/-- The bundle being issued by a gang (02_bundle R33): its index and header, the slot in hand and its destination port,
the slots left in the order they act, and what its sources read; with no snapshot they read the present state. -/
structure Issue where
  gang  : TileName
  pc    : Nat
  hdr   : Word
  slot  : Nat
  trig  : Nat
  words : List (Nat × BitVec 24)
  snap  : Option Snap
  /-- bit i: slot i fired -/
  fired : BitVec 8
deriving DecidableEq, Repr

/-- The module. -/
structure State where
  /-- the present cycle: the wafer reference count (19_tile R442) is its low 64 bits; it counts from 2^64 at reset, so that
  the absolute cycles of an image of a module whose count stands higher stay in range when they are rebased (16_context
  R386) -/
  now    : Nat
  phase  : Phase
  issue  : Option Issue
  /-- operands of the event in hand -/
  arg    : Operand
  /-- owner of the event in hand -/
  own    : Option Owner
  agenda : List Ev
  gangs  : Tab Gang
  slabs  : Tab Slab
  ctxs   : Tab Ctx
  tasks  : Tab Task
  nextTask : Nat
  /-- every scratchpad byte, keyed by its domain-space offset (name << 22) | address (06_region R142) -/
  mem    : List Host.Cell
  /-- every vault byte of context pages, keyed by (name << 29) | (frame · 4096 + offset) -/
  vault  : List Host.Cell
  links  : List (LinkId × LinkState × Nat)
  /-- asynchronous frames that beats on their way use -/
  frames : List FrameUse
  seamErr : List (LinkId × Nat)
  ports  : Tab Port
  windows : Tab (Word × Nat × Bool)
  islands : List (List Nat)
  /-- how far the count of a reticle's island stands ahead of that of the wafer's clock (19_tile R431) -/
  ahead : Tab Nat
  units  : List (UnitId × UnitState × Nat)
  tested : List Nat
  bindGen : Nat
  binding : Option BindingMap
  /-- digest and signature of the map in force (19_tile R434) -/
  attested : Option (BitVec 512 × BitVec 512)
  /-- power cycles so far; the units that have been reinstated (19_tile R438) -/
  powerCycle : Nat
  reinstated : List UnitId
  /-- skip positions of the last map written; the logical position in its row that each retired slab had (19_tile R438) -/
  lastSkips : Option (Tab Nat)
  former : List (UnitId × Nat)
  remapDue : Bool
  volts  : Tab Nat
  /-- clock edges withheld so far (19_tile R439) -/
  withheld : Nat
  /-- the numbers, among all edges, of those withheld in the last 4,096; the edges that throttling withholds in each 4,096 -/
  stretch : List Nat
  duty : Nat
  ttGran : Nat
  /-- the slot that begins next (15_queue R349) -/
  nextSlot : Nat
  timeTable : Tab TtRow
  timeSource : TimeSource
  timeLocked : Bool
  ptp : Option PtpExchange
  /-- the 1588 clock: nanoseconds at cycle timeAt, and the nanoseconds it counts in 2^30 cycles since (18_link R426) -/
  moduleTime : Nat
  timeAt : Nat
  /-- edges withheld by then -/
  timeHeld : Nat
  timeRate : Nat
  cands  : List Cand
  graphs : List GraphRun
  images : List Image
  flash  : List FaultRec
  dumpQueue : List Nat
  /-- contexts whose rollback is due, in their order (20_fault R456) -/
  rollQueue : List Nat
  /-- fault record count, service-controller counters -/
  faultSeq : Nat
  dropEvt : Nat
  dropSoft : Nat
  dropDb  : Nat
  dropMbx : Nat
  dropWin : Nat
  dropJob : Nat
  staleAns : Nat
  memErrors : Nat
  /-- single-bit soft errors corrected (20_fault R453) -/
  softErrors : Nat
  out    : List HostOut
  /-- MODEL'S OWN: uses made so far of the free values of Config -/
  freeCount : Nat
deriving DecidableEq, Repr

/-- The module right after reset: power has just come on and nothing has happened yet; the one event due is
POWER_ON (19_tile R429).  Registers, ports and memories hold the values of the log's entries 2 to 9. -/
def State.reset : State :=
  { now := 2 ^ 64, phase := .off, issue := none, arg := .none, own := none,
    agenda := [⟨2 ^ 64, 0, 0, none, .powerOn, .none⟩], gangs := [], slabs := [], ctxs := [], tasks := [], nextTask := 1,
    mem := [], vault := [], links := [], frames := [], seamErr := [], ports := [], windows := [], islands := [], ahead := [],
    units := [], tested := [], bindGen := 0, binding := none, attested := none, powerCycle := 0, reinstated := [], lastSkips := none, former := [], remapDue := false, volts := [], withheld := 0,
    stretch := [], duty := 0,
    ttGran := 1, nextSlot := 1, timeTable := [], timeSource := .freeRunning, timeLocked := false, ptp := none, moduleTime := 0,
    timeAt := 2 ^ 64, timeHeld := 0, timeRate := 1, cands := [], graphs := [], images := [], flash := [], dumpQueue := [], rollQueue := [], faultSeq := 0, dropEvt := 0, dropSoft := 0, dropDb := 0,
    dropMbx := 0, dropWin := 0, dropJob := 0, staleAns := 0, memErrors := 0, softErrors := 0, out := [],
    freeCount := 0 }

end Sys2Proof.Machine
end

