-- ==== Sys2Proof/Machine/Tab.lean ====
section
/-! DEFINITION. Sparse tables and byte memories: reads, writes and their canonical form. -/

namespace Sys2Proof.Machine

/-- The entry of key k, if listed. -/
def tabGet {α : Type} : Tab α → Nat → Option α
  | [], _ => none
  | (k', v) :: t, k => if k' = k then some v else tabGet t k

/-- The entry of key k, or d. -/
def tabGetD {α : Type} (d : α) (t : Tab α) (k : Nat) : α := (tabGet t k).getD d

/-- t with key k holding v; keys stay strictly rising. -/
def tabPut {α : Type} : Tab α → Nat → α → Tab α
  | [], k, v => [(k, v)]
  | (k', v') :: t, k, v =>
    if k < k' then (k, v) :: (k', v') :: t
    else if k = k' then (k, v) :: t
    else (k', v') :: tabPut t k v

/-- t without key k. -/
def tabDel {α : Type} (t : Tab α) (k : Nat) : Tab α := t.filter fun e => e.1 != k

/-- t with the entry of key k changed by f where it is listed. -/
def tabMod {α : Type} (t : Tab α) (k : Nat) (f : α → α) : Tab α :=
  t.map fun e => if e.1 = k then (e.1, f e.2) else e

/-- Write several entries in order. -/
def tabPuts {α : Type} (t : Tab α) (es : List (Nat × α)) : Tab α := es.foldl (fun t e => tabPut t e.1 e.2) t

/-- The byte at address a: an unlisted byte reads 0 (DESIGN CHOICE, log 6). -/
def memRead (m : List Host.Cell) (a : Nat) : Byte := tabGetD 0 m a

/-- Write one byte, keeping the canonical form. -/
def memWrite : List Host.Cell → Nat → Byte → List Host.Cell
  | [], a, b => if b = 0 then [] else [(a, b)]
  | (k, v) :: t, a, b =>
    if a < k then (if b = 0 then (k, v) :: t else (a, b) :: (k, v) :: t)
    else if a = k then (if b = 0 then t else (a, b) :: t)
    else (k, v) :: memWrite t a b

/-- Keys above lo, strictly rising, no byte 0. -/
def memWfFrom : Nat → List Host.Cell → Bool
  | _, [] => true
  | lo, (k, v) :: t => lo ≤ k && v != 0 && memWfFrom (k + 1) t

/-- The canonical form of a byte memory: addresses strictly rising, no entry equal to the unlisted byte. -/
def Memory.wf (m : List Host.Cell) : Bool := memWfFrom 0 m

/-- n bytes from address a, little-endian (00_scope R7). -/
def memReadN (m : List Host.Cell) (a : Nat) : Nat → Nat
  | 0 => 0
  | n + 1 => (memRead m a).toNat + 256 * memReadN m (a + 1) n

/-- The list of n bytes from address a. -/
def memReadBytes (m : List Host.Cell) (a n : Nat) : List Byte := (List.range n).map fun i => memRead m (a + i)

/-- The n low bytes of v, little-endian. -/
def codeBytes (n v : Nat) : List Byte := (List.range n).map fun i => BitVec.ofNat 8 (v / 256 ^ i)

/-- Write the n low bytes of v at address a, little-endian. -/
def memWriteN (m : List Host.Cell) (a : Nat) : Nat → Nat → List Host.Cell
  | 0, _ => m
  | n + 1, v => memWriteN (memWrite m a (BitVec.ofNat 8 v)) (a + 1) n (v / 256)

/-- Write a list of bytes from address a. -/
def memWriteBytes (m : List Host.Cell) (a : Nat) : List Byte → List Host.Cell
  | [] => m
  | b :: bs => memWriteBytes (memWrite m a b) (a + 1) bs

/-- The cells of a memory with keys in lo..lo+n−1, keys counted from lo. -/
def memSlice (m : List Host.Cell) (lo n : Nat) : List Host.Cell :=
  (m.filter fun c => lo ≤ c.1 && c.1 < lo + n).map fun c => (c.1 - lo, c.2)

/-- m with no cell in lo..lo+n−1. -/
def memClear (m : List Host.Cell) (lo n : Nat) : List Host.Cell := m.filter fun c => c.1 < lo || lo + n ≤ c.1

/-- Put cells counted from lo back. -/
def memFill (m : List Host.Cell) (lo : Nat) (cs : List Host.Cell) : List Host.Cell :=
  cs.foldl (fun m c => memWrite m (lo + c.1) c.2) m

/-- A 64-byte line as one value, and back. -/
def memLine (m : List Host.Cell) (a : Nat) : BitVec 512 := BitVec.ofNat 512 (memReadN m a 64)
def memPutLine (m : List Host.Cell) (a : Nat) (l : BitVec 512) : List Host.Cell := memWriteN m a 64 l.toNat

end Sys2Proof.Machine
end

