-- ==== Sys2Proof/WellFormed.lean ====
section
/-! DEFINITION. Well-formed instructions: what the encodings of 02_bundle and 08_accumulator admit, and the ranges of the operands of events and commands. -/

namespace Sys2Proof

/-- A source port that is not Reserved (02_bundle R40). -/
def sourceOk (s : BitVec 9) : Bool :=
  let n := s.toNat
  n < 164 || (192 ≤ n && n < 198) || (200 ≤ n && n < 248) || (256 ≤ n && n < 388)

/-- A destination that REGISTER_WRITE writes: a register, operand, parameter or staging port with no row of its own
(02_bundle R41 to R48); p0 (96) and k0 (112) are illegal. -/
def registerDest (d : BitVec 10) : Bool :=
  let n := d.toNat
  (n < 120 && n != 96 && n != 112) ||
  n = 128 || n = 129 || n = 192 || n = 193 || n = 256 || n = 257 || (288 ≤ n && n < 296) ||
  (320 ≤ n && n < 323) || (384 ≤ n && n < 387) || (448 ≤ n && n < 453) || n = 576 || n = 592 ||
  (600 ≤ n && n < 608) || n = 614 || n = 640 || n = 641 || n = 672 || n = 673 || n = 684 || n = 704 ||
  n = 720 || n = 721 || (736 ≤ n && n < 832)

/-- The unit field of an L0 or L1 row: 1 for L0, 2 for L1 (02_bundle R44); 0 and 3 are ports of C and V. -/
def lsuUnit (u : BitVec 2) : Bool := u = 1 || u = 2

/-- A tile name names a tile (01_wafer R21). -/
def namesTile (t : Nat) : Bool := t < 16384 && t % 128 < 96 && t / 128 < 66

/-- The operands of an event or command are in range. -/
def Operand.wf : Operand → Bool
  | .none => true
  | .routineLanding gang => namesTile gang
  | .wfillLanding tile slot => namesTile tile && slot < 1024
  | .wflushLanding tile slot => namesTile tile && slot < 1024
  | .watomApply _ => true
  | .remoteWatomApply _ => true
  | .remoteWatomReply _ _ => true
  | .routesetCheck tile => namesTile tile
  | .switchProgramStart tile => namesTile tile
  | .routerStaticBeat tile _ _ => namesTile tile
  | .asyncItemSend tile _ => namesTile tile
  | .remoteAccessArrival _ => true
  | .arrivalDelivery dst src _ _ _ => namesTile dst && namesTile src
  | .releaseDelivery dst src _ _ => namesTile dst && namesTile src
  | .copyBeatDelivery _ => true
  | .tokenDelivery dst src _ _ _ => namesTile dst && namesTile src
  | .softEventDelivery dst src _ => namesTile dst && namesTile src
  | .collContributionArrival ctx comm _ _ => ctx < 256 && comm < 64
  | .hostRingEntryWrite ctx ring _ _ _ => ctx < 256 && ring < 64
  | .ringCoalesceTimeout ctx ring _ => ctx < 256 && ring < 64
  | .ringHeadAdvance ctx ring _ => ctx < 256 && ring ≤ 64
  | .waitevComplete gang => namesTile gang
  | .cycwaitComplete gang => namesTile gang
  | .cycalignComplete gang => namesTile gang
  | .barwaitComplete gang record => namesTile gang && record < 512
  | .bankwaitComplete gang _ _ => namesTile gang
  | .rgnmapWalkEnd tile region => namesTile tile && region < 64
  | .rgnmapComplete gang _ region => namesTile gang && region < 64
  | .collwaitComplete gang => namesTile gang
  | .sysAnswer gang _ => namesTile gang
  | .haltDrainComplete gang _ => namesTile gang
  | .taskStart _ => true
  | .timeTableFiring _ => true
  | .heartbeat gang => namesTile gang
  | .heartbeatTimeout gang => namesTile gang
  | .beaconReceive tile _ _ => namesTile tile
  | .sampleTick ctx => ctx < 256
  | .breakpointHit ctx idx gang => ctx < 256 && idx < 8 && namesTile gang
  | .stepStopEdge ctx => ctx < 256
  | .freezeEdge ctx => ctx < 256
  | .uncorrectableErrorDetect _ => true
  | .rollback ctx => ctx < 256
  | .replayRequest ctx => ctx < 256
  | .replayBoundaryCut ctx => ctx < 256
  | .quiesceCut ctx => ctx < 256
  | .quiesceBoundExpiry ctx => ctx < 256
  | .invalTimeout ctx => ctx < 256
  | .contextResumeStart ctx => ctx < 256
  | .dumpWrite ctx => ctx < 256
  | .dumpAbort ctx _ => ctx < 256
  | .create ctx _ => ctx < 256
  | .start ctx => ctx < 256
  | .quiesce ctx _ _ => ctx < 256
  | .freeze ctx => ctx < 256
  | .resume ctx => ctx < 256
  | .exportImage ctx _ => ctx < 256
  | .restore ctx _ _ => ctx < 256
  | .kill ctx => ctx < 256
  | .release ctx => ctx < 256
  | .loaddone ctx => ctx < 256
  | .stepCmd ctx _ => ctx < 256
  | .bkSet ctx idx _ => ctx < 256 && idx < 8
  | .bkClear ctx idx => ctx < 256 && idx < 8
  | .trArm ctx _ => ctx < 256
  | .smpSet ctx _ => ctx < 256
  | .mkRead ctx gang _ => ctx < 256 && namesTile gang
  | .pgInval ctx _ _ _ => ctx < 256
  | .pgMigrate ctx _ tile _ _ _ => ctx < 256 && namesTile tile
  | .pgAnswer ctx _ _ _ => ctx < 256
  | .winSet ctx win _ _ => ctx < 256 && win < 256
  | .commSet ctx comm _ => ctx < 256 && comm < 64
  | .ringSet ctx ring _ => ctx < 256 && ring < 64
  | .ttSet ctx idx _ => ctx < 256 && idx < 256
  | .loadObject ctx _ => ctx < 256
  | .pageRequestArrival ctx _ tile _ _ => ctx < 256 && namesTile tile
  | .hostMailboxWrite tile _ _ => namesTile tile
  | .doorbellWrite _ tile _ => namesTile tile
  | .hostWindowWrite win _ _ => win < 256
  | .hostWindowRead win _ _ => win < 256
  | .hostLeafWrite ctx _ _ _ => ctx < 256
  | .linkTraining _ _ => true
  | .linkUnrecoverableError _ => true
  | .seamBeatError _ _ _ => true
  | .transportDataReceive _ _ => true
  | .transportAckReceive _ _ => true
  | .transportNakReceive _ _ => true
  | .transportResendTimeout _ _ => true
  | .ptpMessage _ _ => true
  | .selftestResult reticle _ _ => reticle < 48
  | .islandMerge _ _ => true
  | .bindingMapWrite _ => true
  | .remap _ => true
  | .reinstatement _ _ => true
  | .droopAlarm island => island < 768
  | .linkStop _ => true
  | .alignmentArrival dst src => namesTile dst && namesTile src
  | .timeSourceSelect _ => true
  | .pinReleaseComplete tile region _ => namesTile tile && region < 64

/-- Every instruction a program can hold: the ports its slot names are not Reserved and are of its unit; every event
row is well formed as an instruction (its operands are checked by Operand.wf). -/
def Instr.wf : Instr → Bool
  | .bundleIssue gang => namesTile gang
  | .registerWrite _ d s => registerDest d && sourceOk s
  | .tctlWrite _ s => sourceOk s
  | .tstclr _ s => sourceOk s
  | .operationLanding _ _ => true
  | .add _ _ s => sourceOk s
  | .sub _ _ s => sourceOk s
  | .addsh _ _ s => sourceOk s
  | .and _ _ s => sourceOk s
  | .or _ _ s => sourceOk s
  | .xor _ _ s => sourceOk s
  | .andn _ _ s => sourceOk s
  | .shl _ _ s => sourceOk s
  | .shr _ _ s => sourceOk s
  | .sar _ _ s => sourceOk s
  | .rol _ _ s => sourceOk s
  | .mul _ _ s => sourceOk s
  | .mulh _ _ s => sourceOk s
  | .mulhu _ _ s => sourceOk s
  | .divs _ _ s => sourceOk s
  | .divu _ _ s => sourceOk s
  | .remu _ _ s => sourceOk s
  | .min _ _ s => sourceOk s
  | .max _ _ s => sourceOk s
  | .minu _ _ s => sourceOk s
  | .maxu _ _ s => sourceOk s
  | .clz _ _ s => sourceOk s
  | .ctz _ _ s => sourceOk s
  | .popc _ _ s => sourceOk s
  | .extr _ _ s => sourceOk s
  | .ins _ _ s => sourceOk s
  | .sext _ _ s => sourceOk s
  | .zext _ _ s => sourceOk s
  | .sel _ _ s => sourceOk s
  | .cmpeq _ _ s => sourceOk s
  | .cmpne _ _ s => sourceOk s
  | .cmplt _ _ s => sourceOk s
  | .cmpltu _ _ s => sourceOk s
  | .cmple _ _ s => sourceOk s
  | .cmpleu _ _ s => sourceOk s
  | .cmpbit _ _ s => sourceOk s
  | .cvta _ _ s => sourceOk s
  | .issp _ _ s => sourceOk s
  | .addW _ _ s => sourceOk s
  | .subW _ _ s => sourceOk s
  | .shlW _ _ s => sourceOk s
  | .shrW _ _ s => sourceOk s
  | .sarW _ _ s => sourceOk s
  | .rolW _ _ s => sourceOk s
  | .mulW _ _ s => sourceOk s
  | .mulhW _ _ s => sourceOk s
  | .mulhuW _ _ s => sourceOk s
  | .divsW _ _ s => sourceOk s
  | .divuW _ _ s => sourceOk s
  | .remuW _ _ s => sourceOk s
  | .minW _ _ s => sourceOk s
  | .maxW _ _ s => sourceOk s
  | .minuW _ _ s => sourceOk s
  | .maxuW _ _ s => sourceOk s
  | .clzW _ _ s => sourceOk s
  | .ctzW _ _ s => sourceOk s
  | .cmpeqW _ _ s => sourceOk s
  | .cmpneW _ _ s => sourceOk s
  | .cmpltW _ _ s => sourceOk s
  | .cmpltuW _ _ s => sourceOk s
  | .cmpleW _ _ s => sourceOk s
  | .cmpleuW _ _ s => sourceOk s
  | .jmp _ s => sourceOk s
  | .jmpr _ s => sourceOk s
  | .call _ s => sourceOk s
  | .callr _ s => sourceOk s
  | .ret _ s => sourceOk s
  | .loop _ s => sourceOk s
  | .loopm _ s => sourceOk s
  | .brkl _ s => sourceOk s
  | .chkdf _ s => sourceOk s
  | .chkmx _ s => sourceOk s
  | .qpoint _ s => sourceOk s
  | .waitev _ s => sourceOk s
  | .cycrd _ s => sourceOk s
  | .cycwait _ s => sourceOk s
  | .cycalign _ s => sourceOk s
  | .mark _ s => sourceOk s
  | .fmtset _ s => sourceOk s
  | .bndset _ s => sourceOk s
  | .pand _ s => sourceOk s
  | .por _ s => sourceOk s
  | .pxor _ s => sourceOk s
  | .pnot _ s => sourceOk s
  | .trap _ s => sourceOk s
  | .sys _ s => sourceOk s
  | .evret _ s => sourceOk s
  | .evmask _ s => sourceOk s
  | .halt _ s => sourceOk s
  | .ldB _ u s => lsuUnit u && sourceOk s
  | .ldH _ u s => lsuUnit u && sourceOk s
  | .ldW _ u s => lsuUnit u && sourceOk s
  | .ldD _ u s => lsuUnit u && sourceOk s
  | .ldsB _ u s => lsuUnit u && sourceOk s
  | .ldsH _ u s => lsuUnit u && sourceOk s
  | .ldsW _ u s => lsuUnit u && sourceOk s
  | .ldsD _ u s => lsuUnit u && sourceOk s
  | .stB _ u s => lsuUnit u && sourceOk s
  | .stH _ u s => lsuUnit u && sourceOk s
  | .stW _ u s => lsuUnit u && sourceOk s
  | .stD _ u s => lsuUnit u && sourceOk s
  | .ldgB _ u s => lsuUnit u && sourceOk s
  | .ldgH _ u s => lsuUnit u && sourceOk s
  | .ldgW _ u s => lsuUnit u && sourceOk s
  | .ldgD _ u s => lsuUnit u && sourceOk s
  | .stgB _ u s => lsuUnit u && sourceOk s
  | .stgH _ u s => lsuUnit u && sourceOk s
  | .stgW _ u s => lsuUnit u && sourceOk s
  | .stgD _ u s => lsuUnit u && sourceOk s
  | .ldAcq _ u s => lsuUnit u && sourceOk s
  | .ldSc _ u s => lsuUnit u && sourceOk s
  | .stRel _ u s => lsuUnit u && sourceOk s
  | .stSc _ u s => lsuUnit u && sourceOk s
  | .atomAdd _ u s => lsuUnit u && sourceOk s
  | .atomAnd _ u s => lsuUnit u && sourceOk s
  | .atomOr _ u s => lsuUnit u && sourceOk s
  | .atomXor _ u s => lsuUnit u && sourceOk s
  | .atomMin _ u s => lsuUnit u && sourceOk s
  | .atomMax _ u s => lsuUnit u && sourceOk s
  | .atomXchg _ u s => lsuUnit u && sourceOk s
  | .atomCas _ u s => lsuUnit u && sourceOk s
  | .fenceAcq _ u s => lsuUnit u && sourceOk s
  | .fenceRel _ u s => lsuUnit u && sourceOk s
  | .fenceAr _ u s => lsuUnit u && sourceOk s
  | .fenceSc _ u s => lsuUnit u && sourceOk s
  | .taglook _ u s => lsuUnit u && sourceOk s
  | .tagset _ u s => lsuUnit u && sourceOk s
  | .tagclr _ u s => lsuUnit u && sourceOk s
  | .rgnmap _ u s => lsuUnit u && sourceOk s
  | .rgnunmap _ u s => lsuUnit u && sourceOk s
  | .rgnqry _ u s => lsuUnit u && sourceOk s
  | .bankrel _ u s => lsuUnit u && sourceOk s
  | .bankwait _ u s => lsuUnit u && sourceOk s
  | .vadd _ s => sourceOk s
  | .vsub _ s => sourceOk s
  | .vmul _ s => sourceOk s
  | .vfma _ s => sourceOk s
  | .vmin _ s => sourceOk s
  | .vmax _ s => sourceOk s
  | .vabs _ s => sourceOk s
  | .vneg _ s => sourceOk s
  | .viadd _ s => sourceOk s
  | .visub _ s => sourceOk s
  | .vimul _ s => sourceOk s
  | .vand _ s => sourceOk s
  | .vor _ s => sourceOk s
  | .vxor _ s => sourceOk s
  | .vshl _ s => sourceOk s
  | .vshr _ s => sourceOk s
  | .vsar _ s => sourceOk s
  | .vcmpEq _ s => sourceOk s
  | .vcmpNe _ s => sourceOk s
  | .vcmpLt _ s => sourceOk s
  | .vcmpLe _ s => sourceOk s
  | .vcmpIeq _ s => sourceOk s
  | .vcmpIne _ s => sourceOk s
  | .vcmpIlt _ s => sourceOk s
  | .vcmpIle _ s => sourceOk s
  | .vcmpIltu _ s => sourceOk s
  | .vcmpIleu _ s => sourceOk s
  | .vsel _ s => sourceOk s
  | .vcvt _ s => sourceOk s
  | .vredAdd _ s => sourceOk s
  | .vredMin _ s => sourceOk s
  | .vredMax _ s => sourceOk s
  | .vredIadd _ s => sourceOk s
  | .vshuf _ s => sourceOk s
  | .vbcast _ s => sourceOk s
  | .vgshuf _ s => sourceOk s
  | .vld _ s => sourceOk s
  | .vst _ s => sourceOk s
  | .vgath _ s => sourceOk s
  | .vscat _ s => sourceOk s
  | .kand _ s => sourceOk s
  | .kor _ s => sourceOk s
  | .kxor _ s => sourceOk s
  | .knot _ s => sourceOk s
  | .ktail _ s => sourceOk s
  | .kpopc _ s => sourceOk s
  | .vclamp _ s => sourceOk s
  | .fload _ s => sourceOk s
  | .feval _ s => sourceOk s
  | .xpush _ s => sourceOk s
  | .xpop _ s => sourceOk s
  | .xclr _ s => sourceOk s
  | .mxcall _ s => sourceOk s
  | .mxload _ s => sourceOk s
  | .mxresume _ s => sourceOk s
  | .mxstat _ s => sourceOk s
  | .mxzero _ s => sourceOk s
  | .mxswap _ s => sourceOk s
  | .mnop gang => namesTile gang
  | .mlda gang _ _ => namesTile gang
  | .mldb gang _ _ => namesTile gang
  | .mstep gang _ _ _ => namesTile gang
  | .mchk gang _ => namesTile gang
  | .mloop gang _ => namesTile gang
  | .mend gang => namesTile gang
  | .mhad gang _ => namesTile gang
  | .mdrain gang x _ fmt => namesTile gang && (x || fmt = 0)
  | .mflag gang _ => namesTile gang
  | .mzero gang _ => namesTile gang
  | .mswap gang => namesTile gang
  | .msig gang n => namesTile gang && n.toNat < 256
  | .msnap gang => namesTile gang
  | .mwait0 gang => namesTile gang
  | .mhalt gang => namesTile gang
  | .wfill _ s => sourceOk s
  | .wflush _ s => sourceOk s
  | .winv _ s => sourceOk s
  | .watom _ s => sourceOk s
  | .wstat _ s => sourceOk s
  | .wres _ s => sourceOk s
  | .pgreq _ s => sourceOk s
  | .kcopy _ s => sourceOk s
  | .kstat _ s => sourceOk s
  | .send _ _ s => sourceOk s
  | .routeset _ s => sourceOk s
  | .nameload _ s => sourceOk s
  | .nameq _ s => sourceOk s
  | .barinit _ s => sourceOk s
  | .bararr _ s => sourceOk s
  | .barwait _ s => sourceOk s
  | .bartest _ s => sourceOk s
  | .barxin _ s => sourceOk s
  | .barxout _ s => sourceOk s
  | .tokput _ s => sourceOk s
  | .tokget _ s => sourceOk s
  | .ringput _ s => sourceOk s
  | .coll _ s => sourceOk s
  | .collwait _ s => sourceOk s
  | .routineLanding => true
  | .wfillLanding => true
  | .wflushLanding => true
  | .watomApply => true
  | .remoteWatomApply => true
  | .remoteWatomReply => true
  | .routesetCheck => true
  | .switchProgramStart => true
  | .routerStaticBeat => true
  | .asyncItemSend => true
  | .remoteAccessArrival => true
  | .arrivalDelivery => true
  | .releaseDelivery => true
  | .copyBeatDelivery => true
  | .tokenDelivery => true
  | .softEventDelivery => true
  | .collContributionArrival => true
  | .hostRingEntryWrite => true
  | .ringCoalesceTimeout => true
  | .ringHeadAdvance => true
  | .waitevComplete => true
  | .cycwaitComplete => true
  | .cycalignComplete => true
  | .barwaitComplete => true
  | .bankwaitComplete => true
  | .rgnmapWalkEnd => true
  | .rgnmapComplete => true
  | .collwaitComplete => true
  | .sysAnswer => true
  | .haltDrainComplete => true
  | .taskStart => true
  | .dispatchDecision => true
  | .timeTableFiring => true
  | .heartbeat => true
  | .heartbeatTimeout => true
  | .bellwetherRoundStart => true
  | .beaconReceive => true
  | .sampleTick => true
  | .breakpointHit => true
  | .stepStopEdge => true
  | .freezeEdge => true
  | .uncorrectableErrorDetect => true
  | .rollback => true
  | .replayRequest => true
  | .replayBoundaryCut => true
  | .quiesceCut => true
  | .quiesceBoundExpiry => true
  | .invalTimeout => true
  | .contextResumeStart => true
  | .dumpWrite => true
  | .dumpAbort => true
  | .create => true
  | .start => true
  | .quiesce => true
  | .freeze => true
  | .resume => true
  | .exportImage => true
  | .restore => true
  | .kill => true
  | .release => true
  | .loaddone => true
  | .stepCmd => true
  | .bkSet => true
  | .bkClear => true
  | .trArm => true
  | .smpSet => true
  | .mkRead => true
  | .pgInval => true
  | .pgMigrate => true
  | .pgAnswer => true
  | .winSet => true
  | .commSet => true
  | .ringSet => true
  | .ttSet => true
  | .loadObject => true
  | .pageRequestArrival => true
  | .hostMailboxWrite => true
  | .doorbellWrite => true
  | .hostWindowWrite => true
  | .hostWindowRead => true
  | .hostLeafWrite => true
  | .linkTraining => true
  | .linkUnrecoverableError => true
  | .seamBeatError => true
  | .transportDataReceive => true
  | .transportAckReceive => true
  | .transportNakReceive => true
  | .transportResendTimeout => true
  | .ptpMessage => true
  | .timeSourceLoss => true
  | .powerOn => true
  | .selftestResult => true
  | .islandMerge => true
  | .bindingMapWrite => true
  | .remap => true
  | .reinstatement => true
  | .voltageTrim => true
  | .droopAlarm => true
  | .powerOff => true
  | .linkStop => true
  | .alignmentArrival => true
  | .timeSourceSelect => true
  | .pinReleaseComplete => true

end Sys2Proof
end

