-- ==== Sys2Proof/Machine/Ops.lean ====
section
/-! DEFINITION. The operations every meaning is written over: access to gangs, slabs, contexts and memories, the agenda, distances and domains, faults, event posting, segment origins. -/

namespace Sys2Proof.Machine

/-! ### Gangs, slabs, contexts -/

def gangOf (s : State) (n : TileName) : Gang := tabGetD (Gang.fresh 0 0 1) s.gangs n
def slabOf (s : State) (n : TileName) : Slab := tabGetD Slab.fresh s.slabs n
def ctxOf (s : State) (i : Nat) : Ctx := tabGetD Ctx.free s.ctxs i

/-- Change the gang named n; nothing where no task holds that front end (14_kernel R337). -/
def modGang (s : State) (n : TileName) (f : Gang → Gang) : State :=
  match tabGet s.gangs n with
  | some g => { s with gangs := tabPut s.gangs n (f g) }
  | none => s

def modSlab (s : State) (n : TileName) (f : Slab → Slab) : State := { s with slabs := tabPut s.slabs n (f (slabOf s n)) }
def modCtx (s : State) (i : Nat) (f : Ctx → Ctx) : State := { s with ctxs := tabPut s.ctxs i (f (ctxOf s i)) }
def modTask (s : State) (i : Nat) (f : Task → Task) : State := { s with tasks := tabMod s.tasks i f }

/-- The tiles of a gang of width w whose slab 0 is n, in gang slab order (06_region R143, 11_group R267). -/
def gangTilesOf (n : TileName) (w : Nat) : List TileName :=
  if w = 4 then [n, n + 1, n + 128, n + 129] else if w = 2 then [n, n + 1] else [n]

def gangTiles (s : State) (n : TileName) : List TileName := gangTilesOf n (gangOf s n).width

/-- Do f at every tile of a list. -/
def forTiles (s : State) (ts : List TileName) (f : State → TileName → State) : State := ts.foldl f s

/-- Modify every slab of a gang. -/
def modSlabs (s : State) (n : TileName) (f : Slab → Slab) : State :=
  forTiles s (gangTiles s n) fun s t => modSlab s t f

/-- The names of a context's gangs, ascending. -/
def ctxGangs (s : State) (c : Nat) : List TileName :=
  (s.gangs.filter fun (_, g) => g.ctx = c && g.seq != .idle).map (·.1)

/-! ### Time and distance -/

def tileCol (t : TileName) : Nat := t % 128
def tileRow (t : TileName) : Nat := t / 128

/-- The reticle of a logical tile, 8Y + X (01_wafer R15). -/
def reticleOf (t : TileName) : Nat := 8 * (tileRow t / 11) + tileCol t / 12

/-- How far the count of a tile's island stands ahead of State.now, the count of a module that has set none forward
(19_tile R431; log 108). -/
def aheadOf (s : State) (t : TileName) : Nat := tabGetD 0 s.ahead (reticleOf t)

/-- The count of a tile's island on the present cycle. -/
def islandCyc (s : State) (t : TileName) : Nat := s.now + aheadOf s t

/-- cyc as a tile reads it on a cycle y of State.now (01_wafer R24). -/
def cycAt (s : State) (t : TileName) (y : Nat) : Word := BitVec.ofInt 64 ((y + aheadOf s t : Nat) + (slabOf s t).skew)

/-- cyc as a tile reads it now. -/
def tileCyc (s : State) (t : TileName) : Word := cycAt s t s.now

/-- The count of a context: that of the island of its first gang. -/
def ctxAhead (s : State) (c : Nat) : Nat := aheadOf s ((ctxGangs s c).headD 0)
def ctxCyc (s : State) (c : Nat) : Nat := s.now + ctxAhead s c
def mkTile (c r : Nat) : TileName := r * 128 + c

/-- Schedule cycles of n microseconds of unstretched wall time: 1.2 GHz in SERVICE, 600 MHz in reduced service (R24,
19_tile R432). -/
def usCycles (s : State) (n : Nat) : Nat := n * (if s.phase = .merging then 600 else Config.cyclesPerUs)

/-- |a − b|. -/
def absDiff (a b : Nat) : Nat := (a - b) + (b - a)

/-- Hop distance (01_wafer R22). -/
def hops (a b : TileName) : Nat := absDiff (tileCol a) (tileCol b) + absDiff (tileRow a) (tileRow b)

/-- Seams crossed (01_wafer R22): the reticle columns and rows between the two tiles. -/
def seams (a b : TileName) : Nat :=
  absDiff (tileCol a / 12) (tileCol b / 12) + absDiff (tileRow a / 11) (tileRow b / 11)

/-- The cost h + 2s of the path between two tiles (01_wafer R22). -/
def pathCost (a b : TileName) : Nat := hops a b + 2 * seams a b

/-- The state of a link (18_link R408). -/
def linkState (s : State) (l : LinkId) : LinkState :=
  match s.links.find? fun e => e.1 = l with
  | some (_, st, _) => st
  | none => .down

/-- The seam link between two neighbours has not failed. -/
def seamCarries (s : State) (a b : TileName) : Bool := linkState s (.seam (min a b) (max a b)) != .failed

/-- The port of the device's posted writes: host port 0, or the lowest one that is UP (18_link R416). -/
def hostPort (s : State) : Nat := ((List.range 4).find? fun p => linkState s (.host p) = .up).getD 0

/-! ### The agenda -/

/-- One event comes before another: cycle, place in the cycle, order among equals. -/
def evLt (a b : Ev) : Bool :=
  a.at_ < b.at_ || (a.at_ = b.at_ && (a.ord < b.ord || (a.ord = b.ord && a.sub < b.sub)))

/-- Insert behind every event that is not later. -/
def insertEv (e : Ev) : List Ev → List Ev
  | [] => [e]
  | x :: xs => if evLt e x then e :: x :: xs else x :: insertEv e xs

def post (s : State) (e : Ev) : State := { s with agenda := insertEv e s.agenda }

/-- Places within a cycle (00_scope R10, 06_region R139, 12_barrier R287, 16_context R376). -/
def ordInput : Nat := 0
def ordClear : Nat := 9
def ordLand : Nat := 10
def ordFreeze : Nat := 15
def ordWait : Nat := 20
/-- Static beats reach a router after the program of the cycle stands there (10_route R254). -/
def ordHop : Nat := 25
/-- MXSTAT reads at the start of its cycle, after what lands there and before a freeze on that edge (08_accumulator R215). -/
def ordMxstat : Nat := 12
def ordIssue : Nat := 100
/-- A release is checked before any action of its cycle (13_binding R302). -/
def ordCheck : Nat := 40
def ordWrite : Nat := 200
/-- Landings of BARINIT, BARXIN and BARXOUT: at the start of their cycle (00_scope R10), before beats, sends and
deliveries (R287). -/
def ordBar : Nat := 10
def ordBeat : Nat := 250
def ordSend : Nat := 260
def ordDeliver : Nat := 270
def ordDone : Nat := 280
def ordRead : Nat := 300
def ordEval : Nat := 850
def ordEnd : Nat := 900

/-- Schedule an event of the part with no operands of its own slot. -/
def postEv (s : State) (t ord sub : Nat) (own : Option Owner) (i : Instr) (arg : Operand) : State :=
  post s ⟨t, ord, sub, own, i, arg⟩

/-- Schedule a landing or an array action of an operation; equals act in trigger order (02_bundle R34). -/
def postAct (s : State) (own : Owner) (t ord : Nat) (a : Action) : State :=
  post s ⟨t, ord, s.now, some own, .operationLanding own a, .none⟩

/-- A landing in a register, port or flag at the start of cycle t. -/
def postLand (s : State) (own : Owner) (t : Nat) (a : Action) : State := postAct s own t ordLand a

/-- The bundle of a gang at cycle t. -/
def postBundle (s : State) (g : TileName) (t : Nat) : State :=
  let gg := gangOf s g
  postEv s t ordIssue g (some ⟨gg.ctx, gg.task, g, false, 0, 0xFF, 0, s.now⟩) (.bundleIssue g) .none

/-- A use of an open duration of 00_scope R485 (free value, log 10). -/
def freeDelay (s : State) : Nat × State := (Config.delay s.freeCount, { s with freeCount := s.freeCount + 1 })

def tell (s : State) (h : HostOut) : State := { s with out := s.out ++ [h] }

/-- A phase of bring-up is reached: from now on a read through the command ring gives it (19_tile R429). -/
def setPhase (s : State) (p : Phase) : State := tell { s with phase := p } (.phase p)

/-! ### Memories -/

/-- Key of a scratchpad byte: the domain offset of 06_region R142. -/
def padKey (t : TileName) (a : Nat) : Nat := t * 0x400000 + a

def padRead (s : State) (t : TileName) (a n : Nat) : Nat := memReadN s.mem (padKey t a) n
def padWrite (s : State) (t : TileName) (a n v : Nat) : State := { s with mem := memWriteN s.mem (padKey t a) n v }
def padWord (s : State) (t : TileName) (a : Nat) : Word := BitVec.ofNat 64 (padRead s t a 8)
def padPutWord (s : State) (t : TileName) (a : Nat) (w : Word) : State := padWrite s t a 8 w.toNat

/-- Key of a vault byte: home tile, frame, offset in the 4 KiB frame (09_window R231). -/
def vaultKey (t : TileName) (frame off : Nat) : Nat := t * 0x20000000 + frame * 4096 + off

/-- The 20 low KiB are written only by the operations of 06_region R140. -/
def protectedAddr (a : Nat) : Bool := a < 0x5000

/-! ### Owners -/

/-- Who the slot in hand works for. -/
def issueOwner (s : State) (is : Issue) : Owner :=
  let g := gangOf s is.gang
  ⟨g.ctx, g.task, is.gang, g.handler, is.pc, is.slot, is.trig, s.now⟩

/-- The task that started the operation still holds its gang (14_kernel R337). -/
def ownerLive (s : State) (own : Owner) : Bool :=
  match tabGet s.gangs own.gang with
  | some g => g.task = own.task
  | none => false

/-! ### Domains (11_group R272 to R274) -/

def dmCol0 (d : Word) : Nat := (d.extractLsb' 0 7).toNat
def dmRow0 (d : Word) : Nat := (d.extractLsb' 7 7).toNat
def dmCols (d : Word) : Nat := (d.extractLsb' 14 7).toNat
def dmRows (d : Word) : Nat := (d.extractLsb' 21 7).toNat
def dmLevel (d : Word) : Nat := (d.extractLsb' 46 2).toNat
def dmGw (d : Word) : Nat := (d.extractLsb' 48 2).toNat

/-- A tile lies in the widest domain of a dmem value (R144, R272). -/
def inDomain (d : Word) (t : TileName) : Bool :=
  dmCol0 d ≤ tileCol t && tileCol t < dmCol0 d + dmCols d && dmRow0 d ≤ tileRow t && tileRow t < dmRow0 d + dmRows d

/-! ### Faults (20_fault R445 to R452) -/

/-- (cyc, tile, slot) decides which record of a freeze is primary (R450). -/
def faultLt (a b : FaultRec) : Bool :=
  a.cyc < b.cyc || (a.cyc = b.cyc && (a.tile < b.tile || (a.tile = b.tile && a.slot < b.slot)))

/-- Mark the primary record among the records of one freeze. -/
def markPrimary (rs : List FaultRec) : List FaultRec :=
  match rs.filter fun r => !r.nested with
  | [] => rs
  | r :: rest =>
    let best := rest.foldl (fun b x => if faultLt x b then x else b) r
    rs.map fun x => { x with primary := x.seq = best.seq }

/-- The states in which a fault sets a freeze edge. -/
def freezable (st : CtxState) : Bool := st = .running || st = .quiescing

/-- Freeze context c on edge f, unless an earlier edge stands (R450, 21_marker R467). -/
def setEdge (s : State) (c f : Nat) : State :=
  let k := ctxOf s c
  if !freezable k.st then s else
  match k.edge with
  | some f0 => if f0 ≤ f then s else
      postEv (modCtx s c fun k => { k with edge := some f }) f ordFreeze c none .freezeEdge (.freezeEdge c)
  | none => postEv (modCtx s c fun k => { k with edge := some f }) f ordFreeze c none .freezeEdge (.freezeEdge c)

/-- The classes whose edge is t + 64; the others take an edge of the service controller's choosing (R449). -/
def fixedHorizon (cls : Nat) : Bool := cls ≤ 16 || cls = 19

/-- What a fault record says (R452). -/
structure FaultArgs where
  own   : Owner
  cls   : Nat
  cause : Nat
  aux   : Word
  gslab : Nat
  /-- the receiving tile of a delivery -/
  deliv : Option TileName
deriving DecidableEq, Repr

/-- A fault after which no replay mends the context: an overflowed undo log, an error in the undo entries or in the boundary
copy, a fifth replay (R447, R456). -/
def cannotReplay (cls cause : Nat) : Bool := cls = 16 || (cls = 15 && (cause = 6 || cause = 7))

/-- A context that stands still after a stop. -/
def atRest (st : CtxState) : Bool := st = .quiesced || st = .frozen

/-- A fault of a class that dumps its context, by its HOLD mask (R447). -/
def fatalClass (k : Ctx) (cls cause : Nat) : Bool :=
  cannotReplay cls cause || !(cls = 15 || cls = 17 || cls = 18 || cls = 20 || (k.ops.hold.getD 0).getLsbD cls)

/-- The edge that a fault's record names: that of its freeze; of the wafer freeze for a memory error of a context that does not
run; else the edge on which the context stopped (R449, R452). -/
def faultEdge (s : State) (k : Ctx) (cls cause f0 : Nat) : Nat :=
  if freezable k.st then (match k.faults with | r :: _ => r.edge - aheadOf s r.tile | [] => f0)
  else if cls = 15 && !cannotReplay cls cause then f0
  else match k.faults with
    | r :: _ => r.edge - aheadOf s r.tile
    | [] => if cls = 15 && cause = 6 then f0 else k.frozenAt

/-- What a fault asks of its context beside a record: one that no replay mends, or a fatal one of a context that stands
still, owes a dump, and the latter takes it at the end of the cycle (16_context R367, 20_fault R447, R456; log 152). -/
def oweDump (s : State) (c cls cause : Nat) : State :=
  let k := ctxOf s c
  let late : Bool := atRest k.st && fatalClass k cls cause
  let s := if late || cannotReplay cls cause then modCtx s c fun k => { k with mustDump := true } else s
  if late then postEv s s.now ordEnd c none .freezeEdge (.freezeEdge c) else s

/-- A fault at the present cycle: its record, the freeze edge it sets and the dump it asks for (R449, R450, R451, R458).  The
primary record of a freeze is told at its edge; the first of a context that stands still, at once (R452). -/
def raiseWith (s : State) (a : FaultArgs) : State :=
  let c := a.own.ctx
  let k := ctxOf s c
  let (d, s) := if fixedHorizon a.cls then (0, s) else freeDelay s
  let f0 := s.now + 64 + d
  let tile := a.deliv.getD a.own.gang
  let edge := faultEdge s k a.cls a.cause f0 + aheadOf s tile
  let nest := k.st = .faulted || k.st = .dumping
  let depth := if nest then (k.faults.filter (·.nested)).length + 1 else 0
  let r : FaultRec :=
    { cls := a.cls, cause := a.cause, slot := a.own.slot, primary := false, nested := nest, handler := a.own.hand,
      delivery := a.deliv.isSome, ctx := c, tile, gen := k.gen, pc := a.own.pc,
      trig := a.own.trig, cyc := islandCyc s tile, edge, aux := a.aux, gslab := a.gslab, depth, seq := s.faultSeq }
  let s := oweDump { s with faultSeq := s.faultSeq + 1 } c a.cls a.cause
  if depth ≥ 3 then modCtx s c fun k => { k with trunc := true, droppedFaults := k.droppedFaults + 1 }
  else if !nest && 16 ≤ (k.faults.filter fun r => !r.nested).length then
    modCtx s c fun k => { k with droppedFaults := k.droppedFaults + 1 }
  else
    let s := modCtx s c fun k => { k with faults := markPrimary (k.faults ++ [r]) }
    if freezable k.st then (if k.faults.isEmpty then setEdge s c f0 else s)
    else if k.faults.isEmpty then tell s (.fault { r with primary := true }) else s

/-- A fault of an operation of a gang, with no address. -/
def raise (s : State) (own : Owner) (cls cause : Nat) : State := raiseWith s ⟨own, cls, cause, 0, 0, none⟩

/-- A fault met in gang slab k, with an address or code. -/
def raiseAux (s : State) (own : Owner) (cls cause : Nat) (aux : Word) (k : Nat) : State :=
  raiseWith s ⟨own, cls, cause, aux, k, none⟩

/-- A fault at a delivery, raised at the receiving tile (R451, R452 FLAGS bit 3). -/
def raiseDelivery (s : State) (own : Owner) (cls cause : Nat) (aux : Word) (t : TileName) : State :=
  raiseWith s ⟨own, cls, cause, aux, 0, some t⟩

/-! ### Events of a gang (05_sequencer R125, R484) -/

/-- An event word (R125). -/
def eventWord (cls : Nat) (src : BitVec 16) (payload : BitVec 40) : Word :=
  (payload ++ src ++ BitVec.ofNat 8 (2 ^ cls) : BitVec 64)

/-- An event behind those that arrived before it: events of one cycle stand in the order of their sources (R484). -/
def insertEvent (x : PendEv) : List PendEv → List PendEv
  | [] => [x]
  | y :: ys => if y.at_ = x.at_ && x.src < y.src then x :: y :: ys else y :: insertEvent x ys

/-- Append an event to a gang's queue; with no task, or with 512 pending, it is dropped and counted (R484). -/
def postEvent (s : State) (g : TileName) (src : Nat) (w : Word) : State :=
  match tabGet s.gangs g with
  | none => { s with dropEvt := s.dropEvt + 1 }
  | some gg =>
    if gg.seq = .idle || 512 ≤ gg.events.length then { s with dropEvt := s.dropEvt + 1 }
    else modGang s g fun gg => { gg with events := insertEvent ⟨s.now, src, w⟩ gg.events }

/-- The gang whose slab a tile is, if one drives it. -/
def gangAt (s : State) (t : TileName) : Option TileName := (slabOf s t).gang

/-- Post an event to the gang of a tile. -/
def postEventAt (s : State) (t : TileName) (src : Nat) (w : Word) : State :=
  match gangAt s t with
  | some g => postEvent s g src w
  | none => { s with dropEvt := s.dropEvt + 1 }

/-- The place of the event WAITEV takes: the oldest of the lowest enabled class (R125). -/
def pickEvent (evs : List PendEv) (mask : BitVec 8) : Option Word :=
  (List.range 8).findSome? fun k =>
    if mask.getLsbD k then (evs.find? fun e => e.word.getLsbD k).map (·.word) else none

/-- Take one event out of a queue. -/
def dropEvent (evs : List PendEv) (w : Word) : List PendEv := evs.eraseP fun e => e.word = w

/-- Bits that no rule gives, of what stands beside the bits w that the rules give (free value, log 17). -/
def openBits (w : Word) : BitVec 56 := Config.eventBits w

/-- An event word whose payload no rule gives. -/
def openEvent (cls : Nat) (src : BitVec 16) : Word :=
  eventWord cls src ((openBits (eventWord cls src 0)).setWidth 40)

/-! ### Segments -/

/-- The k-th cycle from now is the origin of a new segment: held mailbox writes become visible (02_bundle R52, 04_scalar
R90). -/
def segmentIn (s : State) (g : TileName) (k : Nat) : State :=
  let c := tileCyc s g + BitVec.ofNat 64 k
  modGang s g fun gg => { gg with origin := c, mbx := tabPuts gg.mbx gg.mbxPend, mbxPend := [] }

/-- The present cycle is the origin of a new segment. -/
def beginSegment (s : State) (g : TileName) : State := segmentIn s g 0

/-- The gang leaves its waits and issues its next bundle at cycle t. -/
def issueAt (s : State) (g : TileName) (t : Nat) : State :=
  postBundle (modGang s g fun gg => { gg with seq := if gg.handler then .handler else .issuing, waits := [] }) g t

/-! ### Counters (21_marker R465) -/

/-- The counters of a gang in a state of the sequencer at the start of a cycle: those of WAITING and HALTING hold the time spent
there so far (21_marker R465). -/
def countersAt (gg : Gang) (seq : SeqState) (now : Nat) : Tab (BitVec 32) :=
  let add (k : Nat) : Tab (BitVec 32) := tabPut gg.counters k (tabGetD 0 gg.counters k + BitVec.ofNat 32 (now - gg.waitStart - 1))
  if seq = .waiting then add 1 else if seq = .halting then add 3 else gg.counters

def bumpCounter (s : State) (g : TileName) (k : Nat) (n : Nat) : State :=
  modGang s g fun gg => { gg with counters := tabPut gg.counters k (tabGetD 0 gg.counters k + BitVec.ofNat 32 n) }

/-! ### Completing a command (16_context R365, R366) -/

/-- The service controller answers a command with a completion code: 0 done, 1 BADSTATE, 2 BADARG. -/
def answer (s : State) (ctx code : Nat) (a : Nat) : State := tell s (.command ctx code a)

end Sys2Proof.Machine
end

