-- ==== Sys2Proof/Machine/Flags.lean ====
section
/-! DEFINITION. The status, control and format registers of a tile as words, and the sticky flags with the numeric trap. -/

namespace Sys2Proof.Machine

/-- tst as read at source port 194 (05_sequencer R108). -/
def tstWord (g : Gang) : Word :=
  let t := g.tst
  BitVec.ofNat 64 (g.calls.length * 2 ^ 56 + g.loops.length * 2 ^ 48 + t.diff.toNat * 2 ^ 16 +
    (if t.drift then 64 else 0) + (if t.dzf then 32 else 0) + (if t.bndf then 16 else 0) + (if t.invf then 8 else 0) +
    (if t.cvovf then 4 else 0) + (if t.scopenarrow then 2 else 0) + (if t.excol then 1 else 0))

/-- tctl as read at source port 195 (R109). -/
def tctlWord (g : Gang) : Word :=
  let t := g.tctl
  BitVec.ofNat 64 ((if g.handler then 2 ^ 24 else 0) + t.evm.toNat * 2 ^ 16 + (if t.event then 256 else 0) +
    (if t.scopestrict then 2 else 0) + (if t.exitstrict then 1 else 0))

/-- A write of c.tctl changes only the two RW fields (R109). -/
def tctlPut (t : Tctl) (v : Word) : Tctl := { t with exitstrict := v.getLsbD 0, scopestrict := v.getLsbD 1 }

/-- A write of c.tstclr clears each W1C bit whose bit in the value is 1 (R108); DIFF stands. -/
def tstClear (t : Tst) (v : Word) : Tst :=
  { t with
    excol := t.excol && !v.getLsbD 0, scopenarrow := t.scopenarrow && !v.getLsbD 1, cvovf := t.cvovf && !v.getLsbD 2,
    invf := t.invf && !v.getLsbD 3, bndf := t.bndf && !v.getLsbD 4, dzf := t.dzf && !v.getLsbD 5,
    drift := t.drift && !v.getLsbD 6 }

/-- BACT: the action of bound register b in bits 2b+1..2b of the field (03_element R69). -/
def bactWord (bd : Tab Bound) : Nat :=
  (List.range 8).foldl (fun n b => n + (tabGetD boundReset bd b).act.toNat * 4 ^ b) 0

/-- fmt as read at source port 193 (R69). -/
def fmtWord (f : Fmt) (bd : Tab Bound) : Word :=
  BitVec.ofNat 64 (bactWord bd * 2 ^ 48 + f.strict.toNat * 2 ^ 33 + f.drnd.toNat * 2 ^ 31 + f.aw.toNat * 2 ^ 28 +
    f.bscl.toNat * 2 ^ 20 + f.ascl.toNat * 2 ^ 12 + f.cfmt.toNat * 2 ^ 8 + f.bfmt.toNat * 2 ^ 4 + f.afmt.toNat)

/-- A bound register as read at source ports 216 to 223 (R76). -/
def boundWord (b : Bound) : Word := (b.hi ++ b.lo : BitVec 64)

/-- A write of field port 824 + k into the staging image of fmt: the low bits, as wide as the field (R69). -/
def fmtPutField (f : Fmt) (k : Nat) (v : Word) : Fmt :=
  match k with
  | 0 => { f with afmt := v.setWidth 4 }
  | 1 => { f with bfmt := v.setWidth 4 }
  | 2 => { f with cfmt := v.setWidth 4 }
  | 3 => { f with ascl := v.setWidth 8 }
  | 4 => { f with bscl := v.setWidth 8 }
  | 5 => { f with aw := v.setWidth 3 }
  | 6 => { f with drnd := v.setWidth 2 }
  | _ => { f with strict := v.setWidth 2 }

/-- A write of field f of a bound register's staging (02_bundle R48, 03_element R76). -/
def boundPutField (b : Bound) (f : Nat) (v : Word) : Bound :=
  match f with
  | 0 => { b with lo := v.setWidth 32 }
  | 1 => { b with hi := v.setWidth 32 }
  | _ => { b with act := v.setWidth 2 }

/-- Reset values of the shape registers, keys of Slab.shape (07_vector R188, R196, 08_accumulator R211, 09_window R236). -/
def shapeReset (k : Nat) : Word := if 4 ≤ k && k < 8 then 0x0000000600000004 else if k = 8 then 0x4040 else 0

/-- Replace n bits from position p. -/
def putBits (w : Word) (p n : Nat) (v : Word) : Word :=
  let mask := BitVec.ofNat 64 ((2 ^ n - 1) * 2 ^ p)
  (w &&& ~~~mask) ||| ((v <<< p) &&& mask)

/-- A write of field f of shape register k: as wide as the field (07_vector R188, R196, 08_accumulator R211,
09_window R236). -/
def shapePutField (k f : Nat) (w v : Word) : Word :=
  if 4 ≤ k && k < 8 then
    (match f with
     | 0 => putBits w 0 16 v
     | 1 => putBits w 16 16 v
     | 2 => putBits w 32 3 v
     | _ => putBits w 36 4 v)
  else if k = 8 then
    (match f with
     | 0 => putBits w 0 8 v
     | 1 => putBits w 8 8 v
     | 2 => putBits w 16 1 v
     | _ => putBits w 48 16 v)
  else putBits w (16 * f) 16 v

/-- The engine status word mst (08_accumulator R205). -/
def bankCode : BankState → Nat
  | .idle => 0
  | .running => 1
  | .parked => 2
  | .draining => 3

def mstWord (m : Mx) : Word :=
  let b (x : Bool) (k : Nat) : Nat := if x then 2 ^ k else 0
  BitVec.ofNat 64 (m.pgrp.toNat * 2 ^ 48 + m.pslot.toNat * 2 ^ 38 + b m.popb 37 + b m.pself 36 + m.ridx.toNat * 2 ^ 26 +
    m.sig.toNat * 2 ^ 16 + b m.acc1.kind 9 + b m.acc0.kind 8 + b (m.acc1.lsf.any (·.2)) 7 + b (m.acc0.lsf.any (·.2)) 6 +
    b m.busy 5 + b m.front 4 + bankCode m.acc1.st * 4 + bankCode m.acc0.st)

/-- The conditions of CHKMX in one slab (05_sequencer R121, 08_accumulator R205). -/
def mxParked (m : Mx) : Bool := m.acc0.st = .parked || m.acc1.st = .parked

/-- State of window slot n: slots 0 to 15 read RES = 1 and DIRTY = 0 (09_window R235). -/
def slotOf (sl : Slab) (n : Nat) : WSlot := if n < 16 then { WSlot.fresh with res := true } else tabGetD .fresh sl.slots n

/-- 64 RES bits from slot n (09_window R237, R243). -/
def resBits (sl : Slab) (n : Nat) : Word :=
  BitVec.ofNat 64 ((List.range 64).foldl (fun a i => a + if (slotOf sl (n + i)).res then 2 ^ i else 0) 0)

/-- Doubleword k of an error-log record (09_window R244). -/
def errDword (r : ErrRec) (k : Nat) : Word :=
  match k with
  | 0 => r.cyc
  | 1 => BitVec.ofNat 64 (r.seq.toNat * 2 ^ 48 + r.kind.toNat * 2 ^ 36 + r.op.toNat * 2 ^ 34 + r.retry.toNat * 2 ^ 32 +
      r.lane.toNat * 2 ^ 16 + r.lcnt.toNat * 2 ^ 12 + (if r.swap then 2 ^ 11 else 0) + r.beat.toNat)
  | 2 => BitVec.ofNat 64 (r.vpn * 2 ^ 12 + r.line * 2 ^ 6)
  | _ => BitVec.ofNat 64 r.bit

/-- The error-log records a context sees, newest first (R244). -/
def errVisible (sl : Slab) (ctx now : Nat) : List ErrRec :=
  (sl.errlog.filter fun r => r.ctx = ctx && r.visible ≤ now).reverse

/-- Sticky flags that an operation may set (03_element R68). -/
structure FlagSet where
  cvovf : Bool
  invf  : Bool
  bndf  : Bool
deriving DecidableEq, Repr

def FlagSet.none : FlagSet := ⟨false, false, false⟩

def FlagSet.or (a b : FlagSet) : FlagSet := ⟨a.cvovf || b.cvovf, a.invf || b.invf, a.bndf || b.bndf⟩

/-- Set sticky flags of a gang's tst; a flag already set stays set. -/
def setFlags (s : State) (g : TileName) (f : FlagSet) : State :=
  modGang s g fun gg => { gg with tst := { gg.tst with cvovf := gg.tst.cvovf || f.cvovf, invf := gg.tst.invf || f.invf,
                                                       bndf := gg.tst.bndf || f.bndf } }

/-- The numeric trap's cause under fmt.STRICT: 1 OVF, 2 INV (03_element R68, 20_fault R445). DESIGN CHOICE (log 153): OVF
alone where both hold. -/
def numericTrap (f : Fmt) (fl : FlagSet) : Option Nat :=
  if fl.cvovf && f.strict.getLsbD 0 then some 1
  else if fl.invf && f.strict.getLsbD 1 then some 2
  else none

end Sys2Proof.Machine
end

