-- ==== Sys2Proof/Machine/Float.lean ====
section
/-! DEFINITION. The element formats and their exact arithmetic (03_element R59 to R79): decoding, rounding, conversion, the alignment window, bound checks. -/

namespace Sys2Proof.Machine

/-- An exact element value: (−1)^neg · m · 2^e, an infinity, or a NaN or NaR. -/
inductive Num where
  | nan
  | inf (neg : Bool)
  | fin (neg : Bool) (m : Nat) (e : Int)
deriving DecidableEq, Repr

/-- Format codes (R59). -/
abbrev fM8 : Nat := 0
abbrev fInt8 : Nat := 1
abbrev fBf16 : Nat := 2
abbrev fFp16 : Nat := 3
abbrev fFp32 : Nat := 4
abbrev fInt32 : Nat := 5

/-- Exponent and fraction widths of an IEEE format (R61). -/
def ieeeWidths (f : Nat) : Nat × Nat := if f = 3 then (5, 10) else if f = 2 then (8, 7) else (8, 23)

def isIeee (f : Nat) : Bool := f = 2 || f = 3 || f = 4
def isInt (f : Nat) : Bool := f = 1 || f = 5

/-- Bits of a format (R59). -/
def fmtBits (f : Nat) : Nat := if f ≤ 1 then 8 else if f ≤ 3 then 16 else 32

/-- An IEEE code (R61, R62). -/
def decodeIeee (f code : Nat) : Num :=
  let (eb, fb) := ieeeWidths f
  let neg := code.testBit (eb + fb)
  let x := code / 2 ^ fb % 2 ^ eb
  let fr := code % 2 ^ fb
  let bias : Int := 2 ^ (eb - 1) - 1
  if x = 2 ^ eb - 1 then (if fr = 0 then .inf neg else .nan)
  else if x = 0 then .fin neg fr (1 - bias - fb)
  else .fin neg (2 ^ fb + fr) (x - bias - fb)

/-- Exponent and fraction width of an M8 magnitude m > 0, with its significand (R64): 2^F + f, e − F. -/
def m8Mag (m : Nat) : Nat × Int :=
  let j := Nat.log2 m
  if j = 6 then (16 + m % 16, (m / 16 % 4 : Nat) - 2 - 4)
  else if j = 5 then
    let x := m / 4 % 8
    (4 + m % 4, (if x < 4 then (x : Int) - 6 else x - 2) - 2)
  else if j = 4 then
    let x := m / 2 % 8
    (2 + m % 2, (if x < 4 then (x : Int) - 10 else x + 2) - 1)
  else if j = 3 then
    let x := m % 8
    (1, if x < 4 then (x : Int) - 14 else x + 6)
  else if j = 2 then
    let x := m % 4
    (1, if x < 2 then (x : Int) - 16 else x + 12)
  else if j = 1 then (1, if m % 2 = 0 then -17 else 16)
  else (1, -18)

/-- An M8 code (R64). -/
def decodeM8 (code : Nat) : Num :=
  let m := code % 128
  if m = 0 then (if code.testBit 7 then .nan else .fin false 0 0)
  else let (s, e) := m8Mag m; .fin (code.testBit 7) s e

/-- A two's complement value. -/
def decodeInt (n code : Nat) : Num :=
  let v := code % 2 ^ n
  if v.testBit (n - 1) then .fin true (2 ^ n - v) 0 else .fin false v 0

def decodeFmt (f code : Nat) : Num :=
  if f = 0 then decodeM8 code else if f = 1 then decodeInt 8 code else if f = 5 then decodeInt 32 code
  else decodeIeee f code

/-- A right shift by k of magnitude m, rounded by mode: 0 RNE, 1 RTZ, 2 RDN, 3 RUP (R66). -/
def roundShift (mode : Nat) (neg : Bool) (m k : Nat) : Nat :=
  let q := m / 2 ^ k
  let r := m % 2 ^ k
  let up : Bool :=
    match mode with
    | 0 => 0 < k && (2 ^ k < 2 * r || (2 * r = 2 ^ k && q % 2 = 1))
    | 1 => false
    | 2 => neg && 0 < r
    | _ => !neg && 0 < r
  if up then q + 1 else q

/-- The sign bit of an n-bit code. -/
def signBit (neg : Bool) (n : Nat) : Nat := if neg then 2 ^ (n - 1) else 0

/-- The code that an overflow gives in an IEEE format: an infinity, or the largest finite value (R66). -/
def overflowCode (f mode : Nat) (neg : Bool) : Nat :=
  let (eb, fb) := ieeeWidths f
  let infc := (2 ^ eb - 1) * 2 ^ fb
  let toInf : Bool := match mode with | 0 => true | 1 => false | 2 => neg | _ => !neg
  signBit neg (fmtBits f) + if toInf then infc else infc - 1

/-- Round a finite value to an IEEE format; true when it overflows (R66).  A value overflows when what it rounds to lies
beyond the largest finite one. -/
def roundIeee (f mode : Nat) (neg : Bool) (m : Nat) (e : Int) : Nat × Bool :=
  let (eb, fb) := ieeeWidths f
  let sg := signBit neg (fmtBits f)
  if m = 0 then (sg, false)
  else
    let emin : Int := 2 - 2 ^ (eb - 1)
    let top : Int := (Nat.log2 m : Nat) + e
    let ulp : Int := (if top < emin then emin else top) - fb
    let q := if ulp ≤ e then m * 2 ^ (e - ulp).toNat else roundShift mode neg m (ulp - e).toNat
    let mag := (ulp - (emin - fb)).toNat * 2 ^ fb + q
    if mag < (2 ^ eb - 1) * 2 ^ fb then (sg + mag, false) else (overflowCode f mode neg, true)

/-- The canonical NaN, or NaR (R63, R64). -/
def nanCode (f : Nat) : Nat :=
  if f = 0 then 0x80 else if f = 2 then 0x7FC0 else if f = 3 then 0x7E00 else if f = 4 then 0x7FC00000 else 0

def infCode (f : Nat) (neg : Bool) : Nat :=
  let (eb, fb) := ieeeWidths f
  signBit neg (fmtBits f) + (2 ^ eb - 1) * 2 ^ fb

/-- Magnitude of an M8 code in units of 2^−22. -/
def m8Units (m : Nat) : Nat := if m = 0 then 0 else let (s, e) := m8Mag m; s * 2 ^ (e + 22).toNat

/-- The nearer of two M8 magnitudes to the value x, both scaled by 2^sc: ties to bit 0 clear, else to the smaller (R65). -/
def m8Closer (x sc a b : Nat) : Nat :=
  let ua := m8Units a * 2 ^ sc
  let ub := m8Units b * 2 ^ sc
  let da := absDiff x ua
  let db := absDiff x ub
  if da < db then a
  else if db < da then b
  else if a % 2 = b % 2 then (if ua ≤ ub then a else b)
  else if a % 2 = 0 then a else b

/-- Round a finite nonzero value of magnitude at most 2^16 to M8 (R65). -/
def m8Nearest (m : Nat) (e : Int) : Nat :=
  let x := if -22 ≤ e then m * 2 ^ (e + 22).toNat else m
  let sc := if -22 ≤ e then 0 else (-22 - e).toNat
  (List.range 128).foldl (fun b a => m8Closer x sc b a) 0

/-- m · 2^e exceeds 2^k. -/
def exceedsPow (m : Nat) (e : Int) (k : Nat) : Bool :=
  if 0 ≤ e then 2 ^ k < m * 2 ^ e.toNat else 2 ^ (k + (-e).toNat) < m

def cvFlag : FlagSet := ⟨true, false, false⟩
def invFlag : FlagSet := ⟨false, true, false⟩

/-- Conversion into M8 (R65). -/
def toM8 : Num → Nat × FlagSet
  | .nan => (0x80, .none)
  | .inf neg => (0x03 + signBit neg 8, cvFlag)
  | .fin neg m e =>
    if m = 0 then (0, .none)
    else if exceedsPow m e 16 then (0x03 + signBit neg 8, cvFlag)
    else
      let c := m8Nearest m e
      if c = 0 then (0, .none) else (c + signBit neg 8, .none)

/-- Conversion into an n-bit integer: round by mode, saturate (R67). -/
def toIntN (n mode : Nat) : Num → Nat × FlagSet
  | .nan => (0, invFlag)
  | .inf neg => (if neg then 2 ^ (n - 1) else 2 ^ (n - 1) - 1, cvFlag)
  | .fin neg m e =>
    let q := if 0 ≤ e then m * 2 ^ e.toNat else roundShift mode neg m (-e).toNat
    if neg then
      (if q ≤ 2 ^ (n - 1) then ((2 ^ n - q) % 2 ^ n, .none) else (2 ^ (n - 1), cvFlag))
    else if q < 2 ^ (n - 1) then (q, .none) else (2 ^ (n - 1) - 1, cvFlag)

/-- Conversion into an IEEE format (R67). -/
def toIeee (f mode : Nat) : Num → Nat × FlagSet
  | .nan => (nanCode f, .none)
  | .inf neg => (infCode f neg, .none)
  | .fin neg m e =>
    let (c, ov) := roundIeee f mode neg m e
    (c, if ov then cvFlag else .none)

/-- Conversion of a value into format f by mode (R65, R67). -/
def toFmt (f mode : Nat) (x : Num) : Nat × FlagSet :=
  if f = 0 then toM8 x else if f = 1 then toIntN 8 mode x else if f = 5 then toIntN 32 mode x else toIeee f mode x

/-- Conversion between formats (R67): an INT32 value beyond 65,504, the largest finite FP16 value, overflows into FP16, whatever
it would round to (DEDUCED, log 128). -/
def convertFmt (src dst mode code : Nat) : Nat × FlagSet :=
  match src, dst, decodeFmt src code with
  | 5, 3, .fin neg m e => if 65504 < m then (overflowCode 3 mode neg, cvFlag) else toFmt 3 mode (.fin neg m e)
  | _, _, x => toFmt dst mode x

/-! ### Exact sums and products -/

def Num.isNan : Num → Bool
  | .nan => true
  | _ => false

def Num.isInf : Num → Bool
  | .inf _ => true
  | _ => false

def Num.neg : Num → Bool
  | .nan => false
  | .inf n => n
  | .fin n _ _ => n

def Num.isZero : Num → Bool
  | .fin _ m _ => m = 0
  | _ => false

/-- The exact product scaled by 2^sc; true when it is 0 × ∞ of operands that are no NaN. -/
def mulNum (sc : Int) : Num → Num → Num × Bool
  | .nan, _ => (.nan, false)
  | _, .nan => (.nan, false)
  | .inf a, .inf b => (.inf (xor a b), false)
  | .inf a, .fin b m _ => if m = 0 then (.nan, true) else (.inf (xor a b), false)
  | .fin a m _, .inf b => if m = 0 then (.nan, true) else (.inf (xor a b), false)
  | .fin a m e, .fin b n k => (.fin (xor a b) (m * n) (e + k + sc), false)

/-- A finite value as a multiple of 2^lo, for lo at most its exponent. -/
def scaled (lo : Int) : Num → Int
  | .fin neg m e => let q : Int := m * 2 ^ (e - lo).toNat; if neg then -q else q
  | _ => 0

/-- The least exponent among finite values. -/
def minExp (xs : List Num) : Int :=
  xs.foldl (fun a x => match x with | .fin _ m e => if m = 0 then a else min a e | _ => a) 0

/-- An integer multiple of 2^lo as an exact value; 0 is +0. -/
def ofScaled (lo : Int) (v : Int) : Num := .fin (v < 0) v.natAbs lo

/-- The exact sum of finite values. -/
def exactSum (xs : List Num) : Num :=
  let lo := minExp xs
  ofScaled lo (xs.foldl (fun a x => a + scaled lo x) 0)

/-- The special-value rules of R72 for products with their 0 × ∞ marks and an incoming value: the code and whether it is
an invalid operation; none when every term is finite and some term is nonzero. -/
def specialSum (ps : List (Num × Bool)) (a : Num) : Option (Nat × Bool) :=
  let ts := a :: ps.map (·.1)
  if a.isNan || ps.any (fun p => p.1.isNan && !p.2) then some (0x7FC00000, false)
  else if ps.any (·.2) || (ts.any (fun t => t.isInf && t.neg) && ts.any (fun t => t.isInf && !t.neg)) then
    some (0x7FC00000, true)
  else if ts.any (·.isInf) then some (infCode 4 (ts.any fun t => t.isInf && t.neg), false)
  else if ts.all (·.isZero) then some (if ts.all (·.neg) then 0x80000000 else 0, false)
  else none

/-- The exponent floor(log2 |t|) of a finite nonzero value. -/
def expOf : Num → Option Int
  | .fin _ m e => if m = 0 then none else some ((Nat.log2 m : Nat) + e)
  | _ => none

/-- emax of a group (R72). -/
def emaxOf (ts : List Num) : Int :=
  match ts.filterMap expOf with
  | [] => 0
  | x :: xs => xs.foldl max x

/-- Cut a finite value's magnitude to a multiple of 2^lo: the kept multiple, and whether bits were lost (R72). -/
def cutTo (lo : Int) : Num → Int × Bool
  | .fin neg m e =>
    if lo ≤ e then (let q : Int := m * 2 ^ (e - lo).toNat; (if neg then -q else q, false))
    else
      let k := (lo - e).toNat
      let q : Int := (m / 2 ^ k : Nat)
      (if neg then -q else q, m % 2 ^ k != 0)
  | _ => (0, false)

/-- A group of the alignment window of width w (R72): the new accumulator code, lost, invalid. -/
def windowGroup (w : Nat) (acc : Nat) (ps : List (Num × Bool)) : Nat × Bool × Bool :=
  let a := decodeFmt 4 acc
  match specialSum ps a with
  | some (c, inv) => (c, false, inv)
  | none =>
    let ts := a :: ps.map (·.1)
    let lo := emaxOf ts - w + 1
    let cs := ts.map (cutTo lo)
    let sum := cs.foldl (fun v c => v + c.1) 0
    ((toIeee 4 0 (ofScaled lo sum)).1, cs.any (·.2), false)

/-- The exact sum of R78 with one rounding: the code and whether it is an invalid operation. -/
def exactRne (ts : List Num) : Nat × Bool :=
  match ts with
  | [] => (0, false)
  | t :: rest =>
    match specialSum (rest.map fun x => (x, false)) t with
    | some r => r
    | none => ((toIeee 4 0 (exactSum ts)).1, false)

/-- An FMA of FP32 codes, rounded once to nearest even (R66, R68). -/
def fma32 (a b c : Nat) : Nat × Bool :=
  let p := mulNum 0 (decodeFmt 4 a) (decodeFmt 4 b)
  let x := decodeFmt 4 c
  match specialSum [p] x with
  | some r => r
  | none => ((toIeee 4 0 (exactSum [p.1, x])).1, false)

/-- FP32 sum and product, rounded to nearest even. -/
def add32 (a b : Nat) : Nat × Bool := exactRne [decodeFmt 4 a, decodeFmt 4 b]

def mul32 (a b : Nat) : Nat × Bool :=
  let p := mulNum 0 (decodeFmt 4 a) (decodeFmt 4 b)
  match p with
  | (.nan, inv) => (0x7FC00000, inv)
  | (x, _) => ((toIeee 4 0 x).1, false)

/-- Order of two values that are no NaN; −0 equals +0 (R76). -/
def numLt (a b : Num) : Bool :=
  match a, b with
  | .nan, _ => false
  | _, .nan => false
  | .inf x, .inf y => x && !y
  | .inf x, .fin _ _ _ => x
  | .fin _ _ _, .inf y => !y
  | .fin _ _ _, .fin _ _ _ => scaled (minExp [a, b]) a < scaled (minExp [a, b]) b

def numEq (a b : Num) : Bool := !a.isNan && !b.isNan && !numLt a b && !numLt b a

/-! ### Bound checks (R77) -/

/-- An element against an enabled bound register: the FP32 code of the bound that replaces it, BNDF, the bound trap. -/
def boundCheck (b : Bound) (v : Num) : Option Nat × Bool × Bool :=
  let lo := decodeFmt 4 b.lo.toNat
  let hi := decodeFmt 4 b.hi.toNat
  let below := v.isNan || numLt v lo
  let above := numLt hi v
  if b.act = 0 || !(below || above) then (none, false, false)
  else if b.act = 1 then (none, true, false)
  else if b.act = 2 then (some (if below then b.lo.toNat else b.hi.toNat), true, false)
  else (none, false, true)

/-- LO or HI is NaN, or LO exceeds HI (R76). -/
def badBound (b : Bound) : Bool :=
  let lo := decodeFmt 4 b.lo.toNat
  let hi := decodeFmt 4 b.hi.toNat
  lo.isNan || hi.isNan || numLt hi lo

end Sys2Proof.Machine
end

