-- ==== Sys2Proof/Decode.lean ====
section
/-! DEFINITION. Decoding and encoding: bundle header and slots (02_bundle R27 to R31, R35, R40 to R48, R53, R54) and matrix microwords (08_accumulator R218). -/

namespace Sys2Proof

/-- Why 24 bits are no instruction (02_bundle R53). -/
inductive DecodeError where
  | reservedSource
  | reservedDest
  | constantDest
  | truncated
deriving DecidableEq, Repr

/-- The four port classes (02_bundle R35). -/
inductive PClass where
  | s | p | k | v
deriving DecidableEq, Repr

/-- A unit for the counting checks of 02_bundle R53. -/
inductive PUnit where
  | i0 | i1 | c | l0 | l1 | v | f | x | m | d | k | n | b | q
deriving DecidableEq, Repr

/-- Fields of a slot (02_bundle R31). -/
def slotGuard (w : BitVec 24) : BitVec 5 := w.extractLsb' 19 5
def slotPort (w : BitVec 24) : BitVec 10 := w.extractLsb' 9 10
def slotSource (w : BitVec 24) : BitVec 9 := w.extractLsb' 0 9

/-- Fields of a header (02_bundle R28). -/
def hdrEnd (h : Word) : Bool := h.getLsbD 63
def hdrLvl (h : Word) : Nat := (h.extractLsb' 60 3).toNat
def hdrFlag (h : Word) (slot : Nat) : BitVec 2 := h.extractLsb' (44 + 2 * slot) 2
def hdrSwap (h : Word) (k : Nat) : Bool := h.getLsbD (40 + k)
def hdrImmHi (h : Word) : BitVec 20 := h.extractLsb' 12 20
def hdrImmLo (h : Word) : BitVec 12 := h.extractLsb' 0 12

/-- Header and slots of a bundle (02_bundle R27). -/
def bundleHeader (b : BitVec 256) : Word := b.extractLsb' 0 64
def bundleSlot (b : BitVec 256) (i : Nat) : BitVec 24 := b.extractLsb' (64 + 24 * i) 24

/-- The four long-immediate sources (02_bundle R30). -/
def immLong (h : Word) (port : Nat) : Word :=
  let v : BitVec 32 := ((hdrImmHi h).setWidth 32 <<< 12) + (hdrImmLo h).signExtend 32
  match port with
  | 384 => v.signExtend 64
  | 385 => v.setWidth 64
  | 386 => ((hdrImmHi h).setWidth 32 <<< 12 : BitVec 32).signExtend 64
  | _ => (hdrImmLo h).signExtend 64

/-- Class of a source port (02_bundle R40). -/
def sourceClass (n : Nat) : PClass :=
  if (64 ≤ n && n < 96) || (142 ≤ n && n ≤ 146) || n = 150 || n = 151 || (156 ≤ n && n ≤ 159) then .v
  else if (96 ≤ n && n < 112) || n = 131 || n = 135 || n = 137 || n = 161 then .p
  else if (112 ≤ n && n < 120) || n = 147 then .k
  else .s

/-- Class a destination port accepts; none for the discard port, which takes any (02_bundle R41 to R48). -/
def destClass (n : Nat) : Option PClass :=
  if n = 0 then none
  else if (64 ≤ n && n < 96) || n = 448 || n = 449 || (453 ≤ n && n ≤ 488) || (490 ≤ n && n ≤ 492) || n = 499 ||
      n = 578 || n = 593 || (680 ≤ n && n ≤ 683) then some .v
  else if (96 ≤ n && n < 112) || (276 ≤ n && n ≤ 279) then some .p
  else if (112 ≤ n && n < 120) || n = 450 || (493 ≤ n && n ≤ 496) || n = 498 then some .k
  else some .s

/-- The class check of 02_bundle R35. -/
def classOk (src : PClass) (dst : Option PClass) : Bool :=
  match src, dst with
  | _, none => true
  | .s, some _ => true
  | .v, some .v => true
  | .v, some _ => false
  | _, some .v => false
  | _, some _ => true

/-- An Exit port (02_bundle R43, R51). -/
def isExit (n : Nat) : Bool :=
  (258 ≤ n && n ≤ 262) || n = 266 || n = 267 || (280 ≤ n && n ≤ 282) || n = 284

/-- The unit whose Trigger or Wait port this is (02_bundle R53); c.qpoint is not counted. -/
def triggerUnit (n : Nat) : Option PUnit :=
  if 130 ≤ n && n < 192 then some .i0
  else if 194 ≤ n && n < 256 then some .i1
  else if (263 ≤ n && n ≤ 265) || (269 ≤ n && n ≤ 279) || n = 283 then some .c
  else if (323 ≤ n && n ≤ 346) || (349 ≤ n && n ≤ 368) then some .l0
  else if (387 ≤ n && n ≤ 410) || (413 ≤ n && n ≤ 432) then some .l1
  else if 453 ≤ n && n ≤ 499 then some .v
  else if n = 577 || n = 578 then some .f
  else if 593 ≤ n && n ≤ 595 then some .x
  else if 608 ≤ n && n ≤ 613 then some .m
  else if 642 ≤ n && n ≤ 648 then some .d
  else if n = 674 || n = 675 then some .k
  else if (680 ≤ n && n ≤ 683) || (685 ≤ n && n ≤ 687) then some .n
  else if 705 ≤ n && n ≤ 710 then some .b
  else if 722 ≤ n && n ≤ 726 then some .q
  else none

/-- The operation of I0 or I1 whose port stands at offset k of its block (02_bundle R42). -/
def intOp (k : Nat) (g : BitVec 5) (u : BitVec 1) (s : BitVec 9) : Option Instr :=
  match k with
  | 2 => some (.add g u s)
  | 3 => some (.sub g u s)
  | 4 => some (.addsh g u s)
  | 5 => some (.and g u s)
  | 6 => some (.or g u s)
  | 7 => some (.xor g u s)
  | 8 => some (.andn g u s)
  | 9 => some (.shl g u s)
  | 10 => some (.shr g u s)
  | 11 => some (.sar g u s)
  | 12 => some (.rol g u s)
  | 13 => some (.mul g u s)
  | 14 => some (.mulh g u s)
  | 15 => some (.mulhu g u s)
  | 16 => some (.divs g u s)
  | 17 => some (.divu g u s)
  | 18 => some (.remu g u s)
  | 19 => some (.min g u s)
  | 20 => some (.max g u s)
  | 21 => some (.minu g u s)
  | 22 => some (.maxu g u s)
  | 23 => some (.clz g u s)
  | 24 => some (.ctz g u s)
  | 25 => some (.popc g u s)
  | 26 => some (.extr g u s)
  | 27 => some (.ins g u s)
  | 28 => some (.sext g u s)
  | 29 => some (.zext g u s)
  | 30 => some (.sel g u s)
  | 31 => some (.cmpeq g u s)
  | 32 => some (.cmpne g u s)
  | 33 => some (.cmplt g u s)
  | 34 => some (.cmpltu g u s)
  | 35 => some (.cmple g u s)
  | 36 => some (.cmpleu g u s)
  | 37 => some (.cmpbit g u s)
  | 38 => some (.cvta g u s)
  | 39 => some (.issp g u s)
  | 40 => some (.addW g u s)
  | 41 => some (.subW g u s)
  | 42 => some (.shlW g u s)
  | 43 => some (.shrW g u s)
  | 44 => some (.sarW g u s)
  | 45 => some (.rolW g u s)
  | 46 => some (.mulW g u s)
  | 47 => some (.mulhW g u s)
  | 48 => some (.mulhuW g u s)
  | 49 => some (.divsW g u s)
  | 50 => some (.divuW g u s)
  | 51 => some (.remuW g u s)
  | 52 => some (.minW g u s)
  | 53 => some (.maxW g u s)
  | 54 => some (.minuW g u s)
  | 55 => some (.maxuW g u s)
  | 56 => some (.clzW g u s)
  | 57 => some (.ctzW g u s)
  | 58 => some (.cmpeqW g u s)
  | 59 => some (.cmpneW g u s)
  | 60 => some (.cmpltW g u s)
  | 61 => some (.cmpltuW g u s)
  | 62 => some (.cmpleW g u s)
  | 63 => some (.cmpleuW g u s)
  | _ => none

/-- The operation of L0 or L1 whose port stands at offset k of its block (02_bundle R44). -/
def lsuOp (k : Nat) (g : BitVec 5) (u : BitVec 2) (s : BitVec 9) : Option Instr :=
  match k with
  | 3 => some (.ldB g u s)
  | 4 => some (.ldH g u s)
  | 5 => some (.ldW g u s)
  | 6 => some (.ldD g u s)
  | 7 => some (.ldsB g u s)
  | 8 => some (.ldsH g u s)
  | 9 => some (.ldsW g u s)
  | 10 => some (.ldsD g u s)
  | 11 => some (.stB g u s)
  | 12 => some (.stH g u s)
  | 13 => some (.stW g u s)
  | 14 => some (.stD g u s)
  | 15 => some (.ldgB g u s)
  | 16 => some (.ldgH g u s)
  | 17 => some (.ldgW g u s)
  | 18 => some (.ldgD g u s)
  | 19 => some (.stgB g u s)
  | 20 => some (.stgH g u s)
  | 21 => some (.stgW g u s)
  | 22 => some (.stgD g u s)
  | 23 => some (.ldAcq g u s)
  | 24 => some (.ldSc g u s)
  | 25 => some (.stRel g u s)
  | 26 => some (.stSc g u s)
  | 29 => some (.atomAdd g u s)
  | 30 => some (.atomAnd g u s)
  | 31 => some (.atomOr g u s)
  | 32 => some (.atomXor g u s)
  | 33 => some (.atomMin g u s)
  | 34 => some (.atomMax g u s)
  | 35 => some (.atomXchg g u s)
  | 36 => some (.atomCas g u s)
  | 37 => some (.fenceAcq g u s)
  | 38 => some (.fenceRel g u s)
  | 39 => some (.fenceAr g u s)
  | 40 => some (.fenceSc g u s)
  | 41 => some (.taglook g u s)
  | 42 => some (.tagset g u s)
  | 43 => some (.tagclr g u s)
  | 44 => some (.rgnmap g u s)
  | 45 => some (.rgnunmap g u s)
  | 46 => some (.rgnqry g u s)
  | 47 => some (.bankrel g u s)
  | 48 => some (.bankwait g u s)
  | _ => none

/-- The operation whose port stands at offset k of the block of C (02_bundle R43). -/
def ctlOp (k : Nat) (g : BitVec 5) (s : BitVec 9) : Option Instr :=
  match k with
  | 29 => some (.tctlWrite g s)
  | 30 => some (.tstclr g s)
  | 2 => some (.jmp g s)
  | 3 => some (.jmpr g s)
  | 4 => some (.call g s)
  | 5 => some (.callr g s)
  | 6 => some (.ret g s)
  | 7 => some (.loop g s)
  | 8 => some (.loopm g s)
  | 9 => some (.brkl g s)
  | 10 => some (.chkdf g s)
  | 11 => some (.chkmx g s)
  | 12 => some (.qpoint g s)
  | 13 => some (.waitev g s)
  | 14 => some (.cycrd g s)
  | 15 => some (.cycwait g s)
  | 16 => some (.cycalign g s)
  | 17 => some (.mark g s)
  | 18 => some (.fmtset g s)
  | 19 => some (.bndset g s)
  | 20 => some (.pand g s)
  | 21 => some (.por g s)
  | 22 => some (.pxor g s)
  | 23 => some (.pnot g s)
  | 24 => some (.trap g s)
  | 25 => some (.sys g s)
  | 26 => some (.evret g s)
  | 27 => some (.evmask g s)
  | 28 => some (.halt g s)
  | _ => none

/-- The operation whose port stands at offset k of the block of V (02_bundle R45). -/
def vecOp (k : Nat) (g : BitVec 5) (s : BitVec 9) : Option Instr :=
  match k with
  | 5 => some (.vadd g s)
  | 6 => some (.vsub g s)
  | 7 => some (.vmul g s)
  | 8 => some (.vfma g s)
  | 9 => some (.vmin g s)
  | 10 => some (.vmax g s)
  | 11 => some (.vabs g s)
  | 12 => some (.vneg g s)
  | 13 => some (.viadd g s)
  | 14 => some (.visub g s)
  | 15 => some (.vimul g s)
  | 16 => some (.vand g s)
  | 17 => some (.vor g s)
  | 18 => some (.vxor g s)
  | 19 => some (.vshl g s)
  | 20 => some (.vshr g s)
  | 21 => some (.vsar g s)
  | 22 => some (.vcmpEq g s)
  | 23 => some (.vcmpNe g s)
  | 24 => some (.vcmpLt g s)
  | 25 => some (.vcmpLe g s)
  | 26 => some (.vcmpIeq g s)
  | 27 => some (.vcmpIne g s)
  | 28 => some (.vcmpIlt g s)
  | 29 => some (.vcmpIle g s)
  | 30 => some (.vcmpIltu g s)
  | 31 => some (.vcmpIleu g s)
  | 32 => some (.vsel g s)
  | 33 => some (.vcvt g s)
  | 34 => some (.vredAdd g s)
  | 35 => some (.vredMin g s)
  | 36 => some (.vredMax g s)
  | 37 => some (.vredIadd g s)
  | 38 => some (.vshuf g s)
  | 39 => some (.vbcast g s)
  | 40 => some (.vgshuf g s)
  | 41 => some (.vld g s)
  | 42 => some (.vst g s)
  | 43 => some (.vgath g s)
  | 44 => some (.vscat g s)
  | 45 => some (.kand g s)
  | 46 => some (.kor g s)
  | 47 => some (.kxor g s)
  | 48 => some (.knot g s)
  | 49 => some (.ktail g s)
  | 50 => some (.kpopc g s)
  | 51 => some (.vclamp g s)
  | _ => none

/-- The operation whose port stands at offset k of the block of F, X and M (02_bundle R46). -/
def sideOp (k : Nat) (g : BitVec 5) (s : BitVec 9) : Option Instr :=
  match k with
  | 1 => some (.fload g s)
  | 2 => some (.feval g s)
  | 17 => some (.xpush g s)
  | 18 => some (.xpop g s)
  | 19 => some (.xclr g s)
  | 32 => some (.mxcall g s)
  | 33 => some (.mxload g s)
  | 34 => some (.mxresume g s)
  | 35 => some (.mxstat g s)
  | 36 => some (.mxzero g s)
  | 37 => some (.mxswap g s)
  | _ => none

/-- The operation whose port stands at offset k of the block of D, K, N, B and Q (02_bundle R47). -/
def engOp (k : Nat) (g : BitVec 5) (s : BitVec 9) : Option Instr :=
  match k with
  | 2 => some (.wfill g s)
  | 3 => some (.wflush g s)
  | 4 => some (.winv g s)
  | 5 => some (.watom g s)
  | 6 => some (.wstat g s)
  | 7 => some (.wres g s)
  | 8 => some (.pgreq g s)
  | 34 => some (.kcopy g s)
  | 35 => some (.kstat g s)
  | 45 => some (.routeset g s)
  | 46 => some (.nameload g s)
  | 47 => some (.nameq g s)
  | 65 => some (.barinit g s)
  | 66 => some (.bararr g s)
  | 67 => some (.barwait g s)
  | 68 => some (.bartest g s)
  | 69 => some (.barxin g s)
  | 70 => some (.barxout g s)
  | 82 => some (.tokput g s)
  | 83 => some (.tokget g s)
  | 84 => some (.ringput g s)
  | 85 => some (.coll g s)
  | 86 => some (.collwait g s)
  | 40 => some (.send g 0 s)
  | 41 => some (.send g 1 s)
  | 42 => some (.send g 2 s)
  | 43 => some (.send g 3 s)
  | _ => none

/-- Destination port of a slot instruction (02_bundle R41 to R48); none for a row that is no slot. -/
def slotDest : Instr → Option (BitVec 10)
  | .add _ u _ => some (130 + 64 * u.setWidth 10)
  | .sub _ u _ => some (131 + 64 * u.setWidth 10)
  | .addsh _ u _ => some (132 + 64 * u.setWidth 10)
  | .and _ u _ => some (133 + 64 * u.setWidth 10)
  | .or _ u _ => some (134 + 64 * u.setWidth 10)
  | .xor _ u _ => some (135 + 64 * u.setWidth 10)
  | .andn _ u _ => some (136 + 64 * u.setWidth 10)
  | .shl _ u _ => some (137 + 64 * u.setWidth 10)
  | .shr _ u _ => some (138 + 64 * u.setWidth 10)
  | .sar _ u _ => some (139 + 64 * u.setWidth 10)
  | .rol _ u _ => some (140 + 64 * u.setWidth 10)
  | .mul _ u _ => some (141 + 64 * u.setWidth 10)
  | .mulh _ u _ => some (142 + 64 * u.setWidth 10)
  | .mulhu _ u _ => some (143 + 64 * u.setWidth 10)
  | .divs _ u _ => some (144 + 64 * u.setWidth 10)
  | .divu _ u _ => some (145 + 64 * u.setWidth 10)
  | .remu _ u _ => some (146 + 64 * u.setWidth 10)
  | .min _ u _ => some (147 + 64 * u.setWidth 10)
  | .max _ u _ => some (148 + 64 * u.setWidth 10)
  | .minu _ u _ => some (149 + 64 * u.setWidth 10)
  | .maxu _ u _ => some (150 + 64 * u.setWidth 10)
  | .clz _ u _ => some (151 + 64 * u.setWidth 10)
  | .ctz _ u _ => some (152 + 64 * u.setWidth 10)
  | .popc _ u _ => some (153 + 64 * u.setWidth 10)
  | .extr _ u _ => some (154 + 64 * u.setWidth 10)
  | .ins _ u _ => some (155 + 64 * u.setWidth 10)
  | .sext _ u _ => some (156 + 64 * u.setWidth 10)
  | .zext _ u _ => some (157 + 64 * u.setWidth 10)
  | .sel _ u _ => some (158 + 64 * u.setWidth 10)
  | .cmpeq _ u _ => some (159 + 64 * u.setWidth 10)
  | .cmpne _ u _ => some (160 + 64 * u.setWidth 10)
  | .cmplt _ u _ => some (161 + 64 * u.setWidth 10)
  | .cmpltu _ u _ => some (162 + 64 * u.setWidth 10)
  | .cmple _ u _ => some (163 + 64 * u.setWidth 10)
  | .cmpleu _ u _ => some (164 + 64 * u.setWidth 10)
  | .cmpbit _ u _ => some (165 + 64 * u.setWidth 10)
  | .cvta _ u _ => some (166 + 64 * u.setWidth 10)
  | .issp _ u _ => some (167 + 64 * u.setWidth 10)
  | .addW _ u _ => some (168 + 64 * u.setWidth 10)
  | .subW _ u _ => some (169 + 64 * u.setWidth 10)
  | .shlW _ u _ => some (170 + 64 * u.setWidth 10)
  | .shrW _ u _ => some (171 + 64 * u.setWidth 10)
  | .sarW _ u _ => some (172 + 64 * u.setWidth 10)
  | .rolW _ u _ => some (173 + 64 * u.setWidth 10)
  | .mulW _ u _ => some (174 + 64 * u.setWidth 10)
  | .mulhW _ u _ => some (175 + 64 * u.setWidth 10)
  | .mulhuW _ u _ => some (176 + 64 * u.setWidth 10)
  | .divsW _ u _ => some (177 + 64 * u.setWidth 10)
  | .divuW _ u _ => some (178 + 64 * u.setWidth 10)
  | .remuW _ u _ => some (179 + 64 * u.setWidth 10)
  | .minW _ u _ => some (180 + 64 * u.setWidth 10)
  | .maxW _ u _ => some (181 + 64 * u.setWidth 10)
  | .minuW _ u _ => some (182 + 64 * u.setWidth 10)
  | .maxuW _ u _ => some (183 + 64 * u.setWidth 10)
  | .clzW _ u _ => some (184 + 64 * u.setWidth 10)
  | .ctzW _ u _ => some (185 + 64 * u.setWidth 10)
  | .cmpeqW _ u _ => some (186 + 64 * u.setWidth 10)
  | .cmpneW _ u _ => some (187 + 64 * u.setWidth 10)
  | .cmpltW _ u _ => some (188 + 64 * u.setWidth 10)
  | .cmpltuW _ u _ => some (189 + 64 * u.setWidth 10)
  | .cmpleW _ u _ => some (190 + 64 * u.setWidth 10)
  | .cmpleuW _ u _ => some (191 + 64 * u.setWidth 10)
  | .ldB _ u _ => some (259 + 64 * u.setWidth 10)
  | .ldH _ u _ => some (260 + 64 * u.setWidth 10)
  | .ldW _ u _ => some (261 + 64 * u.setWidth 10)
  | .ldD _ u _ => some (262 + 64 * u.setWidth 10)
  | .ldsB _ u _ => some (263 + 64 * u.setWidth 10)
  | .ldsH _ u _ => some (264 + 64 * u.setWidth 10)
  | .ldsW _ u _ => some (265 + 64 * u.setWidth 10)
  | .ldsD _ u _ => some (266 + 64 * u.setWidth 10)
  | .stB _ u _ => some (267 + 64 * u.setWidth 10)
  | .stH _ u _ => some (268 + 64 * u.setWidth 10)
  | .stW _ u _ => some (269 + 64 * u.setWidth 10)
  | .stD _ u _ => some (270 + 64 * u.setWidth 10)
  | .ldgB _ u _ => some (271 + 64 * u.setWidth 10)
  | .ldgH _ u _ => some (272 + 64 * u.setWidth 10)
  | .ldgW _ u _ => some (273 + 64 * u.setWidth 10)
  | .ldgD _ u _ => some (274 + 64 * u.setWidth 10)
  | .stgB _ u _ => some (275 + 64 * u.setWidth 10)
  | .stgH _ u _ => some (276 + 64 * u.setWidth 10)
  | .stgW _ u _ => some (277 + 64 * u.setWidth 10)
  | .stgD _ u _ => some (278 + 64 * u.setWidth 10)
  | .ldAcq _ u _ => some (279 + 64 * u.setWidth 10)
  | .ldSc _ u _ => some (280 + 64 * u.setWidth 10)
  | .stRel _ u _ => some (281 + 64 * u.setWidth 10)
  | .stSc _ u _ => some (282 + 64 * u.setWidth 10)
  | .atomAdd _ u _ => some (285 + 64 * u.setWidth 10)
  | .atomAnd _ u _ => some (286 + 64 * u.setWidth 10)
  | .atomOr _ u _ => some (287 + 64 * u.setWidth 10)
  | .atomXor _ u _ => some (288 + 64 * u.setWidth 10)
  | .atomMin _ u _ => some (289 + 64 * u.setWidth 10)
  | .atomMax _ u _ => some (290 + 64 * u.setWidth 10)
  | .atomXchg _ u _ => some (291 + 64 * u.setWidth 10)
  | .atomCas _ u _ => some (292 + 64 * u.setWidth 10)
  | .fenceAcq _ u _ => some (293 + 64 * u.setWidth 10)
  | .fenceRel _ u _ => some (294 + 64 * u.setWidth 10)
  | .fenceAr _ u _ => some (295 + 64 * u.setWidth 10)
  | .fenceSc _ u _ => some (296 + 64 * u.setWidth 10)
  | .taglook _ u _ => some (297 + 64 * u.setWidth 10)
  | .tagset _ u _ => some (298 + 64 * u.setWidth 10)
  | .tagclr _ u _ => some (299 + 64 * u.setWidth 10)
  | .rgnmap _ u _ => some (300 + 64 * u.setWidth 10)
  | .rgnunmap _ u _ => some (301 + 64 * u.setWidth 10)
  | .rgnqry _ u _ => some (302 + 64 * u.setWidth 10)
  | .bankrel _ u _ => some (303 + 64 * u.setWidth 10)
  | .bankwait _ u _ => some (304 + 64 * u.setWidth 10)
  | .jmp _ _ => some 258
  | .jmpr _ _ => some 259
  | .call _ _ => some 260
  | .callr _ _ => some 261
  | .ret _ _ => some 262
  | .loop _ _ => some 263
  | .loopm _ _ => some 264
  | .brkl _ _ => some 265
  | .chkdf _ _ => some 266
  | .chkmx _ _ => some 267
  | .qpoint _ _ => some 268
  | .waitev _ _ => some 269
  | .cycrd _ _ => some 270
  | .cycwait _ _ => some 271
  | .cycalign _ _ => some 272
  | .mark _ _ => some 273
  | .fmtset _ _ => some 274
  | .bndset _ _ => some 275
  | .pand _ _ => some 276
  | .por _ _ => some 277
  | .pxor _ _ => some 278
  | .pnot _ _ => some 279
  | .trap _ _ => some 280
  | .sys _ _ => some 281
  | .evret _ _ => some 282
  | .evmask _ _ => some 283
  | .halt _ _ => some 284
  | .vadd _ _ => some 453
  | .vsub _ _ => some 454
  | .vmul _ _ => some 455
  | .vfma _ _ => some 456
  | .vmin _ _ => some 457
  | .vmax _ _ => some 458
  | .vabs _ _ => some 459
  | .vneg _ _ => some 460
  | .viadd _ _ => some 461
  | .visub _ _ => some 462
  | .vimul _ _ => some 463
  | .vand _ _ => some 464
  | .vor _ _ => some 465
  | .vxor _ _ => some 466
  | .vshl _ _ => some 467
  | .vshr _ _ => some 468
  | .vsar _ _ => some 469
  | .vcmpEq _ _ => some 470
  | .vcmpNe _ _ => some 471
  | .vcmpLt _ _ => some 472
  | .vcmpLe _ _ => some 473
  | .vcmpIeq _ _ => some 474
  | .vcmpIne _ _ => some 475
  | .vcmpIlt _ _ => some 476
  | .vcmpIle _ _ => some 477
  | .vcmpIltu _ _ => some 478
  | .vcmpIleu _ _ => some 479
  | .vsel _ _ => some 480
  | .vcvt _ _ => some 481
  | .vredAdd _ _ => some 482
  | .vredMin _ _ => some 483
  | .vredMax _ _ => some 484
  | .vredIadd _ _ => some 485
  | .vshuf _ _ => some 486
  | .vbcast _ _ => some 487
  | .vgshuf _ _ => some 488
  | .vld _ _ => some 489
  | .vst _ _ => some 490
  | .vgath _ _ => some 491
  | .vscat _ _ => some 492
  | .kand _ _ => some 493
  | .kor _ _ => some 494
  | .kxor _ _ => some 495
  | .knot _ _ => some 496
  | .ktail _ _ => some 497
  | .kpopc _ _ => some 498
  | .vclamp _ _ => some 499
  | .fload _ _ => some 577
  | .feval _ _ => some 578
  | .xpush _ _ => some 593
  | .xpop _ _ => some 594
  | .xclr _ _ => some 595
  | .mxcall _ _ => some 608
  | .mxload _ _ => some 609
  | .mxresume _ _ => some 610
  | .mxstat _ _ => some 611
  | .mxzero _ _ => some 612
  | .mxswap _ _ => some 613
  | .wfill _ _ => some 642
  | .wflush _ _ => some 643
  | .winv _ _ => some 644
  | .watom _ _ => some 645
  | .wstat _ _ => some 646
  | .wres _ _ => some 647
  | .pgreq _ _ => some 648
  | .kcopy _ _ => some 674
  | .kstat _ _ => some 675
  | .routeset _ _ => some 685
  | .nameload _ _ => some 686
  | .nameq _ _ => some 687
  | .barinit _ _ => some 705
  | .bararr _ _ => some 706
  | .barwait _ _ => some 707
  | .bartest _ _ => some 708
  | .barxin _ _ => some 709
  | .barxout _ _ => some 710
  | .tokput _ _ => some 722
  | .tokget _ _ => some 723
  | .ringput _ _ => some 724
  | .coll _ _ => some 725
  | .collwait _ _ => some 726
  | .send _ d _ => some (680 + d.setWidth 10)
  | .registerWrite _ d _ => some d
  | .tctlWrite _ _ => some 285
  | .tstclr _ _ => some 286
  | _ => none

/-- Guard and source of a slot instruction (02_bundle R31). -/
def slotGuardSrc : Instr → Option (BitVec 5 × BitVec 9)
  | .add g _ s => some (g, s)
  | .sub g _ s => some (g, s)
  | .addsh g _ s => some (g, s)
  | .and g _ s => some (g, s)
  | .or g _ s => some (g, s)
  | .xor g _ s => some (g, s)
  | .andn g _ s => some (g, s)
  | .shl g _ s => some (g, s)
  | .shr g _ s => some (g, s)
  | .sar g _ s => some (g, s)
  | .rol g _ s => some (g, s)
  | .mul g _ s => some (g, s)
  | .mulh g _ s => some (g, s)
  | .mulhu g _ s => some (g, s)
  | .divs g _ s => some (g, s)
  | .divu g _ s => some (g, s)
  | .remu g _ s => some (g, s)
  | .min g _ s => some (g, s)
  | .max g _ s => some (g, s)
  | .minu g _ s => some (g, s)
  | .maxu g _ s => some (g, s)
  | .clz g _ s => some (g, s)
  | .ctz g _ s => some (g, s)
  | .popc g _ s => some (g, s)
  | .extr g _ s => some (g, s)
  | .ins g _ s => some (g, s)
  | .sext g _ s => some (g, s)
  | .zext g _ s => some (g, s)
  | .sel g _ s => some (g, s)
  | .cmpeq g _ s => some (g, s)
  | .cmpne g _ s => some (g, s)
  | .cmplt g _ s => some (g, s)
  | .cmpltu g _ s => some (g, s)
  | .cmple g _ s => some (g, s)
  | .cmpleu g _ s => some (g, s)
  | .cmpbit g _ s => some (g, s)
  | .cvta g _ s => some (g, s)
  | .issp g _ s => some (g, s)
  | .addW g _ s => some (g, s)
  | .subW g _ s => some (g, s)
  | .shlW g _ s => some (g, s)
  | .shrW g _ s => some (g, s)
  | .sarW g _ s => some (g, s)
  | .rolW g _ s => some (g, s)
  | .mulW g _ s => some (g, s)
  | .mulhW g _ s => some (g, s)
  | .mulhuW g _ s => some (g, s)
  | .divsW g _ s => some (g, s)
  | .divuW g _ s => some (g, s)
  | .remuW g _ s => some (g, s)
  | .minW g _ s => some (g, s)
  | .maxW g _ s => some (g, s)
  | .minuW g _ s => some (g, s)
  | .maxuW g _ s => some (g, s)
  | .clzW g _ s => some (g, s)
  | .ctzW g _ s => some (g, s)
  | .cmpeqW g _ s => some (g, s)
  | .cmpneW g _ s => some (g, s)
  | .cmpltW g _ s => some (g, s)
  | .cmpltuW g _ s => some (g, s)
  | .cmpleW g _ s => some (g, s)
  | .cmpleuW g _ s => some (g, s)
  | .ldB g _ s => some (g, s)
  | .ldH g _ s => some (g, s)
  | .ldW g _ s => some (g, s)
  | .ldD g _ s => some (g, s)
  | .ldsB g _ s => some (g, s)
  | .ldsH g _ s => some (g, s)
  | .ldsW g _ s => some (g, s)
  | .ldsD g _ s => some (g, s)
  | .stB g _ s => some (g, s)
  | .stH g _ s => some (g, s)
  | .stW g _ s => some (g, s)
  | .stD g _ s => some (g, s)
  | .ldgB g _ s => some (g, s)
  | .ldgH g _ s => some (g, s)
  | .ldgW g _ s => some (g, s)
  | .ldgD g _ s => some (g, s)
  | .stgB g _ s => some (g, s)
  | .stgH g _ s => some (g, s)
  | .stgW g _ s => some (g, s)
  | .stgD g _ s => some (g, s)
  | .ldAcq g _ s => some (g, s)
  | .ldSc g _ s => some (g, s)
  | .stRel g _ s => some (g, s)
  | .stSc g _ s => some (g, s)
  | .atomAdd g _ s => some (g, s)
  | .atomAnd g _ s => some (g, s)
  | .atomOr g _ s => some (g, s)
  | .atomXor g _ s => some (g, s)
  | .atomMin g _ s => some (g, s)
  | .atomMax g _ s => some (g, s)
  | .atomXchg g _ s => some (g, s)
  | .atomCas g _ s => some (g, s)
  | .fenceAcq g _ s => some (g, s)
  | .fenceRel g _ s => some (g, s)
  | .fenceAr g _ s => some (g, s)
  | .fenceSc g _ s => some (g, s)
  | .taglook g _ s => some (g, s)
  | .tagset g _ s => some (g, s)
  | .tagclr g _ s => some (g, s)
  | .rgnmap g _ s => some (g, s)
  | .rgnunmap g _ s => some (g, s)
  | .rgnqry g _ s => some (g, s)
  | .bankrel g _ s => some (g, s)
  | .bankwait g _ s => some (g, s)
  | .jmp g s => some (g, s)
  | .jmpr g s => some (g, s)
  | .call g s => some (g, s)
  | .callr g s => some (g, s)
  | .ret g s => some (g, s)
  | .loop g s => some (g, s)
  | .loopm g s => some (g, s)
  | .brkl g s => some (g, s)
  | .chkdf g s => some (g, s)
  | .chkmx g s => some (g, s)
  | .qpoint g s => some (g, s)
  | .waitev g s => some (g, s)
  | .cycrd g s => some (g, s)
  | .cycwait g s => some (g, s)
  | .cycalign g s => some (g, s)
  | .mark g s => some (g, s)
  | .fmtset g s => some (g, s)
  | .bndset g s => some (g, s)
  | .pand g s => some (g, s)
  | .por g s => some (g, s)
  | .pxor g s => some (g, s)
  | .pnot g s => some (g, s)
  | .trap g s => some (g, s)
  | .sys g s => some (g, s)
  | .evret g s => some (g, s)
  | .evmask g s => some (g, s)
  | .halt g s => some (g, s)
  | .vadd g s => some (g, s)
  | .vsub g s => some (g, s)
  | .vmul g s => some (g, s)
  | .vfma g s => some (g, s)
  | .vmin g s => some (g, s)
  | .vmax g s => some (g, s)
  | .vabs g s => some (g, s)
  | .vneg g s => some (g, s)
  | .viadd g s => some (g, s)
  | .visub g s => some (g, s)
  | .vimul g s => some (g, s)
  | .vand g s => some (g, s)
  | .vor g s => some (g, s)
  | .vxor g s => some (g, s)
  | .vshl g s => some (g, s)
  | .vshr g s => some (g, s)
  | .vsar g s => some (g, s)
  | .vcmpEq g s => some (g, s)
  | .vcmpNe g s => some (g, s)
  | .vcmpLt g s => some (g, s)
  | .vcmpLe g s => some (g, s)
  | .vcmpIeq g s => some (g, s)
  | .vcmpIne g s => some (g, s)
  | .vcmpIlt g s => some (g, s)
  | .vcmpIle g s => some (g, s)
  | .vcmpIltu g s => some (g, s)
  | .vcmpIleu g s => some (g, s)
  | .vsel g s => some (g, s)
  | .vcvt g s => some (g, s)
  | .vredAdd g s => some (g, s)
  | .vredMin g s => some (g, s)
  | .vredMax g s => some (g, s)
  | .vredIadd g s => some (g, s)
  | .vshuf g s => some (g, s)
  | .vbcast g s => some (g, s)
  | .vgshuf g s => some (g, s)
  | .vld g s => some (g, s)
  | .vst g s => some (g, s)
  | .vgath g s => some (g, s)
  | .vscat g s => some (g, s)
  | .kand g s => some (g, s)
  | .kor g s => some (g, s)
  | .kxor g s => some (g, s)
  | .knot g s => some (g, s)
  | .ktail g s => some (g, s)
  | .kpopc g s => some (g, s)
  | .vclamp g s => some (g, s)
  | .fload g s => some (g, s)
  | .feval g s => some (g, s)
  | .xpush g s => some (g, s)
  | .xpop g s => some (g, s)
  | .xclr g s => some (g, s)
  | .mxcall g s => some (g, s)
  | .mxload g s => some (g, s)
  | .mxresume g s => some (g, s)
  | .mxstat g s => some (g, s)
  | .mxzero g s => some (g, s)
  | .mxswap g s => some (g, s)
  | .wfill g s => some (g, s)
  | .wflush g s => some (g, s)
  | .winv g s => some (g, s)
  | .watom g s => some (g, s)
  | .wstat g s => some (g, s)
  | .wres g s => some (g, s)
  | .pgreq g s => some (g, s)
  | .kcopy g s => some (g, s)
  | .kstat g s => some (g, s)
  | .routeset g s => some (g, s)
  | .nameload g s => some (g, s)
  | .nameq g s => some (g, s)
  | .barinit g s => some (g, s)
  | .bararr g s => some (g, s)
  | .barwait g s => some (g, s)
  | .bartest g s => some (g, s)
  | .barxin g s => some (g, s)
  | .barxout g s => some (g, s)
  | .tokput g s => some (g, s)
  | .tokget g s => some (g, s)
  | .ringput g s => some (g, s)
  | .coll g s => some (g, s)
  | .collwait g s => some (g, s)
  | .send g _ s => some (g, s)
  | .registerWrite g _ s => some (g, s)
  | .tctlWrite g s => some (g, s)
  | .tstclr g s => some (g, s)
  | _ => none

/-- One slot, read by its destination port; a reserved source, a reserved destination, p0 and k0 are rejected
by name (02_bundle R40, R41, R53). -/
def decodeSlot (w : BitVec 24) : Except DecodeError Instr :=
  let g := slotGuard w
  let d := slotPort w
  let s := slotSource w
  let n := d.toNat
  if n = 96 || n = 112 then .error .constantDest
  else if !sourceOk s then .error .reservedSource
  else if registerDest d then .ok (.registerWrite g d s)
  else
    let r : Option Instr :=
      if n < 128 then none
      else if n < 192 then intOp (n - 128) g 0 s
      else if n < 256 then intOp (n - 192) g 1 s
      else if n < 320 then ctlOp (n - 256) g s
      else if n < 384 then lsuOp (n - 320) g 1 s
      else if n < 448 then lsuOp (n - 384) g 2 s
      else if n < 576 then vecOp (n - 448) g s
      else if n < 640 then sideOp (n - 576) g s
      else if n < 736 then engOp (n - 640) g s
      else none
    match r with
    | some i => .ok i
    | none => .error .reservedDest

/-- The 24 bits of a slot instruction (02_bundle R31); none for a row that is no slot. -/
def encodeSlot (i : Instr) : Option (BitVec 24) :=
  match slotDest i, slotGuardSrc i with
  | some d, some (g, s) => some ((g ++ d ++ s : BitVec 24))
  | _, _ => none

/-- A slot as three bytes, little-endian, with the bytes that follow it (02_bundle R27). -/
def decodeBytes : List Byte → Except DecodeError (Instr × List Byte)
  | b0 :: b1 :: b2 :: rest => (decodeSlot (b2 ++ b1 ++ b0)).map (·, rest)
  | _ => .error .truncated

/-- The bytes of a slot instruction (02_bundle R27). -/
def encodeBytes (i : Instr) : Option (List Byte) :=
  (encodeSlot i).map fun w => [w.extractLsb' 0 8, w.extractLsb' 8 8, w.extractLsb' 16 8]

/-- A slot with the inverted p0 as its guard never fires (02_bundle R31). -/
def neverFires (w : BitVec 24) : Bool := slotGuard w = 16

/-- The reserved-encoding check of one slot (02_bundle R53). -/
def slotEncodingBad (w : BitVec 24) : Bool :=
  match decodeSlot w with
  | .ok _ => false
  | .error _ => true

/-- The class check of one slot (02_bundle R35, R53). -/
def slotClassBad (w : BitVec 24) : Bool :=
  !neverFires w && !classOk (sourceClass (slotSource w).toNat) (destClass (slotPort w).toNat)

/-- Writes s1 to s63 or e0 to e7 (02_bundle R53). -/
def writesScalar (w : BitVec 24) : Bool :=
  let n := (slotPort w).toNat
  !neverFires w && ((1 ≤ n && n < 64) || (288 ≤ n && n < 296))

/-- Reads s0 to s63 (02_bundle R53).  The canonical empty slot reads s0 into the discard port and is left out:
eight slots may read s0 to s63, so a bundle of eight slots never has more than eight. -/
def readsScalar (w : BitVec 24) : Bool :=
  !neverFires w && (slotSource w).toNat < 64

/-- Slot i shares its destination, or its unit's Trigger or Wait ports, with another slot (02_bundle R53, R54). -/
def slotClash (ws : List (BitVec 24)) (i : Nat) (w : BitVec 24) : Bool :=
  let n := (slotPort w).toNat
  !neverFires w && (ws.zipIdx.any fun (w', j) =>
    let n' := (slotPort w').toNat
    j != i && !neverFires w' &&
      ((n = n' && n != 0 && !isExit n) ||
        (match triggerUnit n, triggerUnit n' with
         | some ua, some ub => decide (ua = ub)
         | _, _ => false)))

/-- The eight slots of a bundle. -/
def bundleSlots (b : BitVec 256) : List (BitVec 24) := (List.range 8).map (bundleSlot b)

/-- The lowest slot that offends in a check of 02_bundle R53, 8 for the header alone, none when the bundle passes
(R54).  The block checks stand with the sequencer. -/
def bundleOffender (b : BitVec 256) : Option Nat :=
  let ws := bundleSlots b
  let manyWrites := decide (4 < (ws.filter writesScalar).length)
  let manyReads := decide (8 < (ws.filter readsScalar).length)
  let bad := ws.zipIdx.find? fun (w, i) =>
    slotEncodingBad w || slotClassBad w || slotClash ws i w || (manyWrites && writesScalar w) ||
      (manyReads && readsScalar w)
  match bad with
  | some (_, i) => some i
  | none =>
    let h := bundleHeader b
    if h.extractLsb' 32 8 != 0 || hdrLvl h = 7 then some 8 else none

/-- A bundle of a header and slots in order; unwritten slots are 0x000000 (02_bundle R27, R31). -/
def encodeBundle (h : Word) (ws : List (BitVec 24)) : BitVec 256 :=
  ws.zipIdx.foldl (fun b (w, i) => b ||| (w.setWidth 256 <<< (64 + 24 * i))) (h.setWidth 256)

/-! ### Matrix microwords (08_accumulator R218) -/

/-- The micro-op of a microword, for the engines of a gang.  Every code of OP names one. -/
def decodeMicro (gang : TileName) (w : Word) : Instr :=
  let x := w.getLsbD 59
  let bk := w.getLsbD 58
  let chk := w.getLsbD 57
  let pr : BitVec 2 := w.extractLsb' 55 2
  let fmt : BitVec 4 := w.extractLsb' 48 4
  let n : BitVec 12 := w.extractLsb' 0 12
  match (w.extractLsb' 60 4).toNat with
  | 0 => .mnop gang
  | 1 => .mlda gang x pr
  | 2 => .mldb gang x pr
  | 3 => .mstep gang x bk chk
  | 4 => .mchk gang bk
  | 5 => .mloop gang n
  | 6 => .mend gang
  | 7 => .mhad gang bk
  | 8 => .mdrain gang x bk fmt
  | 9 => .mflag gang bk
  | 10 => .mzero gang bk
  | 11 => .mswap gang
  | 12 => .msig gang n
  | 13 => .msnap gang
  | 14 => .mwait0 gang
  | _ => .mhalt gang

/-- A microword from its fields (R218). -/
def microWord (op : BitVec 4) (x bk chk : Bool) (pr : BitVec 2) (fmt : BitVec 4) (n : BitVec 12) : Word :=
  (op ++ BitVec.ofBool x ++ BitVec.ofBool bk ++ BitVec.ofBool chk ++ pr ++ (0 : BitVec 3) ++ fmt ++ (0 : BitVec 36) ++ n : BitVec 64)

/-- The microword of a micro-op; bits it does not use are 0: FMT of an MDRAIN without X, bits 11..8 of an MSIG's N (R218). -/
def encodeMicro : Instr → Option Word
  | .mnop _ => some (microWord 0 false false false 0 0 0)
  | .mlda _ x pr => some (microWord 1 x false false pr 0 0)
  | .mldb _ x pr => some (microWord 2 x false false pr 0 0)
  | .mstep _ x bk chk => some (microWord 3 x bk chk 0 0 0)
  | .mchk _ bk => some (microWord 4 false bk false 0 0 0)
  | .mloop _ n => some (microWord 5 false false false 0 0 n)
  | .mend _ => some (microWord 6 false false false 0 0 0)
  | .mhad _ bk => some (microWord 7 false bk false 0 0 0)
  | .mdrain _ x bk fmt => some (microWord 8 x bk false 0 (if x then fmt else 0) 0)
  | .mflag _ bk => some (microWord 9 false bk false 0 0 0)
  | .mzero _ bk => some (microWord 10 false bk false 0 0 0)
  | .mswap _ => some (microWord 11 false false false 0 0 0)
  | .msig _ n => some (microWord 12 false false false 0 0 (n &&& 0xFF))
  | .msnap _ => some (microWord 13 false false false 0 0 0)
  | .mwait0 _ => some (microWord 14 false false false 0 0 0)
  | .mhalt _ => some (microWord 15 false false false 0 0 0)
  | _ => none

/-- A microword with a bit set that its micro-op does not use (R218, R228 BADMW). -/
def microReserved (w : Word) : Bool :=
  match encodeMicro (decodeMicro 0 w) with
  | some w' => !decide (w = w')
  | none => true

/-! ### The host's view of a table row -/

/-- The instruction the decoder reads from a row's bits, numbered as the table numbers them: a slot's bits 23..0
(02_bundle R31), laid out as three bytes, little-endian (R27). -/
def decodeTableWord (nbits w : Nat) : Option Instr :=
  if nbits ≤ 24 then
    let v := BitVec.ofNat 24 (w % 2 ^ nbits)
    match decodeBytes [v.extractLsb' 0 8, v.extractLsb' 8 8, v.extractLsb' 16 8] with
    | .ok (i, _) => some i
    | .error _ => none
  else if nbits = 64 then some (decodeMicro 0 (BitVec.ofNat 64 w))
  else none

end Sys2Proof
end

