-- ==== Sys2Proof/Machine/Operands.lean ====
section
/-! DEFINITION. Operand forms: reading source ports and operand ports, guards, iteration flags, the class and deferred-fault rules of moves, and writing destinations. -/

namespace Sys2Proof.Machine

/-! ### What a bundle reads -/

/-- The gang as the sources of the bundle see it (02_bundle R33). -/
def srcGang (s : State) (is : Issue) : Gang :=
  match is.snap with
  | some sn => sn.g
  | none => gangOf s is.gang

/-- A slab as the sources of the bundle see it. -/
def srcSlab (s : State) (is : Issue) (t : TileName) : Slab :=
  match is.snap with
  | some sn => tabGetD .fresh sn.slabs t
  | none => slabOf s t

/-- Guard bits 22..19 name a predicate and bit 23 inverts it; p0 reads 1 (R31, 04_scalar R87). -/
def predOf (p : BitVec 16) (n : Nat) : Bool := n = 0 || p.getLsbD n

def guardHolds (g : BitVec 5) (p : BitVec 16) : Bool :=
  xor (predOf p (g.extractLsb' 0 4).toNat) (g.getLsbD 4)

/-- The loop level LVL selects, none when it is not active; levels stand innermost first (R29, 05_sequencer R119). -/
def selectedLevel (g : Gang) (lvl : Nat) : Option LoopLevel :=
  if g.handler then none
  else if lvl = 0 then g.loops.head?
  else if lvl ≤ g.loops.length then g.loops[g.loops.length - lvl]? else none

/-- An iteration flag holds (R29, R119). -/
def flagHolds (l : Option LoopLevel) (code : BitVec 2) : Bool :=
  let first := match l with | some l => l.iter = 0 | none => true
  let last := match l with | some l => l.iter = l.trips - 1 | none => true
  match code.toNat with
  | 0 => true
  | 1 => first
  | 2 => last
  | _ => !first && !last

/-- A front-end port: handler bank or main bank (16_context R379). -/
def fePort (g : Gang) (hand : Bool) (k : Nat) : TV := tabGetD TV.zero (if hand then g.hand else g.main) k

/-- Ports of B, K and Q have a handler bank in the slab (R379): result ports 155, 161, 162, 163 and operands. -/
def bankedPort (k : Nat) : Bool :=
  k = 155 || k = 161 || k = 162 || k = 163 || k = 1672 || k = 1673 || k = 1704 || k = 1720 || k = 1721

/-- v.km, at port 1450, loads as all ones (07_vector R176). -/
def portReset (k : Nat) : TV := if k = 1450 then ⟨BitVec.allOnes 64, false⟩ else TV.zero

/-- A scalar port of a slab. -/
def slPort (sl : Slab) (hand : Bool) (k : Nat) : TV :=
  tabGetD (portReset k) (if hand && bankedPort k then sl.hports else sl.ports) k

def slVPort (sl : Slab) (k : Nat) : Vec := tabGetD 0 sl.vports k

/-- k0 reads all ones (02_bundle R40). -/
def kReg (sl : Slab) (n : Nat) : Word := if n = 0 then BitVec.allOnes 64 else tabGetD 0 sl.k n

def shapeOf (sl : Slab) (k : Nat) : Word := tabGetD (shapeReset k) sl.shape k

/-- p0 to p15, the value of a P-class read. -/
def predWord (p : BitVec 16) (n : Nat) : Word := if predOf p n then 1 else 0

/-- A front-end source (02_bundle R40); cyc is slab 0's (11_group R268). -/
def feSource (g : Gang) (cyc hdr : Word) (n : Nat) : TV :=
  if n = 0 then .zero
  else if n < 64 then tabGetD .zero g.s n
  else if n < 112 then .plain (predWord g.p (n - 96))
  else if 120 ≤ n && n < 128 then .plain (tabGetD 0 g.mbx (n - 120))
  else if n < 138 then fePort g g.handler n
  else if n = 192 then .plain cyc
  else if n = 193 then .plain (fmtWord g.fmt g.bd)
  else if n = 194 then .plain (tstWord g)
  else if n = 195 then .plain (tctlWord g)
  else if n = 196 then .plain g.dmem
  else if 216 ≤ n && n < 224 then .plain (boundWord (tabGetD boundReset g.bd (n - 216)))
  else if 240 ≤ n && n < 248 then tabGetD .zero g.e (n - 240)
  else if 256 ≤ n && n < 384 then .plain ((BitVec.ofNat 7 n).signExtend 64)
  else .plain (immLong hdr n)

/-- A source port that slab state feeds: K and V registers, slab result ports, slab special registers (R37). -/
def slabSource (n : Nat) : Bool :=
  (64 ≤ n && n < 96) || (112 ≤ n && n < 120) || (138 ≤ n && n < 192) || n = 197 || (200 ≤ n && n < 216) ||
    (224 ≤ n && n < 240)

/-- The special registers of one slab that a move reads, and its scalar result ports. -/
def slSource (sl : Slab) (hand : Bool) (ctx now n : Nat) : TV :=
  if 112 ≤ n && n < 120 then .plain (kReg sl (n - 112))
  else if n < 192 then slPort sl hand n
  else if n = 197 then .plain (mstWord sl.mx)
  else if n < 216 then .plain (shapeOf sl (n - 200))
  else if n < 232 then .plain (tabGetD 0 sl.mx.mp (n - 224))
  else if n < 236 then .plain (resBits sl (256 * (shapeOf sl 12).toNat % 1024 + 64 * (n - 232)))
  else
    match (errVisible sl ctx now)[(shapeOf sl 12 >>> 16).toNat % 16]? with
    | some r => .plain (errDword r (n - 236))
    | none => .zero

/-- The slab of a gang that a source is read in for slab t: mst, rm0 to rm3 and elg0 to elg3 are the first slab's
(08_accumulator R205, 09_window R237). -/
def sourceTile (is : Issue) (t : TileName) (n : Nat) : TileName := if n = 197 || (232 ≤ n && n < 240) then is.gang else t

/-- The scalar, predicate or mask value of a source, as slab t of the gang reads it (R35, R37). -/
def readScalar (s : State) (is : Issue) (t : TileName) (src : BitVec 9) : TV :=
  let n := src.toNat
  let g := srcGang s is
  if slabSource n then slSource (srcSlab s is (sourceTile is t n)) g.handler g.ctx s.now n
  else feSource g (tileCyc s is.gang) is.hdr n

/-- The value a front-end destination takes: slab 0's for a slab source (R37). -/
def readFE (s : State) (is : Issue) (src : BitVec 9) : TV := readScalar s is is.gang src

/-- Every lane holds one word (R35, S to V). -/
def splat (w : BitVec 32) : Vec := (List.range 64).foldl (fun v _ => (v <<< 32) ||| w.setWidth 2048) 0

/-- The vector a V-class destination takes in slab t: a V source copied, bits 31..0 of an S source in every lane. -/
def readVec (s : State) (is : Issue) (t : TileName) (src : BitVec 9) : Vec :=
  let n := src.toNat
  if sourceClass n = .v then
    let sl := srcSlab s is t
    if n < 96 then tabGetD 0 sl.v (n - 64) else slVPort sl n
  else splat ((readScalar s is t src).val.setWidth 32)

/-- A V-class destination meets a deferred-fault tag only in an S source. -/
def vecTagged (s : State) (is : Issue) (t : TileName) (src : BitVec 9) : Bool :=
  sourceClass src.toNat != .v && (readScalar s is t src).df

/-- A predicate move: 1 when nonzero (R35). -/
def toPred (v : TV) : TV := ⟨if v.val = 0 then 0 else 1, v.df⟩

/-! ### Operand ports as they stand after the writes of the bundle (R33) -/

/-- An operand port of I0, I1 or C of the issuing gang. -/
def feOpd (s : State) (is : Issue) (d : Nat) : TV :=
  let g := gangOf s is.gang
  fePort g g.handler (1000 + d)

/-- An operand port of a slab unit. -/
def slOpd (s : State) (is : Issue) (t : TileName) (d : Nat) : TV :=
  slPort (slabOf s t) (gangOf s is.gang).handler (1000 + d)

def slVOpd (s : State) (t : TileName) (d : Nat) : Vec := slVPort (slabOf s t) (1000 + d)

/-! ### Writing ports and registers -/

def putFE (s : State) (g : TileName) (hand : Bool) (k : Nat) (v : TV) : State :=
  modGang s g fun gg => if hand then { gg with hand := tabPut gg.hand k v } else { gg with main := tabPut gg.main k v }

def putSl (s : State) (t : TileName) (hand : Bool) (k : Nat) (v : TV) : State :=
  modSlab s t fun sl =>
    if hand && bankedPort k then { sl with hports := tabPut sl.hports k v } else { sl with ports := tabPut sl.ports k v }

def putVPort (s : State) (t : TileName) (k : Nat) (v : Vec) : State :=
  modSlab s t fun sl => { sl with vports := tabPut sl.vports k v }

/-- A result landing in a front-end port, in the bank of its trigger; dropped when its task has left (R337). -/
def landFE (s : State) (own : Owner) (k : Nat) (v : TV) : State :=
  if ownerLive s own then putFE s own.gang own.hand k v else s

def landSl (s : State) (own : Owner) (t : TileName) (k : Nat) (v : TV) : State :=
  if ownerLive s own then putSl s t own.hand k v else s

def landVec (s : State) (own : Owner) (t : TileName) (k : Nat) (v : Vec) : State :=
  if ownerLive s own then putVPort s t k v else s

/-- The units of B, K and Q act only in slab 0 of a gang (11_group R269, 16_context R379). -/
def slabZeroPort (d : Nat) : Bool := (672 ≤ d && d < 680) || (704 ≤ d && d < 736)

/-- The tiles whose port a move writes. -/
def destTiles (s : State) (is : Issue) (d : Nat) : List TileName :=
  if slabZeroPort d then [is.gang] else gangTiles s is.gang

/-- A destination that holds a deferred-fault tag (04_scalar R83). -/
def holdsDF (d : Nat) : Bool :=
  d < 64 || (128 ≤ d && d < 258) || (276 ≤ d && d < 280) || (288 ≤ d && d < 296) || (320 ≤ d && d < 448)

/-- A front-end destination of a plain move. -/
def feDest (d : Nat) : Bool :=
  d < 64 || (96 ≤ d && d < 112) || d = 128 || d = 129 || d = 192 || d = 193 || d = 256 || d = 257 ||
    (288 ≤ d && d < 296) || 800 ≤ d

/-- Write a front-end register, operand or staging port. -/
def writeFE (s : State) (g : TileName) (hand : Bool) (d : Nat) (v : TV) : State :=
  if d = 0 then s
  else if d < 64 then modGang s g fun gg => { gg with s := tabPut gg.s d v }
  else if d < 112 then
    modGang s g fun gg =>
      { gg with p := if v.val = 0 then gg.p &&& ~~~(BitVec.twoPow 16 (d - 96)) else gg.p ||| BitVec.twoPow 16 (d - 96) }
  else if d < 288 then putFE s g hand (1000 + d) v
  else if d < 296 then modGang s g fun gg => { gg with e := tabPut gg.e (d - 288) v }
  else if d < 824 then
    modGang s g fun gg =>
      let b := (d - 800) / 3
      { gg with bdStage := tabPut gg.bdStage b (boundPutField (tabGetD boundReset gg.bdStage b) ((d - 800) % 3) v.val) }
  else modGang s g fun gg => { gg with fmtStage := fmtPutField gg.fmtStage (d - 824) v.val }

/-- Write a slab register, operand or field port. -/
def writeSl (s : State) (t : TileName) (hand : Bool) (d : Nat) (v : TV) : State :=
  if d < 120 then modSlab s t fun sl => { sl with k := tabPut sl.k (d - 112) v.val }
  else if 600 ≤ d && d < 608 then
    modSlab s t fun sl => { sl with mx := { sl.mx with mp := tabPut sl.mx.mp (d - 600) v.val } }
  else if 736 ≤ d then
    modSlab s t fun sl =>
      let k := (d - 736) / 4
      { sl with shadow := tabPut sl.shadow k (shapePutField k ((d - 736) % 4) (tabGetD (shapeReset k) sl.shadow k) v.val) }
  else putSl s t hand (1000 + d) v

/-- A vector register or vector operand port. -/
def writeVec (s : State) (t : TileName) (d : Nat) (v : Vec) : State :=
  if d < 96 then modSlab s t fun sl => { sl with v := tabPut sl.v (d - 64) v } else putVPort s t (1000 + d) v

/-! ### The slot -/

/-- A destination a bundle in HANDLER may write (16_context R379). -/
def handlerMay (d : Nat) : Bool :=
  d = 0 || (128 ≤ d && d < 256) || (256 ≤ d && d < 260) || (266 ≤ d && d < 268) || d = 270 ||
    (273 ≤ d && d < 281) || d = 282 || d = 283 || (288 ≤ d && d < 296) || (672 ≤ d && d < 676) ||
    (704 ≤ d && d < 707) || (708 ≤ d && d < 711) || (720 ≤ d && d < 726)

/-- Record a control trap of the block; the first one stands (05_sequencer R110, R135). -/
def blockTrap (s : State) (is : Issue) (cause : Nat) : State :=
  modGang s is.gang fun gg =>
    { gg with blk := { gg.blk with trap := if gg.blk.trap.isSome then gg.blk.trap else some (cause, is.slot, is.trig) } }

/-- A slot: nothing when its guard does not hold; in HANDLER a destination outside R379 records the control trap
LOOPHANDLER or HANDLERDST and moves nothing; else its effect. -/
def slotStep (s : State) (g : BitVec 5) (d : Nat) (f : Issue → State → State) : Host.Outcome State Fault Refusal :=
  match s.issue with
  | none => .fault .noBundle
  | some is =>
    if !guardHolds g (srcGang s is).p then .next s
    else
      let is := { is with trig := d, fired := is.fired ||| BitVec.twoPow 8 is.slot }
      let s := bumpCounter { s with issue := some is } is.gang 4 1
      if (gangOf s is.gang).handler && !handlerMay d then
        .next (blockTrap s is (if 263 ≤ d && d ≤ 265 then 9 else 10))
      else .next (f is s)

/-- The lowest gang slab whose source carries a tag. -/
def taggedSlab (s : State) (is : Issue) (ts : List TileName) (src : BitVec 9) : Option Nat :=
  (ts.zipIdx.find? fun (t, _) => (readScalar s is t src).df).map (·.2)

/-- The deferred-fault consumption fault at the present cycle (04_scalar R85). -/
def consumeDF (s : State) (is : Issue) (k : Nat) : State := raiseAux s (issueOwner s is) 12 0 0 k

/-- A move to a register, operand, parameter or staging port (02_bundle R33, R35 to R39, R41 to R48). -/
def moveTo (s : State) (is : Issue) (d : Nat) (src : BitVec 9) : State :=
  let hand := (gangOf s is.gang).handler
  if d = 0 then s
  else if feDest d then
    let v := readFE s is src
    if v.df && !holdsDF d then consumeDF s is 0 else writeFE s is.gang hand d v
  else
    let ts := destTiles s is d
    if destClass d = some .v then
      match ts.zipIdx.find? fun (t, _) => vecTagged s is t src with
      | some (_, k) => consumeDF s is k
      | none => forTiles s ts fun st t => writeVec st t d (readVec s is t src)
    else
      match (if holdsDF d then none else taggedSlab s is ts src) with
      | some k => consumeDF s is k
      | none => forTiles s ts fun st t => writeSl st t hand d (readScalar s is t src)

/-- REGISTER_WRITE (02_bundle R41). -/
def execRegisterWrite (g : BitVec 5) (d : BitVec 10) (src : BitVec 9) (s : State) : Host.Outcome State Fault Refusal :=
  slotStep s g d.toNat fun is s => moveTo s is d.toNat src

/-- A slab trigger whose value is tagged in some slab takes the fault of R85; else its effect. -/
def untagged (s : State) (is : Issue) (ts : List TileName) (src : BitVec 9) (f : State → State) : State :=
  match taggedSlab s is ts src with
  | some k => consumeDF s is k
  | none => f s

end Sys2Proof.Machine
end

