-- ==== Sys2Proof/Machine/Integer.lean ====
section
/-! DEFINITION. The operations of I0 and I1 (04_scalar R92 to R103). -/

namespace Sys2Proof.Machine

/-! ### Values -/

/-- The low 32 bits of an operand (R93). -/
abbrev lo32 (w : Word) : BitVec 32 := w.setWidth 32

/-- A `.w` result: sign-extended from 32 bits (R93). -/
def sext32 (v : BitVec 32) : Word := v.signExtend 64

/-- A compare delivers 0 or 1 (R100). -/
def boolWord (b : Bool) : Word := if b then 1 else 0

/-- Number of leading zero bits of an n-bit value (00_scope R11). -/
def clzNat : Nat → Nat → Nat
  | 0, _ => 0
  | n + 1, x => if x.testBit n then 0 else 1 + clzNat n x

/-- Number of trailing zero bits of an n-bit value; n for zero (R97). -/
def ctzNat : Nat → Nat → Nat
  | 0, _ => 0
  | n + 1, x => if x.testBit 0 then 0 else 1 + ctzNat n (x / 2)

/-- Number of set bits among the low n. -/
def popNat : Nat → Nat → Nat
  | 0, _ => 0
  | n + 1, x => x % 2 + popNat n (x / 2)

def addV (a t : Word) : Word := a + t
def subV (a t : Word) : Word := a - t
def addshV (a c t : Word) : Word := a + (t <<< (c.toNat % 64))
def andV (a t : Word) : Word := a &&& t
def orV (a t : Word) : Word := a ||| t
def xorV (a t : Word) : Word := a ^^^ t
def andnV (a t : Word) : Word := a &&& ~~~t
def shlV (a t : Word) : Word := a <<< (t.toNat % 64)
def shrV (a t : Word) : Word := a >>> (t.toNat % 64)
def sarV (a t : Word) : Word := a.sshiftRight (t.toNat % 64)
def rolV (a t : Word) : Word := a.rotateLeft (t.toNat % 64)
def addWV (a t : Word) : Word := sext32 (lo32 a + lo32 t)
def subWV (a t : Word) : Word := sext32 (lo32 a - lo32 t)
def shlWV (a t : Word) : Word := sext32 (lo32 a <<< (t.toNat % 32))
def shrWV (a t : Word) : Word := sext32 (lo32 a >>> (t.toNat % 32))
def sarWV (a t : Word) : Word := sext32 ((lo32 a).sshiftRight (t.toNat % 32))
def rolWV (a t : Word) : Word := sext32 ((lo32 a).rotateLeft (t.toNat % 32))

/-- The product is formed exactly and the stated bits are taken (R95). -/
def mulV (a t : Word) : Word := a * t
def mulhV (a t : Word) : Word := BitVec.ofInt 64 ((a.toInt * t.toInt) / 2 ^ 64)
def mulhuV (a t : Word) : Word := BitVec.ofNat 64 (a.toNat * t.toNat / 2 ^ 64)
def mulWV (a t : Word) : Word := sext32 (lo32 a * lo32 t)
def mulhWV (a t : Word) : Word := sext32 (BitVec.ofInt 32 (((lo32 a).toInt * (lo32 t).toInt) / 2 ^ 32))
def mulhuWV (a t : Word) : Word := sext32 (BitVec.ofNat 32 ((lo32 a).toNat * (lo32 t).toNat / 2 ^ 32))

/-- The divides at one width (R96): by zero all ones, or a for a remainder; the most negative by −1 wraps. -/
def divsN {n : Nat} (a t : BitVec n) : BitVec n :=
  if t = 0 then BitVec.allOnes n else BitVec.ofInt n (a.toInt.tdiv t.toInt)
def divuN {n : Nat} (a t : BitVec n) : BitVec n :=
  if t = 0 then BitVec.allOnes n else BitVec.ofNat n (a.toNat / t.toNat)
def remuN {n : Nat} (a t : BitVec n) : BitVec n :=
  if t = 0 then a else BitVec.ofNat n (a.toNat % t.toNat)
def divsV (a t : Word) : Word := divsN a t
def divuV (a t : Word) : Word := divuN a t
def remuV (a t : Word) : Word := remuN a t
def divsWV (a t : Word) : Word := sext32 (divsN (lo32 a) (lo32 t))
def divuWV (a t : Word) : Word := sext32 (divuN (lo32 a) (lo32 t))
def remuWV (a t : Word) : Word := sext32 (remuN (lo32 a) (lo32 t))

def minV (a t : Word) : Word := if a.slt t then a else t
def maxV (a t : Word) : Word := if a.slt t then t else a
def minuV (a t : Word) : Word := if a.ult t then a else t
def maxuV (a t : Word) : Word := if a.ult t then t else a
def minWV (a t : Word) : Word := sext32 (if (lo32 a).slt (lo32 t) then lo32 a else lo32 t)
def maxWV (a t : Word) : Word := sext32 (if (lo32 a).slt (lo32 t) then lo32 t else lo32 a)
def minuWV (a t : Word) : Word := sext32 (if (lo32 a).ult (lo32 t) then lo32 a else lo32 t)
def maxuWV (a t : Word) : Word := sext32 (if (lo32 a).ult (lo32 t) then lo32 t else lo32 a)
def clzV (t : Word) : Word := BitVec.ofNat 64 (clzNat 64 t.toNat)
def ctzV (t : Word) : Word := BitVec.ofNat 64 (ctzNat 64 t.toNat)
def popcV (t : Word) : Word := BitVec.ofNat 64 (popNat 64 t.toNat)
def clzWV (t : Word) : Word := BitVec.ofNat 64 (clzNat 32 (lo32 t).toNat)
def ctzWV (t : Word) : Word := BitVec.ofNat 64 (ctzNat 32 (lo32 t).toNat)

/-- The low n bits of a value, zero-extended (00_scope R11). -/
def zextN (x : Nat) (n : Nat) : Nat := x % 2 ^ n

/-- The low n bits of a value, sign-extended to 64 (00_scope R11); n > 0. -/
def sextN (x : Nat) (n : Nat) : Word :=
  let m := x % 2 ^ n
  if m.testBit (n - 1) then BitVec.ofInt 64 ((m : Int) - 2 ^ n) else BitVec.ofNat 64 m

/-- Field descriptor in t (R98): POS, and the bits L of the field inside the word. -/
def fieldPos (t : Word) : Nat := t.toNat % 64
def fieldLen (t : Word) : Nat := min (t.extractLsb' 8 7).toNat (64 - fieldPos t)

def extrV (a t : Word) : Word :=
  let l := fieldLen t
  let f := zextN (a.toNat / 2 ^ fieldPos t) l
  if t.getLsbD 15 && 0 < l then sextN f l else BitVec.ofNat 64 f
def insV (a c t : Word) : Word :=
  let mask : Word := BitVec.ofNat 64 ((2 ^ fieldLen t - 1) * 2 ^ fieldPos t)
  (a &&& ~~~mask) ||| ((c <<< fieldPos t) &&& mask)
def sextV (a t : Word) : Word :=
  let n := t.toNat % 128
  if n = 0 then 0 else if 64 ≤ n then a else sextN a.toNat n
def zextV (a t : Word) : Word :=
  let n := t.toNat % 128
  if n = 0 then 0 else if 64 ≤ n then a else BitVec.ofNat 64 (zextN a.toNat n)
def selV (a c t : Word) : Word := if t = 0 then c else a

def cmpeqV (a t : Word) : Word := boolWord (a = t)
def cmpneV (a t : Word) : Word := boolWord (a ≠ t)
def cmpltV (a t : Word) : Word := boolWord (a.slt t)
def cmpltuV (a t : Word) : Word := boolWord (a.ult t)
def cmpleV (a t : Word) : Word := boolWord (a.sle t)
def cmpleuV (a t : Word) : Word := boolWord (a.ule t)
def cmpbitV (a t : Word) : Word := boolWord (a.getLsbD (t.toNat % 64))
def cmpeqWV (a t : Word) : Word := boolWord (lo32 a = lo32 t)
def cmpneWV (a t : Word) : Word := boolWord (lo32 a ≠ lo32 t)
def cmpltWV (a t : Word) : Word := boolWord ((lo32 a).slt (lo32 t))
def cmpltuWV (a t : Word) : Word := boolWord ((lo32 a).ult (lo32 t))
def cmpleWV (a t : Word) : Word := boolWord ((lo32 a).sle (lo32 t))
def cmpleuWV (a t : Word) : Word := boolWord ((lo32 a).ule (lo32 t))

/-! ### Aperture windows (06_region R142) -/

/-- BASE of a space. -/
def spaceBase (sp : Nat) : Nat :=
  if sp = 0 then 0 else if sp = 1 then 0x100000000 else if sp = 2 then 0x10000000000 else 0x1000000000000

/-- SIZE of a space for a gang of width w: the gang window of width 1 has size 0. -/
def spaceSize (w sp : Nat) : Nat :=
  if sp = 0 then 0x400000
  else if sp = 1 then (if w = 1 then 0 else w * 0x400000)
  else if sp = 2 then 0x4000000000 else 0x1000000000000

/-- The space whose window holds an address. -/
def spaceOf (w a : Nat) : Option Nat :=
  (List.range 4).find? fun sp => spaceBase sp ≤ a && a < spaceBase sp + spaceSize w sp

/-- CVTA (R102): the converted value, none when the address or the aperture word fails. -/
def cvtaV (w : Nat) (a t : Word) : Option Word :=
  let sp0 := (t.extractLsb' 3 2).toNat
  if t.getLsbD 0 then
    let bare := t.getLsbD 1
    let sp := if bare then sp0 else (a.extractLsb' 62 2).toNat
    let o := if bare then a.toNat else (a.extractLsb' 0 48).toNat
    if !bare && a.extractLsb' 48 14 != 0 then none
    else if spaceSize w sp ≤ o then none
    else some (BitVec.ofNat 64 (spaceBase sp + o))
  else
    match spaceOf w a.toNat with
    | none => none
    | some sp =>
      if t.getLsbD 2 && sp != sp0 then none
      else
        let o := a.toNat - spaceBase sp
        some (BitVec.ofNat 64 (if t.getLsbD 1 then o else sp * 2 ^ 62 + o))

/-- ISSP (R103). -/
def isspV (w : Nat) (a t : Word) : Word :=
  match spaceOf w a.toNat with
  | none => 0
  | some sp => boolWord (t.getLsbD sp)

/-! ### The units -/

/-- The destination port at offset k of I0 or I1 (02_bundle R42). -/
def intPort (u : BitVec 1) (k : Nat) : Nat := 128 + 64 * u.toNat + k

/-- The result ports r, m, d, p at offsets 0 to 3 (02_bundle R40). -/
def intRes (u : BitVec 1) (k : Nat) : Nat := 128 + 4 * u.toNat + k

/-- An operation of one operand, its trigger: the result lands in port k at c+lat (R92). -/
def intT (k port lat : Nat) (f : Word → Word) (g : BitVec 5) (u : BitVec 1) (src : BitVec 9) (s : State) :
    Host.Outcome State Fault Refusal :=
  slotStep s g (intPort u port) fun is s =>
    let t := readFE s is src
    postLand s (issueOwner s is) (s.now + lat) (.feRes (intRes u k) ⟨f t.val, t.df⟩)

/-- An operation of opa and its trigger (R92). -/
def intAT (k port lat : Nat) (f : Word → Word → Word) (g : BitVec 5) (u : BitVec 1) (src : BitVec 9) (s : State) :
    Host.Outcome State Fault Refusal :=
  slotStep s g (intPort u port) fun is s =>
    let t := readFE s is src
    let a := feOpd s is (intPort u 0)
    postLand s (issueOwner s is) (s.now + lat) (.feRes (intRes u k) ⟨f a.val t.val, a.df || t.df⟩)

/-- An operation of opa, opc and its trigger (R92). -/
def intACT (port : Nat) (f : Word → Word → Word → Word) (g : BitVec 5) (u : BitVec 1) (src : BitVec 9) (s : State) :
    Host.Outcome State Fault Refusal :=
  slotStep s g (intPort u port) fun is s =>
    let t := readFE s is src
    let a := feOpd s is (intPort u 0)
    let c := feOpd s is (intPort u 1)
    postLand s (issueOwner s is) (s.now + 1) (.feRes (intRes u 0) ⟨f a.val c.val t.val, a.df || c.df || t.df⟩)

/-- tst.DZF is set at the trigger cycle (R96). -/
def setDzf (s : State) (g : TileName) : State := modGang s g fun gg => { gg with tst := { gg.tst with dzf := true } }

/-- What a divide's trigger computes (R96, R102). -/
def divOp (op : Nat) : Word → Word → Word :=
  if op = 16 then divsV else if op = 17 then divuV else if op = 18 then remuV
  else if op = 49 then divsWV else if op = 50 then divuWV else remuWV

/-- A divide's result, computed where it lands from the operands it is held by (R96, R105). -/
def divResult (op : Nat) (a t : TV) : TV := ⟨divOp op a.val t.val, a.df || t.df⟩

/-- A divide: latency 18, tst.DZF for a zero divisor (R96). -/
def intDiv (port : Nat) (zero : Word → Bool) (g : BitVec 5) (u : BitVec 1) (src : BitVec 9)
    (s : State) : Host.Outcome State Fault Refusal :=
  slotStep s g (intPort u port) fun is s =>
    let t := readFE s is src
    let a := feOpd s is (intPort u 0)
    let s := if zero t.val then setDzf s is.gang else s
    postLand s (issueOwner s is) (s.now + 18) (.feDiv (intRes u 2) port a t)

def zero64 (t : Word) : Bool := t = 0
def zero32 (t : Word) : Bool := lo32 t = 0

/-- ADD (R94). -/
def execAdd (g : BitVec 5) (u : BitVec 1) (src : BitVec 9) (s : State) : Host.Outcome State Fault Refusal :=
  intAT 0 2 1 addV g u src s

/-- SUB (R94). -/
def execSub (g : BitVec 5) (u : BitVec 1) (src : BitVec 9) (s : State) : Host.Outcome State Fault Refusal :=
  intAT 0 3 1 subV g u src s

/-- ADDSH (R94). -/
def execAddsh (g : BitVec 5) (u : BitVec 1) (src : BitVec 9) (s : State) : Host.Outcome State Fault Refusal :=
  intACT 4 addshV g u src s

/-- AND (R94). -/
def execAnd (g : BitVec 5) (u : BitVec 1) (src : BitVec 9) (s : State) : Host.Outcome State Fault Refusal :=
  intAT 0 5 1 andV g u src s

/-- OR (R94). -/
def execOr (g : BitVec 5) (u : BitVec 1) (src : BitVec 9) (s : State) : Host.Outcome State Fault Refusal :=
  intAT 0 6 1 orV g u src s

/-- XOR (R94). -/
def execXor (g : BitVec 5) (u : BitVec 1) (src : BitVec 9) (s : State) : Host.Outcome State Fault Refusal :=
  intAT 0 7 1 xorV g u src s

/-- ANDN (R94). -/
def execAndn (g : BitVec 5) (u : BitVec 1) (src : BitVec 9) (s : State) : Host.Outcome State Fault Refusal :=
  intAT 0 8 1 andnV g u src s

/-- SHL (R94). -/
def execShl (g : BitVec 5) (u : BitVec 1) (src : BitVec 9) (s : State) : Host.Outcome State Fault Refusal :=
  intAT 0 9 1 shlV g u src s

/-- SHR (R94). -/
def execShr (g : BitVec 5) (u : BitVec 1) (src : BitVec 9) (s : State) : Host.Outcome State Fault Refusal :=
  intAT 0 10 1 shrV g u src s

/-- SAR (R94). -/
def execSar (g : BitVec 5) (u : BitVec 1) (src : BitVec 9) (s : State) : Host.Outcome State Fault Refusal :=
  intAT 0 11 1 sarV g u src s

/-- ROL (R94). -/
def execRol (g : BitVec 5) (u : BitVec 1) (src : BitVec 9) (s : State) : Host.Outcome State Fault Refusal :=
  intAT 0 12 1 rolV g u src s

/-- MUL (R95). -/
def execMul (g : BitVec 5) (u : BitVec 1) (src : BitVec 9) (s : State) : Host.Outcome State Fault Refusal :=
  intAT 1 13 3 mulV g u src s

/-- MULH (R95). -/
def execMulh (g : BitVec 5) (u : BitVec 1) (src : BitVec 9) (s : State) : Host.Outcome State Fault Refusal :=
  intAT 1 14 3 mulhV g u src s

/-- MULHU (R95). -/
def execMulhu (g : BitVec 5) (u : BitVec 1) (src : BitVec 9) (s : State) : Host.Outcome State Fault Refusal :=
  intAT 1 15 3 mulhuV g u src s

/-- DIVS (R96). -/
def execDivs (g : BitVec 5) (u : BitVec 1) (src : BitVec 9) (s : State) : Host.Outcome State Fault Refusal :=
  intDiv 16 zero64 g u src s

/-- DIVU (R96). -/
def execDivu (g : BitVec 5) (u : BitVec 1) (src : BitVec 9) (s : State) : Host.Outcome State Fault Refusal :=
  intDiv 17 zero64 g u src s

/-- REMU (R96). -/
def execRemu (g : BitVec 5) (u : BitVec 1) (src : BitVec 9) (s : State) : Host.Outcome State Fault Refusal :=
  intDiv 18 zero64 g u src s

/-- MIN (R97). -/
def execMin (g : BitVec 5) (u : BitVec 1) (src : BitVec 9) (s : State) : Host.Outcome State Fault Refusal :=
  intAT 0 19 1 minV g u src s

/-- MAX (R97). -/
def execMax (g : BitVec 5) (u : BitVec 1) (src : BitVec 9) (s : State) : Host.Outcome State Fault Refusal :=
  intAT 0 20 1 maxV g u src s

/-- MINU (R97). -/
def execMinu (g : BitVec 5) (u : BitVec 1) (src : BitVec 9) (s : State) : Host.Outcome State Fault Refusal :=
  intAT 0 21 1 minuV g u src s

/-- MAXU (R97). -/
def execMaxu (g : BitVec 5) (u : BitVec 1) (src : BitVec 9) (s : State) : Host.Outcome State Fault Refusal :=
  intAT 0 22 1 maxuV g u src s

/-- CLZ (R97). -/
def execClz (g : BitVec 5) (u : BitVec 1) (src : BitVec 9) (s : State) : Host.Outcome State Fault Refusal :=
  intT 0 23 1 clzV g u src s

/-- CTZ (R97). -/
def execCtz (g : BitVec 5) (u : BitVec 1) (src : BitVec 9) (s : State) : Host.Outcome State Fault Refusal :=
  intT 0 24 1 ctzV g u src s

/-- POPC (R97). -/
def execPopc (g : BitVec 5) (u : BitVec 1) (src : BitVec 9) (s : State) : Host.Outcome State Fault Refusal :=
  intT 0 25 1 popcV g u src s

/-- EXTR (R98). -/
def execExtr (g : BitVec 5) (u : BitVec 1) (src : BitVec 9) (s : State) : Host.Outcome State Fault Refusal :=
  intAT 0 26 1 extrV g u src s

/-- INS (R98). -/
def execIns (g : BitVec 5) (u : BitVec 1) (src : BitVec 9) (s : State) : Host.Outcome State Fault Refusal :=
  intACT 27 insV g u src s

/-- SEXT (R98). -/
def execSext (g : BitVec 5) (u : BitVec 1) (src : BitVec 9) (s : State) : Host.Outcome State Fault Refusal :=
  intAT 0 28 1 sextV g u src s

/-- ZEXT (R98). -/
def execZext (g : BitVec 5) (u : BitVec 1) (src : BitVec 9) (s : State) : Host.Outcome State Fault Refusal :=
  intAT 0 29 1 zextV g u src s

/-- SEL (R99). -/
def execSel (g : BitVec 5) (u : BitVec 1) (src : BitVec 9) (s : State) : Host.Outcome State Fault Refusal :=
  intACT 30 selV g u src s

/-- CMPEQ (R100). -/
def execCmpeq (g : BitVec 5) (u : BitVec 1) (src : BitVec 9) (s : State) : Host.Outcome State Fault Refusal :=
  intAT 3 31 1 cmpeqV g u src s

/-- CMPNE (R100). -/
def execCmpne (g : BitVec 5) (u : BitVec 1) (src : BitVec 9) (s : State) : Host.Outcome State Fault Refusal :=
  intAT 3 32 1 cmpneV g u src s

/-- CMPLT (R100). -/
def execCmplt (g : BitVec 5) (u : BitVec 1) (src : BitVec 9) (s : State) : Host.Outcome State Fault Refusal :=
  intAT 3 33 1 cmpltV g u src s

/-- CMPLTU (R100). -/
def execCmpltu (g : BitVec 5) (u : BitVec 1) (src : BitVec 9) (s : State) : Host.Outcome State Fault Refusal :=
  intAT 3 34 1 cmpltuV g u src s

/-- CMPLE (R100). -/
def execCmple (g : BitVec 5) (u : BitVec 1) (src : BitVec 9) (s : State) : Host.Outcome State Fault Refusal :=
  intAT 3 35 1 cmpleV g u src s

/-- CMPLEU (R100). -/
def execCmpleu (g : BitVec 5) (u : BitVec 1) (src : BitVec 9) (s : State) : Host.Outcome State Fault Refusal :=
  intAT 3 36 1 cmpleuV g u src s

/-- CMPBIT (R100). -/
def execCmpbit (g : BitVec 5) (u : BitVec 1) (src : BitVec 9) (s : State) : Host.Outcome State Fault Refusal :=
  intAT 3 37 1 cmpbitV g u src s

/-- ADD.W (R94). -/
def execAddW (g : BitVec 5) (u : BitVec 1) (src : BitVec 9) (s : State) : Host.Outcome State Fault Refusal :=
  intAT 0 40 1 addWV g u src s

/-- SUB.W (R94). -/
def execSubW (g : BitVec 5) (u : BitVec 1) (src : BitVec 9) (s : State) : Host.Outcome State Fault Refusal :=
  intAT 0 41 1 subWV g u src s

/-- SHL.W (R94). -/
def execShlW (g : BitVec 5) (u : BitVec 1) (src : BitVec 9) (s : State) : Host.Outcome State Fault Refusal :=
  intAT 0 42 1 shlWV g u src s

/-- SHR.W (R94). -/
def execShrW (g : BitVec 5) (u : BitVec 1) (src : BitVec 9) (s : State) : Host.Outcome State Fault Refusal :=
  intAT 0 43 1 shrWV g u src s

/-- SAR.W (R94). -/
def execSarW (g : BitVec 5) (u : BitVec 1) (src : BitVec 9) (s : State) : Host.Outcome State Fault Refusal :=
  intAT 0 44 1 sarWV g u src s

/-- ROL.W (R94). -/
def execRolW (g : BitVec 5) (u : BitVec 1) (src : BitVec 9) (s : State) : Host.Outcome State Fault Refusal :=
  intAT 0 45 1 rolWV g u src s

/-- MUL.W (R95). -/
def execMulW (g : BitVec 5) (u : BitVec 1) (src : BitVec 9) (s : State) : Host.Outcome State Fault Refusal :=
  intAT 1 46 3 mulWV g u src s

/-- MULH.W (R95). -/
def execMulhW (g : BitVec 5) (u : BitVec 1) (src : BitVec 9) (s : State) : Host.Outcome State Fault Refusal :=
  intAT 1 47 3 mulhWV g u src s

/-- MULHU.W (R95). -/
def execMulhuW (g : BitVec 5) (u : BitVec 1) (src : BitVec 9) (s : State) : Host.Outcome State Fault Refusal :=
  intAT 1 48 3 mulhuWV g u src s

/-- DIVS.W (R96). -/
def execDivsW (g : BitVec 5) (u : BitVec 1) (src : BitVec 9) (s : State) : Host.Outcome State Fault Refusal :=
  intDiv 49 zero32 g u src s

/-- DIVU.W (R96). -/
def execDivuW (g : BitVec 5) (u : BitVec 1) (src : BitVec 9) (s : State) : Host.Outcome State Fault Refusal :=
  intDiv 50 zero32 g u src s

/-- REMU.W (R96). -/
def execRemuW (g : BitVec 5) (u : BitVec 1) (src : BitVec 9) (s : State) : Host.Outcome State Fault Refusal :=
  intDiv 51 zero32 g u src s

/-- MIN.W (R97). -/
def execMinW (g : BitVec 5) (u : BitVec 1) (src : BitVec 9) (s : State) : Host.Outcome State Fault Refusal :=
  intAT 0 52 1 minWV g u src s

/-- MAX.W (R97). -/
def execMaxW (g : BitVec 5) (u : BitVec 1) (src : BitVec 9) (s : State) : Host.Outcome State Fault Refusal :=
  intAT 0 53 1 maxWV g u src s

/-- MINU.W (R97). -/
def execMinuW (g : BitVec 5) (u : BitVec 1) (src : BitVec 9) (s : State) : Host.Outcome State Fault Refusal :=
  intAT 0 54 1 minuWV g u src s

/-- MAXU.W (R97). -/
def execMaxuW (g : BitVec 5) (u : BitVec 1) (src : BitVec 9) (s : State) : Host.Outcome State Fault Refusal :=
  intAT 0 55 1 maxuWV g u src s

/-- CLZ.W (R97). -/
def execClzW (g : BitVec 5) (u : BitVec 1) (src : BitVec 9) (s : State) : Host.Outcome State Fault Refusal :=
  intT 0 56 1 clzWV g u src s

/-- CTZ.W (R97). -/
def execCtzW (g : BitVec 5) (u : BitVec 1) (src : BitVec 9) (s : State) : Host.Outcome State Fault Refusal :=
  intT 0 57 1 ctzWV g u src s

/-- CMPEQ.W (R100). -/
def execCmpeqW (g : BitVec 5) (u : BitVec 1) (src : BitVec 9) (s : State) : Host.Outcome State Fault Refusal :=
  intAT 3 58 1 cmpeqWV g u src s

/-- CMPNE.W (R100). -/
def execCmpneW (g : BitVec 5) (u : BitVec 1) (src : BitVec 9) (s : State) : Host.Outcome State Fault Refusal :=
  intAT 3 59 1 cmpneWV g u src s

/-- CMPLT.W (R100). -/
def execCmpltW (g : BitVec 5) (u : BitVec 1) (src : BitVec 9) (s : State) : Host.Outcome State Fault Refusal :=
  intAT 3 60 1 cmpltWV g u src s

/-- CMPLTU.W (R100). -/
def execCmpltuW (g : BitVec 5) (u : BitVec 1) (src : BitVec 9) (s : State) : Host.Outcome State Fault Refusal :=
  intAT 3 61 1 cmpltuWV g u src s

/-- CMPLE.W (R100). -/
def execCmpleW (g : BitVec 5) (u : BitVec 1) (src : BitVec 9) (s : State) : Host.Outcome State Fault Refusal :=
  intAT 3 62 1 cmpleWV g u src s

/-- CMPLEU.W (R100). -/
def execCmpleuW (g : BitVec 5) (u : BitVec 1) (src : BitVec 9) (s : State) : Host.Outcome State Fault Refusal :=
  intAT 3 63 1 cmpleuWV g u src s

/-- CVTA (R102): a failed conversion delivers a tagged zero. -/
def execCvta (g : BitVec 5) (u : BitVec 1) (src : BitVec 9) (s : State) : Host.Outcome State Fault Refusal :=
  slotStep s g (intPort u 38) fun is s =>
    let t := readFE s is src
    let a := feOpd s is (intPort u 0)
    let r : TV := match cvtaV (gangOf s is.gang).width a.val t.val with
      | some v => ⟨v, a.df || t.df⟩
      | none => ⟨0, true⟩
    postLand s (issueOwner s is) (s.now + 1) (.feRes (intRes u 0) r)

/-- ISSP (R103). -/
def execIssp (g : BitVec 5) (u : BitVec 1) (src : BitVec 9) (s : State) : Host.Outcome State Fault Refusal :=
  slotStep s g (intPort u 39) fun is s =>
    let t := readFE s is src
    let a := feOpd s is (intPort u 0)
    postLand s (issueOwner s is) (s.now + 1)
      (.feRes (intRes u 3) ⟨isspV (gangOf s is.gang).width a.val t.val, a.df || t.df⟩)

end Sys2Proof.Machine
end

