-- ==== Sys2Proof/Machine/Control.lean ====
section
/-! DEFINITION. The operations of the control unit C (05_sequencer R111 to R134, 04_scalar R88): what a move to each port records or starts. -/

namespace Sys2Proof.Machine

/-- A breakpoint of kind k meets a match of value v on gang g: its count falls, and the last match hits (21_marker
R466, R467). -/
def matchBreak (s : State) (ctx : Nat) (g : TileName) (k : Nat) (ok : Word → Bool) : State :=
  (ctxOf s ctx).bps.foldl (fun s e =>
    let b := e.2
    if b.kind.toNat = k && b.count != 0 && (b.gang = 0xFFFF || b.gang = g) && ok b.value then
      if b.count ≤ 1 then
        postEv (modCtx s ctx fun c => { c with bps := tabPut c.bps e.1 { b with count := 0 } })
          s.now ordInput 0 none .breakpointHit (.breakpointHit ctx e.1 g)
      else modCtx s ctx fun c => { c with bps := tabPut c.bps e.1 { b with count := b.count - 1 } }
    else s) s

/-- A trigger of C: its value, c.opa and c.opb as they stand after all writes; a tagged value, or a tagged operand that
the operation reads, takes the fault of 04_scalar R85. -/
def ctlStep (s : State) (g : BitVec 5) (port : Nat) (src : BitVec 9) (readsA readsB : Bool)
    (f : Issue → State → Word → Word → Word → State) : Host.Outcome State Fault Refusal :=
  slotStep s g port fun is s =>
    let t := readFE s is src
    let a := feOpd s is 256
    let b := feOpd s is 257
    if t.df || (readsA && a.df) || (readsB && b.df) then consumeDF s is 0 else f is s t.val a.val b.val

def modBlk (s : State) (g : TileName) (f : Block → Block) : State := modGang s g fun gg => { gg with blk := f gg.blk }

/-- Record a firing exit: the lowest slot of the latest bundle stands, and a different kind or target is a collision
(02_bundle R51). -/
def recordExit (s : State) (is : Issue) (tgt aux : Word) : State :=
  modBlk s is.gang fun b =>
    let x : ExitRec := ⟨is.trig, tgt, aux, is.slot, b.bpos⟩
    match b.exit with
    | none => { b with exit := some x }
    | some w =>
      { b with
        exit := if w.bpos < x.bpos then some x else some w
        xcol := b.xcol || !(w.port = x.port && w.tgt = x.tgt && w.aux = x.aux) }

/-- Record a loop operation; a second one of the block is MULTI (R118). -/
def recordLoop (s : State) (is : Issue) (n : Nat) (e strides : Word) : State :=
  if (gangOf s is.gang).blk.lop.isSome then blockTrap s is 8
  else modBlk s is.gang fun b => { b with lop := some ⟨is.trig, n, e, strides, is.slot⟩ }

/-- Record a wait of another unit (02_bundle R52). -/
def recordWait (s : State) (g : TileName) (w : WaitKind) : State :=
  modBlk s g fun b => { b with waits := b.waits ++ [w] }

/-- Record a wait of C; a second one of the block is MULTI (R124). -/
def recordCWait (s : State) (is : Issue) (w : WaitKind) : State :=
  if 0 < (gangOf s is.gang).blk.cwaits then blockTrap s is 8
  else modBlk s is.gang fun b => { b with waits := b.waits ++ [w], cwaits := b.cwaits + 1 }

/-! ### Exits (R111, R120, R121, R133, R134) -/

def execJmp (g : BitVec 5) (src : BitVec 9) (s : State) : Host.Outcome State Fault Refusal :=
  ctlStep s g 258 src false false fun is s t _ _ => recordExit s is t 0

def execJmpr (g : BitVec 5) (src : BitVec 9) (s : State) : Host.Outcome State Fault Refusal :=
  ctlStep s g 259 src true false fun is s t a _ => recordExit s is (a + t) 0

def execCall (g : BitVec 5) (src : BitVec 9) (s : State) : Host.Outcome State Fault Refusal :=
  ctlStep s g 260 src false false fun is s t _ _ => recordExit s is t 0

def execCallr (g : BitVec 5) (src : BitVec 9) (s : State) : Host.Outcome State Fault Refusal :=
  ctlStep s g 261 src true false fun is s t a _ => recordExit s is (a + t) 0

def execRet (g : BitVec 5) (src : BitVec 9) (s : State) : Host.Outcome State Fault Refusal :=
  ctlStep s g 262 src false false fun is s _ _ _ => recordExit s is 0 0

/-- CHKDF fires as an exit to c.opb when its value is tagged; a tagged c.opb faults either way (R120). -/
def execChkdf (g : BitVec 5) (src : BitVec 9) (s : State) : Host.Outcome State Fault Refusal :=
  slotStep s g 266 fun is s =>
    let t := readFE s is src
    let b := feOpd s is 257
    if b.df then consumeDF s is 0 else if t.df then recordExit s is b.val 0 else s

/-- CHKMX fires as an exit to c.opb when a condition that t names, PARKED by t[0] or BUSY by t[1], holds in some slab at the start of the cycle (R121). -/
def execChkmx (g : BitVec 5) (src : BitVec 9) (s : State) : Host.Outcome State Fault Refusal :=
  ctlStep s g 267 src false true fun is s t _ b =>
    let cond (tile : TileName) : Bool :=
      let m := (srcSlab s is tile).mx
      (t.getLsbD 0 && mxParked m) || (t.getLsbD 1 && m.busy)
    if (gangTiles s is.gang).any cond then recordExit s is b 0 else s

/-- TRAP records its code t[15..0] (R133). -/
def execTrap (g : BitVec 5) (src : BitVec 9) (s : State) : Host.Outcome State Fault Refusal :=
  ctlStep s g 280 src false false fun is s t _ _ => recordExit s is (t &&& 0xFFFF) 0

/-- SYS records its number t[15..0] and its argument c.opa (R133). -/
def execSys (g : BitVec 5) (src : BitVec 9) (s : State) : Host.Outcome State Fault Refusal :=
  ctlStep s g 281 src true false fun is s t a _ => recordExit s is (t &&& 0xFFFF) a

def execEvret (g : BitVec 5) (src : BitVec 9) (s : State) : Host.Outcome State Fault Refusal :=
  ctlStep s g 282 src false false fun is s _ _ _ => recordExit s is 0 0

/-- HALT records its exit code t[7..0] (R133). -/
def execHalt (g : BitVec 5) (src : BitVec 9) (s : State) : Host.Outcome State Fault Refusal :=
  ctlStep s g 284 src false false fun is s t _ _ => recordExit s is (t &&& 0xFF) 0

/-! ### Loops (R114, R117) -/

def execLoop (g : BitVec 5) (src : BitVec 9) (s : State) : Host.Outcome State Fault Refusal :=
  ctlStep s g 263 src true true fun is s t a b => recordLoop s is (t.toNat % 2 ^ 32) a b

/-- LOOPM takes its count from mailbox t[2..0], read at the trigger cycle (R114). -/
def execLoopm (g : BitVec 5) (src : BitVec 9) (s : State) : Host.Outcome State Fault Refusal :=
  ctlStep s g 264 src true true fun is s t a b =>
    recordLoop s is ((tabGetD 0 (srcGang s is).mbx (t.toNat % 8)).toNat % 2 ^ 32) a b

def execBrkl (g : BitVec 5) (src : BitVec 9) (s : State) : Host.Outcome State Fault Refusal :=
  ctlStep s g 265 src false false fun is s t _ _ => recordLoop s is (t.toNat % 8) 0 0

/-! ### Quiet points and waits (R122, R125, R128, R129) -/

def execQpoint (g : BitVec 5) (src : BitVec 9) (s : State) : Host.Outcome State Fault Refusal :=
  ctlStep s g 268 src false false fun is s t _ _ =>
    modBlk s is.gang fun b => { b with qp := b.qp ||| t.setWidth 3, qpSlot := is.slot }

def execWaitev (g : BitVec 5) (src : BitVec 9) (s : State) : Host.Outcome State Fault Refusal :=
  ctlStep s g 269 src false false fun is s t _ _ => recordCWait s is (.waitev (t.setWidth 8))

def execCycwait (g : BitVec 5) (src : BitVec 9) (s : State) : Host.Outcome State Fault Refusal :=
  ctlStep s g 271 src false false fun is s t _ _ => recordCWait s is (.cycwait t)

def execCycalign (g : BitVec 5) (src : BitVec 9) (s : State) : Host.Outcome State Fault Refusal :=
  ctlStep s g 272 src false false fun is s _ _ _ => recordCWait s is .cycalign

/-- CYCRD delivers c, or c − ORIGIN, to c.r at c+1 (R127). -/
def execCycrd (g : BitVec 5) (src : BitVec 9) (s : State) : Host.Outcome State Fault Refusal :=
  ctlStep s g 270 src false false fun is s t _ _ =>
    let c := tileCyc s is.gang
    let v := if t.getLsbD 0 then c - (gangOf s is.gang).origin else c
    postLand s (issueOwner s is) (s.now + 1) (.feRes 136 (.plain v))

/-- MARK compares at c+1 (R130); a MARKER breakpoint without bit 16 matches the trigger (21_marker R466). -/
def execMark (g : BitVec 5) (src : BitVec 9) (s : State) : Host.Outcome State Fault Refusal :=
  ctlStep s g 273 src false false fun is s t _ _ =>
    let c := tileCyc s is.gang
    let actual := c - (gangOf s is.gang).origin
    let s := matchBreak s (gangOf s is.gang).ctx is.gang 3 fun v =>
      v.setWidth 16 = t.setWidth 16 && (!v.getLsbD 16 || t.extractLsb' 16 32 != actual.setWidth 32 ||
        decide (2 ^ 32 ≤ actual.toNat))
    postLand s (issueOwner s is) (s.now + 1) (.mark (t.setWidth 16) (t.extractLsb' 16 32) actual c)

/-! ### Formats, bounds, predicates, event mask (R131, R132, R88, R134) -/

/-- What FMTSET refuses (03_element R71). -/
def fmtBad (f : Fmt) : Bool :=
  f.aw = 7 || 6 ≤ f.afmt.toNat || 6 ≤ f.bfmt.toNat || 6 ≤ f.cfmt.toNat || 4 ≤ f.afmt.toNat || 4 ≤ f.bfmt.toNat

def execFmtset (g : BitVec 5) (src : BitVec 9) (s : State) : Host.Outcome State Fault Refusal :=
  ctlStep s g 274 src false false fun is s _ _ _ =>
    let f := (gangOf s is.gang).fmtStage
    if fmtBad f then raise s (issueOwner s is) 6 1 else postLand s (issueOwner s is) (s.now + 4) (.fmt f)

/-- The staged bounds that the bits of t select. -/
def selectedBounds (g : Gang) (t : Word) : List (Nat × Bound) :=
  ((List.range 8).filter fun b => t.getLsbD b).map fun b => (b, tabGetD boundReset g.bdStage b)

def execBndset (g : BitVec 5) (src : BitVec 9) (s : State) : Host.Outcome State Fault Refusal :=
  ctlStep s g 275 src false false fun is s t _ _ =>
    let bs := selectedBounds (gangOf s is.gang) t
    if bs.any fun e => badBound e.2 then raise s (issueOwner s is) 6 2
    else postLand s (issueOwner s is) (s.now + 4) (.bnd bs)

/-- A predicate-logic operation: t and c.opa as bits, the result in c.p at c+1, tags joined (R88, R84). -/
def predOp (s : State) (g : BitVec 5) (port : Nat) (src : BitVec 9) (readsA : Bool) (f : Bool → Bool → Bool) :
    Host.Outcome State Fault Refusal :=
  slotStep s g port fun is s =>
    let t := readFE s is src
    let a := feOpd s is 256
    postLand s (issueOwner s is) (s.now + 1)
      (.feRes 137 ⟨boolWord (f (t.val != 0) (a.val != 0)), t.df || (readsA && a.df)⟩)

def execPand (g : BitVec 5) (src : BitVec 9) (s : State) : Host.Outcome State Fault Refusal :=
  predOp s g 276 src true fun t b => t && b
def execPor (g : BitVec 5) (src : BitVec 9) (s : State) : Host.Outcome State Fault Refusal :=
  predOp s g 277 src true fun t b => t || b
def execPxor (g : BitVec 5) (src : BitVec 9) (s : State) : Host.Outcome State Fault Refusal :=
  predOp s g 278 src true fun t b => xor t b
def execPnot (g : BitVec 5) (src : BitVec 9) (s : State) : Host.Outcome State Fault Refusal :=
  predOp s g 279 src false fun t _ => !t

def execEvmask (g : BitVec 5) (src : BitVec 9) (s : State) : Host.Outcome State Fault Refusal :=
  ctlStep s g 283 src false false fun is s t _ _ =>
    postLand s (issueOwner s is) (s.now + 1) (.evm (t.setWidth 8))

/-- A write of c.tctl lands at c+1 (R109). -/
def execTctlWrite (g : BitVec 5) (src : BitVec 9) (s : State) : Host.Outcome State Fault Refusal :=
  ctlStep s g 285 src false false fun is s t _ _ => postLand s (issueOwner s is) (s.now + 1) (.tctl t)

/-- A write of c.tstclr clears at c+1, before the flags that operations landing on that cycle set (R108). -/
def execTstclr (g : BitVec 5) (src : BitVec 9) (s : State) : Host.Outcome State Fault Refusal :=
  ctlStep s g 286 src false false fun is s t _ _ => postAct s (issueOwner s is) (s.now + 1) ordClear (.tstclr t)

/-! ### Landings of C -/

/-- A MARK whose offsets differ appends a drift record (21_marker R461, R462). -/
def landMark (s : State) (own : Owner) (marker : BitVec 16) (expect : BitVec 32) (actual cyc : Word) : State :=
  let act := min actual.toNat (2 ^ 32 - 1)
  if actual.toNat = expect.toNat then s
  else
    let d : Int := (act : Int) - expect.toNat
    let drift := BitVec.ofInt 32 (if d < -2 ^ 31 then -2 ^ 31 else if 2 ^ 31 - 1 < d then 2 ^ 31 - 1 else d)
    let c := ctxOf s own.ctx
    let r : MarkRec := ⟨marker, own.pc, own.gang, min c.rollbacks 255, expect, BitVec.ofNat 32 act, drift, cyc⟩
    let log := tabGetD [] c.markers own.gang
    let full := 1024 ≤ log.length
    let s := bumpCounter s own.gang 11 1
    modCtx s own.ctx fun c =>
      { c with
        markers := tabPut c.markers own.gang ((if full then log.drop 1 else log) ++ [r])
        lost := if full then tabPut c.lost own.gang (tabGetD 0 c.lost own.gang + 1) else c.lost }

end Sys2Proof.Machine
end

