-- ==== Sys2Proof/Machine/Records.lean ====
section
/-! DEFINITION. The records that live in memories: tag entries, region map entries, barrier records, page-table entries, pinned translations, vault lines with their undo log, and the bindings of objects to slots. -/

namespace Sys2Proof.Machine

/-! ### Tag table and window slots (06_region R157, 09_window R235) -/

def tagWord (s : State) (t : TileName) (n : Nat) : Word := padWord s t (8 * n)
def tagValid (w : Word) : Bool := w.getLsbD 63
def tagRegion (w : Word) : Nat := (w.extractLsb' 52 6).toNat
def tagVpn (w : Word) : Nat := (w.extractLsb' 0 36).toNat
def mkTag (region vpn : Nat) : Word := BitVec.ofNat 64 (2 ^ 63 + region * 2 ^ 52 + vpn)

def modSlot (s : State) (t : TileName) (n : Nat) (f : WSlot → WSlot) : State :=
  if n < 16 then s else modSlab s t fun sl => { sl with slots := tabPut sl.slots n (f (tabGetD .fresh sl.slots n)) }

/-- Clear RES and DIRTY (R235, R240). -/
def cleanSlot (s : State) (t : TileName) (n : Nat) : State := modSlot s t n fun w => { w with res := false, dirty := 0 }

/-- Set DIRTY of the line of each address in a list. -/
def markDirty (s : State) (t : TileName) (as : List Nat) : State :=
  as.foldl (fun s a => modSlot s t (a / 4096) fun w => { w with dirty := w.dirty ||| BitVec.twoPow 64 (a / 64 % 64) }) s

/-- A write of n bytes by L0, L1, V, M, N or K at its array cycle: the bytes, and DIRTY of its lines (R235). -/
def padStore (s : State) (t : TileName) (a n v : Nat) : State :=
  markDirty (padWrite s t a n v) t (if a / 64 = (a + n - 1) / 64 then [a] else [a, a + n - 1])

/-! ### The region map (R160) -/

def rgnAddr (i k : Nat) : Nat := 0x2000 + 64 * i + 8 * k
def rgnWord (s : State) (t : TileName) (i k : Nat) : Word := padWord s t (rgnAddr i k)
def rgnState (s : State) (t : TileName) (i : Nat) : Nat := ((rgnWord s t i 0).extractLsb' 61 3).toNat
def rgnNslot (s : State) (t : TileName) (i : Nat) : Nat := ((rgnWord s t i 0).extractLsb' 20 10).toNat
def rgnSlot0 (s : State) (t : TileName) (i : Nat) : Nat := ((rgnWord s t i 0).extractLsb' 0 10).toNat
def rgnGva (s : State) (t : TileName) (i : Nat) : Nat := ((rgnWord s t i 1).extractLsb' 0 48).toNat
def rgnKind (s : State) (t : TileName) (i : Nat) : Nat := ((rgnWord s t i 2).extractLsb' 62 2).toNat
def rgnSync (s : State) (t : TileName) (i : Nat) : Nat := ((rgnWord s t i 2).extractLsb' 0 49).toNat
def rgnFtouch (s : State) (t : TileName) (i : Nat) : Bool := (rgnWord s t i 3).getLsbD 1
def rgnWr (s : State) (t : TileName) (i : Nat) : Bool := (rgnWord s t i 3).getLsbD 0

/-- Write STATE and CAUSE, keeping NSLOT and SLOT0. -/
def rgnPutState (s : State) (t : TileName) (i st cause : Nat) : State :=
  let w := rgnWord s t i 0
  padPutWord s t (rgnAddr i 0) (putBits (putBits w 61 3 (BitVec.ofNat 64 st)) 40 8 (BitVec.ofNat 64 cause))

/-- The range of a MAPPED region holds a page. -/
def rgnHolds (s : State) (t : TileName) (i vpn : Nat) : Bool :=
  rgnState s t i = 2 && rgnGva s t i / 4096 ≤ vpn && vpn < rgnGva s t i / 4096 + rgnNslot s t i

/-- Slots that the regions of a slab bind to an object: MAPPED or MAPPING regions whose KIND and SYNC match
(13_binding R300). -/
def boundSlots (s : State) (t : TileName) (kind sync : Nat) : List Nat :=
  ((List.range 64).filter fun i =>
    (rgnState s t i = 1 || rgnState s t i = 2) && rgnKind s t i = kind && rgnSync s t i = sync).flatMap
    fun i => (List.range (rgnNslot s t i)).map (rgnSlot0 s t i + ·)

/-- Some slot that an object binds on the slabs of a gang is dirty or has a flush pending (R301, R302). -/
def unflushed (s : State) (ts : List TileName) (kind sync : Nat) : Bool :=
  ts.any fun t => (boundSlots s t kind sync).any fun n =>
    let w := slotOf (slabOf s t) n
    w.dirty != 0 || (w.pend && w.flush)

/-- An acquire clears RES of every bound slot; a fill in flight of such a slot lands without setting it (R303). -/
def acquireObject (s : State) (ts : List TileName) (kind sync : Nat) : State :=
  forTiles s ts fun s t => (boundSlots s t kind sync).foldl (fun s n =>
    let s := modSlot s t n fun w => { w with res := false }
    modSlab s t fun sl => { sl with stage := tabMod sl.stage n fun o => { o with noRes := true } }) s

/-! ### Barrier records (12_barrier R279) -/

def barAddr (n : Nat) : Nat := 0x3000 + 16 * n

def getBar (s : State) (t : TileName) (n : Nat) : BarRec :=
  let b := BitVec.ofNat 128 (padRead s t (barAddr n) 16)
  ⟨b.getLsbD 120, b.extractLsb' 104 16, b.extractLsb' 100 4, b.extractLsb' 68 32, b.extractLsb' 36 32,
    b.extractLsb' 20 16, b.extractLsb' 4 16, b.extractLsb' 0 4⟩

def barBits (r : BarRec) : Nat :=
  (if r.send then 2 ^ 120 else 0) + r.home.toNat * 2 ^ 104 + r.state.toNat * 2 ^ 100 + r.outb.toNat * 2 ^ 68 +
    r.inb.toNat * 2 ^ 36 + r.arr.toNat * 2 ^ 20 + r.exp.toNat * 2 ^ 4 + r.gen.toNat

def putBar (s : State) (t : TileName) (n : Nat) (r : BarRec) : State := padWrite s t (barAddr n) 16 (barBits r)

/-! ### Page tables (17_page R389 to R391, R395) -/

def pteV (w : Word) : Bool := w.getLsbD 63
def pteLeaf (w : Word) : Bool := w.getLsbD 62
def pteSize (w : Word) : Nat := (w.extractLsb' 60 2).toNat
def pteW (w : Word) : Bool := w.getLsbD 59
def ptePcnt (w : Word) : Nat := (w.extractLsb' 47 12).toNat
def pteHome (w : Word) : TileName := (w.extractLsb' 20 16).toNat
def pteFrame (w : Word) : Nat := (w.extractLsb' 0 17).toNat

/-- An entry that is valid in itself. -/
def pteOk (w : Word) : Bool :=
  pteV w && w.extractLsb' 36 11 = 0 && w.extractLsb' 17 3 = 0 && namesTile (pteHome w) && pteFrame w ≤ 94207

/-- A table by its home and frame, and an entry of it (R389). -/
def tableId (home : TileName) (frame : Nat) : Nat := home * 2 ^ 17 + frame
def entryKey (table idx : Nat) : Nat := 512 * table + idx

/-- The index of a page at a level: VA bits 47..39, 38..30, 29..21, 20..12 for levels 3 to 0 (R389). -/
def pteIndex (level vpn : Nat) : Nat := vpn / 2 ^ (9 * level) % 512

/-- The table that a walk for a page reaches n levels below the root; none where an entry above is missing or a leaf. -/
def tableAt (k : Ctx) (vpn : Nat) : Nat → Option Nat
  | 0 => some (tableId k.root.1 k.root.2)
  | n + 1 =>
    match tableAt k vpn n with
    | none => none
    | some t =>
      let e := tabGetD 0 k.ptes (entryKey t (pteIndex (3 - n) vpn))
      if pteOk e && !pteLeaf e then some (tableId (pteHome e) (pteFrame e)) else none

/-- The key of the entry that a walk for a page reads at a level. -/
def pteKey (k : Ctx) (level vpn : Nat) : Option Nat :=
  if level ≤ 3 then (tableAt k vpn (3 - level)).map fun t => entryKey t (pteIndex level vpn) else none

/-- A leaf as a walk gives it: level, key of its entry, home, frame of the page asked for, writable, pin count. -/
structure Leaf where
  level : Nat
  key   : Nat
  home  : TileName
  frame : Nat
  w     : Bool
  pcnt  : Nat
deriving DecidableEq, Repr

/-- The 16 entries of a 64 KiB page, the first at a key, agree (R391). -/
def groupOk (k : Ctx) (key0 : Nat) : Bool :=
  let e0 := tabGetD 0 k.ptes key0
  pteFrame e0 % 16 = 0 && (List.range 16).all fun i =>
    let e := tabGetD 0 k.ptes (key0 + i)
    pteOk e && pteLeaf e && pteSize e = 1 && pteHome e = pteHome e0 && pteW e = pteW e0 && pteFrame e = pteFrame e0 + i

/-- A leaf at level 1 for a page, if the entry there is one: a 2 MiB page (R391). -/
def bigLeaf (key vpn : Nat) (e : Word) : Option Leaf :=
  if pteSize e = 2 && pteFrame e % 512 = 0 && pteFrame e + 511 ≤ 94207 then
    some ⟨1, key, pteHome e, pteFrame e + vpn % 512, pteW e, ptePcnt e⟩
  else none

/-- A leaf at level 0: a page of 4 KiB, or one frame of a consistent 64 KiB group (R391). -/
def smallLeaf (k : Ctx) (key : Nat) (e : Word) : Option Leaf :=
  if !pteOk e || !pteLeaf e then none
  else if pteSize e = 0 || (pteSize e = 1 && groupOk k (key - key % 16)) then
    some ⟨0, key, pteHome e, pteFrame e, pteW e, ptePcnt e⟩
  else none

/-- Walk from the root; none when the page is missing, or lies past the 2^48 bytes of the space (R389, R391; log 132). -/
def walk (k : Ctx) (vpn : Nat) : Option Leaf :=
  if 2 ^ 36 ≤ vpn then none
  else
    match pteKey k 1 vpn with
    | none => none
    | some key =>
      let e := tabGetD 0 k.ptes key
      if pteOk e && pteLeaf e then bigLeaf key vpn e
      else
        match pteKey k 0 vpn with
        | none => none
        | some key0 => smallLeaf k key0 (tabGetD 0 k.ptes key0)

/-- Change a leaf's PCNT (R395). -/
def addPcnt (k : Ctx) (key : Nat) (up : Bool) : Ctx :=
  let w := tabGetD 0 k.ptes key
  let n := if up then ptePcnt w + 1 else ptePcnt w - 1
  { k with ptes := tabPut k.ptes key (putBits w 47 12 (BitVec.ofNat 64 n)) }

/-- The context whose slab state a tile holds, if any. -/
def holderOf (s : State) (t : TileName) : Option Nat :=
  match (slabOf s t).holder with
  | some (c, gen) => if (ctxOf s c).gen = gen then some c else none
  | none => none

/-- The tiles that hold a context's slab state. -/
def heldTiles (s : State) (c : Nat) : List TileName := (s.slabs.map (·.1)).filter fun t => holderOf s t = some c

/-- The pins of a region of a slab. -/
def pinsOf (s : State) (t : TileName) (i : Nat) : List Pin := tabGetD [] (slabOf s t).pins i

/-- The pinned translation of a page in a region. -/
def pinFor (s : State) (t : TileName) (i vpn : Nat) : Option Pin := (pinsOf s t i).find? fun p => p.vpn = vpn

/-- Release the pins of a region that satisfy p, each in the entry that counts it, and set PINNED (R395, R160). -/
def releasePins (s : State) (c : Nat) (t : TileName) (i : Nat) (p : Pin → Bool) : State :=
  let (gone, kept) := (pinsOf s t i).partition p
  let s := gone.foldl (fun s x => modCtx s c fun k => addPcnt k x.key false) s
  let s := modSlab s t fun sl => { sl with pins := tabPut sl.pins i kept }
  padPutWord s t (rgnAddr i 5) (BitVec.ofNat 64 kept.length)

/-- Pins of a slab that are given up. -/
def dropPins (s : State) (c : Nat) (t : TileName) : State :=
  (slabOf s t).pins.foldl (fun s e => releasePins s c t e.1 fun _ => true) s

/-! ### Vault lines and the undo log (09_window R231, R248) -/

def vaultLineKey (home : TileName) (frame line : Nat) : Nat := vaultKey home frame (64 * line)

/-- The context's limit of undo entries in one vault (R248). -/
def undoLimit (s : State) (c : Nat) : Nat :=
  match (s.tasks.filter fun e => e.2.ctx = c && e.2.st != .ended).map fun e => e.2.undo with
  | [] => (ctxOf s c).ops.undoShare.getD 0
  | u :: us => us.foldl max u

/-- Entries of a context in one vault. -/
def undoCount (k : Ctx) (home : TileName) : Nat := (k.undo.filter fun e => e.1 / 2 ^ 29 = home).length

/-- Entries of all contexts in one vault. -/
def undoArea (s : State) (home : TileName) : Nat := s.ctxs.foldl (fun n e => n + undoCount e.2 home) 0

/-- The entries of a context in a vault reach half the .undo count of a running kernel (20_fault R455). -/
def undoHalf (s : State) (c : Nat) (home : TileName) : Bool :=
  s.tasks.any fun e => e.2.ctx = c && e.2.st = .running && e.2.undo != 0 && e.2.undo ≤ 2 * undoCount (ctxOf s c) home

/-- A line that is not logged yet finds no room for its undo entry (R248). -/
def undoFull (s : State) (c : Nat) (home : TileName) (frame line : Nat) : Bool :=
  let k := ctxOf s c
  !(k.undo.any fun e => e.1 = vaultLineKey home frame line) &&
    (undoLimit s c ≤ undoCount k home || 65536 ≤ undoArea s home)

/-- The undo-overflow fault of a line, met in gang slab k. -/
def raiseUndoFull (s : State) (own : Owner) (frame line k : Nat) : State :=
  raiseAux s own 16 0 (BitVec.ofNat 64 (frame * 4096 + 64 * line)) k

/-- Write a vault line of a context, logging its old bytes on the first write of the interval; beyond the limit the write
is not made and the context takes the undo-overflow fault (R248). -/
def vaultWriteLine (s : State) (own : Owner) (home : TileName) (frame line : Nat) (v : BitVec 512) : State :=
  let key := vaultLineKey home frame line
  let k := ctxOf s own.ctx
  if k.undo.any fun e => e.1 = key then { s with vault := memPutLine s.vault key v }
  else if undoFull s own.ctx home frame line then raiseUndoFull s own frame line 0
  else
    let old := memLine s.vault key
    let s := modCtx s own.ctx fun k => { k with undo := (key, old) :: k.undo }
    let s := { s with vault := memPutLine s.vault key v }
    if !k.replayReq && undoHalf s own.ctx home then
      postEv s (s.now + 1) ordInput own.ctx none .replayRequest (.replayRequest own.ctx)
    else s

/-! ### Atomics (06_region R154) -/

/-- The value an atomic writes, none for a CAS that fails (R154). -/
def atomNew (op : AtomOp) (old t cmp : Word) : Option Word :=
  match op with
  | .add => some (old + t)
  | .and => some (old &&& t)
  | .or => some (old ||| t)
  | .xor => some (old ^^^ t)
  | .min => some (if old.slt t then old else t)
  | .max => some (if old.slt t then t else old)
  | .xchg => some t
  | .cas => if old = cmp then some t else none

/-- An order code acquires or releases (R151, 13_binding R296). -/
def ordAcquires (o : BitVec 3) : Bool := o = 1 || o = 3 || o = 4
def ordReleases (o : BitVec 3) : Bool := o = 2 || o = 3 || o = 4

/-- The order an atomic that has read old takes: ORD, or FORD for a CAS that fails (R154). -/
def ordTaken (op : AtomOp) (old cmp : Word) (ordc ford : BitVec 3) : BitVec 3 :=
  if op = .cas && old != cmp then ford else ordc

end Sys2Proof.Machine
end

