-- ==== Sys2Proof/Machine/Fabric.lean ====
section
/-! DEFINITION. The route (10_route): links and frames, switch programs, sends, the injection queues and asynchronous items, names, copies. -/

namespace Sys2Proof.Machine

/-! ### Links and frames (R251, R252) -/

def dirIndex : Dir → Nat
  | .w => 0
  | .n => 1
  | .e => 2
  | .s => 3

def dirOf (k : Nat) : Dir := if k = 0 then .w else if k = 1 then .n else if k = 2 then .e else .s

/-- The tile across a link, none at the edge of the grid. -/
def neighbour (t : TileName) (d : Nat) : Option TileName :=
  let c := tileCol t
  let r := tileRow t
  match d with
  | 0 => if 0 < c then some (mkTile (c - 1) r) else none
  | 1 => if 0 < r then some (mkTile c (r - 1)) else none
  | 2 => if c + 1 < 96 then some (mkTile (c + 1) r) else none
  | _ => if r + 1 < 66 then some (mkTile c (r + 1)) else none

/-- Cycles a beat takes over one link: 1, or 3 across a seam. -/
def linkCost (a b : TileName) : Nat := 1 + 2 * seams a b

/-- The phase of a tile (R252). -/
def tilePhase (t : TileName) : Nat :=
  tileCol t + tileRow t + 2 * (tileCol t / 12) + 2 * (tileRow t / 11)

/-- y − φ for east and south outputs, y + φ for west and north. -/
def framePos (t : TileName) (d : Nat) (y : Nat) : Int :=
  if d = 2 || d = 3 then (y : Int) - tilePhase t else y + tilePhase t

/-- Output d carries an asynchronous frame on cycle y (R252). -/
def asyncFrame (t : TileName) (d y : Nat) : Bool := framePos t d y % 4 = 3

/-- That frame is a domain frame: its number is odd. -/
def domainFrame (t : TileName) (d y : Nat) : Bool := (framePos t d y / 4) % 2 = 1

/-! ### Switch programs (R253) -/

def entryOsrc (w : Word) (d : Nat) : Nat := (w.extractLsb' (3 * d) 3).toNat
def entryQs (w : Word) (d : Nat) : Nat := (w.extractLsb' (12 + 2 * d) 2).toNat
def entryRx (w : Word) (d : Nat) : Bool := w.getLsbD (20 + d)
def entryRq (w : Word) (d : Nat) : Nat := (w.extractLsb' (24 + 2 * d) 2).toNat
def entryLres (w : Word) : Bool := w.getLsbD 32
def entryClaim (w : Word) (d : Nat) : Bool := w.getLsbD (33 + d)

/-- Cycles from T0 to cycle y of a tile's count, which has 64 bits. -/
def sinceT0 (p : SwitchProg) (y : Nat) : Nat := (BitVec.ofNat 64 y - BitVec.ofNat 64 p.t0).toNat

/-- The entry that governs cycle y of a tile's count. -/
def progEntry (p : SwitchProg) (y : Nat) : Word := tabGetD 0 p.entries (sinceT0 p y % p.p)

/-- The entry of the present cycle. -/
def entryNow (s : State) (t : TileName) : Word := progEntry (slabOf s t).prog (tileCyc s t).toNat

/-- A program claims some frame (R256). -/
def claims (p : SwitchProg) : Bool := p.entries.any fun e => (List.range 4).any (entryClaim e.2)

/-- The first cycle at or after y on which a program takes effect: the old program's entry 0, or a multiple of 256 when
the reset program runs (R254). -/
def takeEffect (old : SwitchProg) (y : Nat) : Nat :=
  if old.isReset then (y + 255) / 256 * 256
  else y + (old.p - sinceT0 old y % old.p) % old.p

/-- One entry of a program is refused (R254, R256): reserved bits or codes, an output driven on its asynchronous cycle
without a claim in every period, a claim of a wafer frame, a claimed link that leaves the domain. -/
def entryBad (t : TileName) (dmem : Word) (p t0 e : Nat) (w : Word) : Bool :=
  w.extractLsb' 37 27 != 0 || (List.range 4).any fun d =>
    let o := entryOsrc w d
    let y := t0 + e
    let alternates := p / 4 % 2 = 1
    let async := asyncFrame t d y
    let dom := domainFrame t d y
    o = 6 || o = 7 || o = d + 1 ||
      (async && o != 0 && !(entryClaim w d && !alternates && dom)) ||
      (async && entryClaim w d && !alternates && !dom) ||
      (entryClaim w d && !(match neighbour t d with | some n => inDomain dmem n | none => false))

/-- A program is refused (R254). -/
def progBad (t : TileName) (dmem : Word) (p addr t0 : Nat) (es : Tab Word) : Bool :=
  p % 4 != 0 || 256 < p || p = 0 || addr % 64 != 0 || 0x400000 < addr + 8 * p ||
    (List.range p).any fun e => entryBad t dmem p t0 e (tabGetD 0 es e)

/-- A beat put on output d at the end of the present cycle; at the edge of the grid it leaves. -/
def putBeat (s : State) (own : Owner) (t : TileName) (d : Nat) (data : BitVec 512) : State :=
  match neighbour t d with
  | none => s
  | some n =>
    postEv s (s.now + linkCost t n) ordHop s.now (some own) .routerStaticBeat
      (.routerStaticBeat n (dirOf ((d + 2) % 4)) data)

/-- Lanes 16q to 16q+15 of a vector. -/
def quarter (v : Vec) (q : Nat) : BitVec 512 := v.extractLsb' (512 * q) 512

def putQuarter (v : Vec) (q : Nat) (b : BitVec 512) : Vec :=
  let mask : Vec := (BitVec.allOnes 512).setWidth 2048 <<< (512 * q)
  (v &&& ~~~mask) ||| (b.setWidth 2048 <<< (512 * q))

/-- SEND (R257): every slab's own lanes; a slab whose entry does not name LOCAL for the output stops it. -/
def execSend (g : BitVec 5) (d : BitVec 2) (src : BitVec 9) (s : State) : Host.Outcome State Fault Refusal :=
  slotStep s g (680 + d.toNat) fun is s =>
    let ts := gangTiles s is.gang
    let own := issueOwner s is
    match ts.zipIdx.find? fun (t, _) => vecTagged s is t src with
    | some (_, k) => consumeDF s is k
    | none =>
      match ts.zipIdx.find? fun (t, _) => entryOsrc (entryNow s t) d.toNat != 5 with
      | some (_, k) => raiseAux s own 9 3 0 k
      | none => forTiles s ts fun st t =>
          putBeat st own t d.toNat (quarter (readVec s is t src) (entryQs (entryNow s t) d.toNat))

/-- ROUTER_STATIC_BEAT (R253): forwarded to every output that names the input, delivered when RX is set, but for a beat of a
predecessor, whose landings in result ports are dropped (14_kernel R337). -/
def execRouterStaticBeat (s : State) : Host.Outcome State Fault Refusal :=
  match s.arg with
  | .routerStaticBeat t input data =>
    let e := entryNow s t
    let i := dirIndex input
    let own := s.own.getD ⟨0, 0, t, false, 0, 0xFF, 0, s.now⟩
    let s := if entryRx e i && s.own.all (ownerLive s) then
        putVPort s t (156 + i) (putQuarter (slVPort (slabOf s t) (156 + i)) (entryRq e i) data) else s
    .next ((List.range 4).foldl (fun s d => if entryOsrc e d = i + 1 then putBeat s own t d data else s) s)
  | _ => .fault .noOperand

/-- Drop the pending load of a tile's router from the agenda (R254: a second ROUTESET replaces the first). -/
def dropRouteset (s : State) (t : TileName) : State :=
  { s with agenda := s.agenda.filter fun e =>
      !(match e.instr, e.arg with
        | .routesetCheck, .routesetCheck t' => t' = t
        | .switchProgramStart, .switchProgramStart t' => t' = t
        | .operationLanding _ (.routeRow t' _), _ => t' = t
        | _, _ => false) }

/-- ROUTESET (R254): rows read on c+1+q through the N path, the check of every slab at c+64. -/
def execRouteset (g : BitVec 5) (src : BitVec 9) (s : State) : Host.Outcome State Fault Refusal :=
  slotStep s g 685 fun is s =>
    let ts := gangTiles s is.gang
    let own := issueOwner s is
    untagged s is ts src fun s =>
      let st := forTiles s ts fun st t =>
        let w := (readScalar s is t src).val
        let p := (slOpd s is t 684).val.toNat % 512
        let st := dropRouteset st t
        let st := modSlab st t fun sl => { sl with pend := some ⟨own, p, w.toNat % 0x400000, [], none⟩ }
        (List.range ((p + 7) / 8)).foldl (fun st q =>
          postAct st own (s.now + 1 + q) (ordWrite + 2) (.routeRow t q)) st
      postEv st (s.now + 64) ordLand s.now (some own) .routesetCheck (.routesetCheck is.gang)

/-- Row q of a switch program: eight entries, of the last row those below P. -/
def landRouteRow (s : State) (t : TileName) (q : Nat) : State :=
  match (slabOf s t).pend with
  | none => s
  | some p =>
    let es := (List.range (min 8 (p.p - 8 * q))).map fun i => (8 * q + i, padWord s t (p.addr + 64 * q + 8 * i))
    if 0x400000 < p.addr + 8 * p.p then s
    else modSlab s t fun sl => { sl with pend := some { p with entries := tabPuts p.entries es } }

/-- The slabs of a gang whose program in loading is that of the ROUTESET of an owner. -/
def loadingTiles (s : State) (own : Owner) : List TileName :=
  (gangTiles s own.gang).filter fun t =>
    match (slabOf s t).pend with | some p => decide (p.own = own) && p.t0.isNone | none => false

/-- The check of a slab's program in loading, at the cycle it would take effect. -/
def pendBad (s : State) (t : TileName) : Bool :=
  match (slabOf s t).pend with
  | some p =>
    progBad t (gangOf s p.own.gang).dmem p.p p.addr (takeEffect (slabOf s t).prog (tileCyc s t).toNat) p.entries
  | none => false

/-- A slab's program in loading is given its T0. -/
def giveT0 (s : State) (own : Owner) (t : TileName) : State :=
  let y := (tileCyc s t).toNat
  let t0 := takeEffect (slabOf s t).prog y
  let s := modSlab s t fun sl => { sl with pend := sl.pend.map fun p => { p with t0 := some t0 } }
  postEv s (s.now + (t0 - y)) ordLand s.now (some own) .switchProgramStart (.switchProgramStart t)

/-- ROUTESET_CHECK (R254): refused in every slab with one format trap of the gang (11_group R270), or each given its T0. -/
def execRoutesetCheck (s : State) : Host.Outcome State Fault Refusal :=
  match s.arg with
  | .routesetCheck g =>
    match s.own with
    | none => .next s
    | some own =>
      let ts := loadingTiles s own
      match ts.find? (pendBad s) with
      | some t =>
        .next (raiseAux (forTiles s ts fun s u => modSlab s u fun sl => { sl with pend := none }) own 6 4 0
          ((gangTiles s g).idxOf t))
      | none => .next (forTiles s ts fun s t => giveT0 s own t)
  | _ => .fault .noOperand

/-! ### Names (R261, R262) -/

/-- The lowest valid name-cache entry that holds a name. -/
def nameEntry (sl : Slab) (n : TileName) : Option Nat :=
  (List.range 64).find? fun k => (tabGet sl.names k).any fun x => x.toNat = n

/-- The delivery time B (R260). -/
def bound (a b : TileName) : Nat := 16 + 40 * hops a b + 8 * seams a b

/-- NAMELOAD (R261). -/
def execNameload (g : BitVec 5) (src : BitVec 9) (s : State) : Host.Outcome State Fault Refusal :=
  slotStep s g 686 fun is s =>
    let ts := gangTiles s is.gang
    untagged s is ts src fun s => forTiles s ts fun st t =>
      let w := (readScalar s is t src).val
      postLand st (issueOwner s is) (s.now + 4) (.nameLoad t (w.extractLsb' 16 6).toNat (w.setWidth 16))

/-- A name that names no tile leaves the entry without V. -/
def landNameLoad (s : State) (t : TileName) (idx : Nat) (n : BitVec 16) : State :=
  modSlab s t fun sl =>
    { sl with names := if namesTile n.toNat then tabPut sl.names idx n else tabDel sl.names idx }

/-- NAMEQ (R261): its result is read after the writes landing on its cycle. -/
def execNameq (g : BitVec 5) (src : BitVec 9) (s : State) : Host.Outcome State Fault Refusal :=
  slotStep s g 687 fun is s =>
    let ts := gangTiles s is.gang
    untagged s is ts src fun s => forTiles s ts fun st t =>
      postAct st (issueOwner s is) (s.now + 4) (ordLand + 1) (.nameQuery t ((readScalar s is t src).val.setWidth 16))

def nameAnswer (sl : Slab) (t : TileName) (n : BitVec 16) : Word :=
  match nameEntry sl n.toNat with
  | none => 0
  | some k => BitVec.ofNat 64 (2 ^ 63 + bound t n.toNat * 2 ^ 32 + seams t n.toNat * 2 ^ 24 + hops t n.toNat * 2 ^ 16 + k)

def landNameQuery (s : State) (own : Owner) (t : TileName) (n : BitVec 16) : State :=
  landSl s own t 160 (.plain (nameAnswer (slabOf s t) t n))

/-! ### Asynchronous items (R258 to R260) -/

/-- Cycles from y to the next cycle a tile owns for a kind (R258). -/
def toOwned (t : TileName) (wafer : Bool) (y : Nat) : Nat :=
  let q := 2 * (tileRow t % 2) + tileCol t % 2
  let k := 8 * q + (if wafer then 3 else 7)
  (k + 32 - y % 32) % 32

/-- Whether an item to dst travels as a wafer item (R258, R256). -/
def isWafer (s : State) (t : TileName) (dmem : Word) (dst : TileName) : Bool :=
  claims (slabOf s t).prog || !inDomain dmem dst

/-- The next owned cycle of a kind, at or after now + 1, gets its ASYNC_ITEM_SEND unless it has one. -/
def scheduleSend (s : State) (own : Owner) (t : TileName) (wafer : Bool) : State :=
  if s.agenda.any fun e => e.instr = .asyncItemSend && e.arg = .asyncItemSend t wafer then s
  else
    postEv s (s.now + 1 + toOwned t wafer ((tileCyc s t).toNat + 1)) ordSend t (some own) .asyncItemSend
      (.asyncItemSend t wafer)

/-- 64 single-beat items of a kind are queued: those of the present cycle join at its end (R258). -/
def queueFull (s : State) (t : TileName) (wafer : Bool) : Bool :=
  64 ≤ ((if wafer then (slabOf s t).injW else (slabOf s t).injD).filter fun x => x.order < 8 * s.now).length

/-- Insert behind every item of an earlier or equal trigger cycle and unit. -/
def insertItem (x : Item) : List Item → List Item
  | [] => [x]
  | y :: ys => if x.order < y.order then x :: y :: ys else y :: insertItem x ys

/-- Units in the order their items of one cycle are queued (R258). -/
def unitD : Nat := 0
def unitK : Nat := 1
def unitB : Nat := 2
def unitQ : Nat := 3
def unitC : Nat := 4

/-- Queue an item at its trigger cycle. -/
def enqueue (s : State) (own : Owner) (t : TileName) (wafer : Bool) (unit : Nat) (kind : ItemKind) (dst : TileName)
    (eligible : Nat) : State :=
  let x : Item := ⟨own, kind, dst, eligible, 8 * s.now + unit⟩
  let s := modSlab s t fun sl =>
    if wafer then { sl with injW := insertItem x sl.injW } else { sl with injD := insertItem x sl.injD }
  scheduleSend s own t wafer

/-- A barrier arrival or a token is held back while a region that its object binds is unclean (13_binding R301). -/
def heldBack (s : State) (x : Item) : Bool :=
  match x.kind with
  | .arrival n _ _ => unflushed s (gangTiles s x.own.gang) 1 (barAddr n)
  | .token _ _ _ sync => unflushed s (gangTiles s x.own.gang) 2 sync.toNat
  | _ => false

/-- An item may be sent now: it is eligible, and a barrier arrival or a token meets its own conditions
(12_barrier R283, 13_binding R301). -/
def mayLeave (s : State) (t : TileName) (x : Item) : Bool :=
  decide (x.eligible ≤ s.now) && !heldBack s x &&
    (match x.kind with
     | .arrival n _ _ => (getBar s t n).inb = 0 && (getBar s t n).outb = 0
     | _ => true)

/-- Place of a remote request within path N: own tile, then the port it comes in by, west, north, east, south (R139);
a request travels along its row, then along the column (10_route R251). -/
def remoteTurn (src dst : TileName) : Nat :=
  if src = dst then 2
  else if tileRow src < tileRow dst then 4
  else if tileRow dst < tileRow src then 6
  else if tileCol src < tileCol dst then 3 else 5

/-- The destination of an item that goes to a tile; the others go to an engine of the device. -/
def itemTile (x : Item) : Option TileName :=
  match x.kind with
  | .ring _ _ _ | .coll _ _ _ _ | .pageReq _ _ _ _ => none
  | _ => some x.dst

/-- A new program runs on a tile: its own items, copies and releases go on in the kind of frame that it and the domain of
the tile's gang give them (R256, R258); an item to an engine of the device is a wafer item always (15_queue R360, 18_link R423). -/
def rekind (s : State) (t : TileName) : State :=
  let kind (dst : TileName) (was : Bool) : Bool :=
    match gangAt s t with
    | some g => isWafer s t (gangOf s g).dmem dst
    | none => was || claims (slabOf s t).prog
  modSlab s t fun sl =>
    let d := sl.injD.partition fun x => kind x.dst false
    let w := sl.injW.partition fun x => (itemTile x).isNone || kind x.dst true
    { sl with
      injW := d.1.foldl (fun l x => insertItem x l) w.1
      injD := w.2.foldl (fun l x => insertItem x l) d.2
      copies := sl.copies.map fun e => (e.1, { e.2 with wafer := kind e.2.dstTile e.2.wafer })
      releases := sl.releases.map fun r => (r.1, r.2.1, r.2.2.1, kind r.1 r.2.2.2) }

/-- The k-th slot of an output's rotation: W, N, E, S, LOCAL (R259).  Which of five frames is which is open: frame number f
is taken to be slot f mod 5 (log 41). -/
def frameSlot (t : TileName) (d y : Nat) : Nat := (framePos t d y / 4 % 5).toNat

def slotLocal : Nat := 4

/-- The output a beat takes: along the row first, then along the column (R259). -/
def routeDir (t dst : TileName) : Nat :=
  if tileCol dst < tileCol t then 0 else if tileCol t < tileCol dst then 2 else if tileRow dst < tileRow t then 1 else 3

/-- A beat of a kind that came in by input slot i has its turn on output d on cycle y of the tile's count (R252, R259). -/
def hopTurn (t : TileName) (d i : Nat) (wafer : Bool) (y : Nat) : Bool :=
  asyncFrame t d y && domainFrame t d y != wafer && frameSlot t d y = i

/-- An earlier beat uses the present frame of an output. -/
def frameUsed (s : State) (t : TileName) (d : Nat) : Bool :=
  s.frames.any fun f => f.tile = t && f.out = d && f.at_ = s.now

/-- The present frame of an output that a beat meets carries none: the entry that governs this cycle claims it, or the seam
behind it carries no beats (R256, R260). -/
def frameDenied (s : State) (t n : TileName) (d : Nat) (wafer : Bool) : Bool :=
  (!wafer && entryClaim (entryNow s t) d) || (seams t n != 0 && !seamCarries s t n)

/-- A beat looks at its router again on cycle c, if it can still keep its bound; one that cannot, and that has been denied a
frame on its way, is the timing-integrity fault ASYNCBOUND at its source (R256, R260, log 41).  Beats that came in earlier
leave first. -/
def hopOn (s : State) (own : Owner) (t dst : TileName) (i lim since c : Nat) (wafer denied : Bool) : State :=
  if c ≤ lim then post s ⟨c, ordHop, since, some own, .operationLanding own (.hop t dst i lim since wafer denied), .none⟩
  else if denied then raise s own 14 2 else s

/-- A beat at a router: on a frame of its kind and its input's turn it goes on, unless an earlier beat uses the frame or the
frame is denied; else it waits (R259).  At its destination it is held until its delivery (R260). -/
def landHop (s : State) (own : Owner) (t dst : TileName) (i lim since : Nat) (wafer denied : Bool) : State :=
  if t = dst then s
  else
    let d := routeDir t dst
    match neighbour t d with
    | none => s
    | some n =>
      if !hopTurn t d i wafer (tileCyc s t).toNat || frameUsed s t d then hopOn s own t dst i lim since (s.now + 1) wafer denied
      else if frameDenied s t n d wafer then hopOn s own t dst i lim since (s.now + 1) wafer true
      else
        let c := s.now + linkCost t n
        hopOn { s with frames := ⟨t, d, s.now, own⟩ :: s.frames.filter fun f => f.at_ = s.now } own n dst ((d + 2) % 4) lim c c
          wafer denied

/-- A beat leaves its source on the present cycle: it goes from router to router while it is on its way. -/
def sendBeat (s : State) (own : Owner) (t dst : TileName) (wafer : Bool) : State :=
  hopOn s own t dst slotLocal (s.now + bound t dst) s.now s.now wafer false

/-- The cycle on which the link engine takes the last ring item that a tile has sent: one tile's items reach it in the order
they were sent (15_queue R360). -/
def lastRingWrite (s : State) (t : TileName) : Nat :=
  s.agenda.foldl (fun m e => if e.instr = .hostRingEntryWrite && e.sub = t then max m e.at_ else m) 0

/-- Put an item on the fabric on the present owned cycle: its delivery, or its arrival at an engine of the device
(R260, 00_scope R485). -/
def sendItem (s : State) (t : TileName) (wafer : Bool) (x : Item) : State :=
  let s := bumpCounter s x.own.gang 10 1
  let at_ := s.now + bound t x.dst
  let dlv (s : State) (i : Instr) (a : Operand) : State := postEv s at_ ordDeliver t (some x.own) i a
  let s := match itemTile x with | some dst => sendBeat s x.own t dst wafer | none => s
  match x.kind with
  | .arrival n gen send =>
    let s := putBar s t n { getBar s t n with state := if send then 1 else 2 }
    dlv s .arrivalDelivery (.arrivalDelivery x.dst t n gen send)
  | .release n gen => dlv s .releaseDelivery (.releaseDelivery x.dst t n gen)
  | .token addr scope post _ =>
    postEv s at_ (ordWrite + remoteTurn t x.dst) t (some x.own) .tokenDelivery (.tokenDelivery x.dst t addr scope post)
  | .softEvent p => dlv s .softEventDelivery (.softEventDelivery x.dst t p)
  | .align => dlv s .alignmentArrival (.alignmentArrival x.dst t)
  | .watom w =>
    let s := if ordReleases w.ordc then
        postAct s x.own at_ ordCheck
          (.relCheck ⟨w.home, s.now, .load 8, 154, [], some ⟨BitVec.ofNat 64 (0x1000000000000 + w.gva), false, true⟩, 0, none⟩)
      else s
    dlv s .remoteWatomApply (.remoteWatomApply { w with trigAt := s.now })
  | .ring ctx ring v =>
    let (d, s) := freeDelay s
    postEv s (max (s.now + 1 + d) (lastRingWrite s t)) ordDeliver t (some x.own) .hostRingEntryWrite
      (.hostRingEntryWrite ctx ring v (BitVec.ofNat 16 t) 0)
  | .coll ctx comm rank inst =>
    let (d, s) := freeDelay s
    postEv s (s.now + 1 + d) ordEnd t (some x.own) .collContributionArrival
      (.collContributionArrival ctx comm rank inst)
  | .pageReq ctx gen req vpn =>
    let (d, s) := freeDelay s
    postEv s (s.now + 1 + d) ordDeliver t (some x.own) .pageRequestArrival (.pageRequestArrival ctx gen x.dst req vpn)

/-- The oldest active copy of a kind that has beats left to send (R258). -/
def nextCopy (sl : Slab) (now : Nat) (wafer : Bool) : Option (Nat × CopyOp) :=
  (sl.copies.filter fun e => e.2.wafer = wafer && e.2.next < e.2.nb && e.2.start < now).foldl
    (fun b e => match b with
      | none => some e
      | some x => if e.2.order < x.2.order then some e else some x) none

/-- Something of a kind is left to send. -/
def moreToSend (s : State) (t : TileName) (wafer : Bool) : Bool :=
  let sl := slabOf s t
  !(if wafer then sl.injW else sl.injD).isEmpty || (nextCopy sl (s.now + 1) wafer).isSome || sl.releases.any fun r => r.2.2.2 = wafer

/-- What is left to send on a tile has its next owned cycles. -/
def wakeSends (s : State) (own : Owner) (t : TileName) : State :=
  [true, false].foldl (fun s w => if moreToSend s t w then scheduleSend s own t w else s) s

/-- SWITCH_PROGRAM_START (R254): the pending program runs from its T0. -/
def execSwitchProgramStart (s : State) : Host.Outcome State Fault Refusal :=
  match s.arg with
  | .switchProgramStart t =>
    match (slabOf s t).pend with
    | some ⟨own, p, _, es, some t0⟩ =>
      .next (wakeSends (rekind (modSlab s t fun sl => { sl with prog := ⟨p, t0, es, false⟩, pend := none }) t) own t)
    | _ => .next s
  | _ => .fault .noOperand

/-- ASYNC_ITEM_SEND: in an owned cycle the oldest eligible single-beat item, else the oldest release of the kind, else the
next beat of the oldest copy (R258, 12_barrier R286); a STOPPED gang sends nothing (16_context R371), nor does a tile that no
gang drives while its context is stopped (R373). -/
def execAsyncItemSend (s : State) : Host.Outcome State Fault Refusal :=
  match s.arg with
  | .asyncItemSend t wafer =>
    let own := s.own.getD ⟨0, 0, t, false, 0, 0xFF, 0, s.now⟩
    let sl := slabOf s t
    let stopped : Bool := match sl.gang with
      | some g => (gangOf s g).seq = .stopped
      | none => match holderOf s t with
        | some c => !freezable (ctxOf s c).st || (ctxOf s c).resumeAt.isSome
        | none => false
    let s1 :=
      if stopped then s
      else
        match (if wafer then sl.injW else sl.injD).find? (mayLeave s t) with
        | some x =>
          let s := modSlab s t fun sl =>
            if wafer then { sl with injW := sl.injW.erase x } else { sl with injD := sl.injD.erase x }
          sendItem s t wafer x
        | none =>
          match sl.releases.find? fun r => r.2.2.2 = wafer with
          | some r =>
            let s := modSlab s t fun sl => { sl with releases := sl.releases.erase r }
            sendItem s t wafer ⟨own, .release r.2.1 r.2.2.1, r.1, 0, 0⟩
          | none =>
            match nextCopy sl s.now wafer with
            | some (num, c) =>
              let s := modSlab s t fun sl => { sl with copies := tabPut sl.copies num { c with next := c.next + 1 } }
              postAct s c.own s.now ordRead (.copyRead t num c.next)
            | none => s
    let s2 := if moreToSend s1 t wafer then
        postEv s1 (s1.now + 32) ordSend t (some own) .asyncItemSend (.asyncItemSend t wafer) else s1
    .next s2
  | _ => .fault .noOperand

/-! ### Copies (R263, R264) -/

/-- KCOPY (R263): made once, by slab 0; k.r is written in every slab. -/
def execKcopy (g : BitVec 5) (src : BitVec 9) (s : State) : Host.Outcome State Fault Refusal :=
  slotStep s g 674 fun is s =>
    let own := issueOwner s is
    let t := is.gang
    untagged s is (gangTiles s t) src fun s =>
      let w := (readScalar s is t src).val
      let a := (slOpd s is t 672).val.toNat % 0x400000
      let b := (slOpd s is t 673).val
      let dst := (w.extractLsb' 22 16).toNat
      let da := w.toNat % 0x400000
      let nb := (b.extractLsb' 0 11).toNat
      if a % 64 != 0 then raiseAux s own 8 5 (BitVec.ofNat 64 a) 0
      else if da % 64 != 0 then raiseAux s own 8 5 (BitVec.ofNat 64 da) 0
      else if 0x400000 < a + 64 * nb then raiseAux s own 8 4 (BitVec.ofNat 64 a) 0
      else if 0x400000 < da + 64 * nb then raiseAux s own 8 4 (BitVec.ofNat 64 da) 0
      else if nb != 0 && protectedAddr da then raiseAux s own 8 6 (BitVec.ofNat 64 da) 0
      else if nb = 0 || 1024 < nb then raise s own 6 5
      else if (nameEntry (slabOf s t) dst).isNone then raiseAux s own 11 0 (BitVec.ofNat 64 dst) 0
      else
        let result (s : State) (v : Word) : State :=
          forTiles s (gangTiles s t) fun s u => postLand s own (s.now + 1) (.slRes u 155 (.plain v))
        match (List.range 128).find? fun k => (tabGet (slabOf s t).copies k).isNone with
        | none => result s (BitVec.twoPow 64 63)
        | some k =>
          let wafer := isWafer s t (gangOf s t).dmem dst
          let op : CopyOp := ⟨own, a, dst, da, nb, 0, 0, if b.getLsbD 25 then some (b.extractLsb' 16 9).toNat else none,
            if b.getLsbD 35 then some (b.extractLsb' 26 9).toNat else none, b.getLsbD 36, wafer, (slabOf s t).copySeq, s.now⟩
          let s := modSlab s t fun sl => { sl with copies := tabPut sl.copies k op, copySeq := sl.copySeq + 1 }
          result (scheduleSend s own t wafer) (BitVec.ofNat 64 k)

/-- The row of a copy beat, read on its owned cycle, and the beat's delivery (R260, R263). -/
def landCopyRead (s : State) (own : Owner) (t : TileName) (num row : Nat) : State :=
  match tabGet (slabOf s t).copies num with
  | none => s
  | some c =>
    let s := sendBeat (bumpCounter s own.gang 10 1) own t c.dstTile c.wafer
    let data := BitVec.ofNat 512 (padRead s t (c.src + 64 * row) 64)
    let beat : CopyBeat := ⟨own, t, c.dstTile, num, c.dst + 64 * row, data, c.srcBar, c.dstBar, c.post, row + 1 = c.nb⟩
    postEv s (s.now + bound t c.dstTile) (ordWrite + 8) t (some own) .copyBeatDelivery (.copyBeatDelivery beat)

/-- COPY_BEAT_DELIVERY (R263): the destination row through the K path, then the countdowns in the order of
12_barrier R287. -/
def execCopyBeatDelivery (s : State) : Host.Outcome State Fault Refusal :=
  match s.arg with
  | .copyBeatDelivery b =>
    let s := padStore s b.dst b.addr 64 b.data.toNat
    .next (post s ⟨s.now, ordBeat, b.src, some b.own, .operationLanding b.own (.barBeat b), .none⟩)
  | _ => .fault .noOperand

/-- The owner a fault at a delivery is charged to: the gang of the receiving tile, if one drives it (12_barrier R288). -/
def deliveryOwner (s : State) (own : Owner) (t : TileName) : Owner :=
  match gangAt s t with
  | some g => { own with ctx := (gangOf s g).ctx }
  | none => own

/-- Count one beat down in a record; a FREE record is the STRAY fault of the delivery, at the tile that receives it (R280,
R288). -/
def countBeat (s : State) (own : Owner) (at_ t : TileName) (n : Nat) (inbound : Bool) : State :=
  let r := getBar s t n
  if r.state = 0 then raiseDelivery s (deliveryOwner s own at_) 13 5 (BitVec.ofNat 64 n) at_
  else
    let s := putBar s t n (if inbound then { r with inb := r.inb - 1 } else { r with outb := r.outb - 1 })
    post s ⟨s.now, ordDone, t, some own, .operationLanding own (.barCheck t n), .none⟩

/-- The countdown of a delivered beat; after the last one the copy ends and its COPY event is posted (R263), whose payload
no rule gives (log 17). -/
def landBarBeat (s : State) (b : CopyBeat) : State :=
  let s := match b.dstBar with | some n => countBeat s b.own b.dst b.dst n true | none => s
  let s := match b.srcBar with | some n => countBeat s b.own b.dst b.src n false | none => s
  match tabGet (slabOf s b.src).copies b.num with
  | none => s
  | some c =>
    if c.delivered + 1 < c.nb then
      modSlab s b.src fun sl => { sl with copies := tabPut sl.copies b.num { c with delivered := c.delivered + 1 } }
    else
      let s := modSlab s b.src fun sl => { sl with copies := tabDel sl.copies b.num }
      if c.post then postEventAt s b.src b.src (openEvent 6 (BitVec.ofNat 16 b.num)) else s

/-- KSTAT (R264): it names no remote party, so its result stands in slab 0 alone (11_group R269, 16_context R379; log 24). -/
def execKstat (g : BitVec 5) (src : BitVec 9) (s : State) : Host.Outcome State Fault Refusal :=
  slotStep s g 675 fun is s =>
    let t := is.gang
    untagged s is (gangTiles s t) src fun s =>
      let w := (readScalar s is t src).val
      let cs := (slabOf s t).copies
      let v : Word :=
        if w.getLsbD 7 then BitVec.ofNat 64 cs.length
        else match tabGet cs (w.toNat % 128) with
          | some c => BitVec.ofNat 64 (2 ^ 63 + (c.nb - c.delivered) * 2 ^ 32)
          | none => 0
      postLand s (issueOwner s is) (s.now + 1) (.slRes t 155 (.plain v))

end Sys2Proof.Machine
end

