-- ==== Sys2Proof/Machine/Sequencer.lean ====
section
/-! DEFINITION. The sequencer (05_sequencer R106 to R134): issuing a bundle, the block end, waits and their completions, event delivery and return. -/

namespace Sys2Proof.Machine

/-! ### Operations in flight (R123, R133, 16_context R372) -/

/-- The task an event of the agenda works for. -/
def evTask (e : Ev) : Nat := match e.own with | some o => o.task | none => 0

/-- An operation of a tile's units that has still to land (R133). -/
def isUnitOp (i : Instr) : Bool :=
  match i with
  | .operationLanding _ (.traceRow _) => false
  | .operationLanding _ (.invalStop _) => false
  | .operationLanding _ (.barCheck _ _) => false
  | .operationLanding _ (.hop _ _ _ _ _ _ _) => false
  | .operationLanding _ (.refresh _) => false
  | .operationLanding _ .throttle => false
  | .operationLanding _ _ => true
  | .routineLanding => true
  | .wfillLanding => true
  | .wflushLanding => true
  | .watomApply => true
  | .remoteWatomApply => true
  | .remoteWatomReply => true
  | .routesetCheck => true
  | .remoteAccessArrival => true
  | .mnop _ => true
  | .mlda _ _ _ => true
  | .mldb _ _ _ => true
  | .mstep _ _ _ _ => true
  | .mchk _ _ => true
  | .mloop _ _ => true
  | .mend _ => true
  | .mhad _ _ => true
  | .mdrain _ _ _ _ => true
  | .mflag _ _ => true
  | .mzero _ _ => true
  | .mswap _ => true
  | .msig _ _ => true
  | .msnap _ => true
  | .mwait0 _ => true
  | .mhalt _ => true
  | _ => false

/-- Unit operations of a task on a gang, in the agenda. -/
def unitOps (s : State) (g : TileName) (task : Nat) : List Ev :=
  s.agenda.filter fun e => isUnitOp e.instr && evTask e = task && (match e.own with | some o => o.gang = g | none => false)

/-- An atomic of a gang's task that waits in its injection queues (09_window R241). -/
def queuedAtom (s : State) (g : TileName) (task : Nat) : Bool :=
  (gangTiles s g).any fun t => ((slabOf s t).injW ++ (slabOf s t).injD).any fun x =>
    x.own.task = task && (match x.kind with | .watom _ => true | _ => false)

/-- What also counts as in flight at a quiet point: copies, remote atomics, page requests whose answer the gang has not
taken (R372). -/
def quietBusy (s : State) (g : TileName) : Bool :=
  let gg := gangOf s g
  !(unitOps s g gg.task).isEmpty || queuedAtom s g gg.task || (gg.events.any fun e => e.word.getLsbD 1) ||
    (gangTiles s g).any fun t => !(slabOf s t).copies.isEmpty || !(slabOf s t).requests.isEmpty

/-- The kinds of quiet point that a request is pending for (R122): bit 0 PREEMPT, 1 REPLAY, 2 INVAL. -/
def requestKinds (s : State) (g : TileName) : BitVec 3 :=
  let k := ctxOf s (gangOf s g).ctx
  (match k.quiesce with | some (m, _) => m | none => 0) ||| (if k.replayReq then 2 else 0) |||
    (if k.invals.any fun i => i.gangs.contains g && !i.expired then 4 else 0)

/-! ### Waits (02_bundle R52) -/

/-- A beginning segment whose origin is the next cycle (R52, 04_scalar R90). -/
def segmentNext (s : State) (g : TileName) : State := segmentIn s g 1

/-- A wait of C, which completes on the origin of the next segment itself (R124, R128); the segment that follows another
wait begins on the cycle after its completion (02_bundle R52, log 125). -/
def cWait : WaitKind → Bool
  | .waitev _ => true
  | .cycwait _ => true
  | .cycalign => true
  | _ => false


/-- The wait of a gang that satisfies p. -/
def findWait (s : State) (g : TileName) (p : WaitKind → Bool) : Option WaitKind :=
  let gg := gangOf s g
  if gg.seq = .waiting then gg.waits.find? p else none

/-- An owner for what the sequencer of a gang starts. -/
def gangOwner (s : State) (g : TileName) : Owner :=
  let gg := gangOf s g
  ⟨gg.ctx, gg.task, g, gg.handler, gg.pc, 0xFF, 0, s.now⟩

/-- The last wait has completed, and cycle o, this one or the next, is the origin of a new segment: the acquires of the
block's BARWAITs act at its start, and the next bundle issues on it. -/
def finishWaits (s : State) (g : TileName) (o : Nat) : State :=
  let gg := gangOf s g
  let s := segmentIn (bumpCounter s g 1 (o - 1 - gg.waitStart)) g (o - s.now)
  let s := gg.acqs.foldl (fun s n => postAct s (gangOwner s g) o (ordWait + 1) (.acquire 1 (BitVec.ofNat 64 n))) s
  issueAt (modGang s g fun gg => { gg with acqs := [] }) g o

/-- One wait of a gang has completed on the present cycle. -/
def waitDone (s : State) (g : TileName) (w : WaitKind) : State :=
  let gg := gangOf s g
  if gg.seq != .waiting || !gg.waits.contains w then s
  else
    let rest := gg.waits.erase w
    let o := max gg.waitEnd (if cWait w then s.now else s.now + 1)
    let s := modGang s g fun gg => { gg with waits := rest, waitEnd := o }
    if rest.isEmpty then finishWaits s g o else s

/-- The gangs of a gang's task. -/
def taskGangs (s : State) (task : Nat) : List TileName :=
  match tabGet s.tasks task with
  | some t => t.gangs.map (·.1)
  | none => []

/-- Every gang of a task has seen every gang of it arrive (R129 step 2). -/
def allAligned (s : State) (task : Nat) : Bool :=
  let gs := taskGangs s task
  gs.all fun g => gs.all fun h => (gangOf s g).aligned.any fun a => a.1 = h

/-- Heartbeats of a gang (19_tile R440): the next is due when its cyc is a multiple of 2^20, and one must come within
2^20 + 4,096 cycles of the last. -/
def beatPeriod : Nat := 2 ^ 20
def beatAllowance : Nat := 2 ^ 20 + 4096

def nextBeat (s : State) (g : TileName) : Nat := s.now + (beatPeriod - (tileCyc s g).toNat % beatPeriod)

/-- No heartbeat of a gang is pending. -/
def dropBeat (s : State) (g : TileName) : State :=
  { s with agenda := s.agenda.filter fun e => !decide (e.arg = .heartbeat g) }

/-- The gang's next heartbeat is due when its count, as it is now, reaches its multiple: on this cycle, unless the gang has sent
one on it (19_tile R440). -/
def dueBeat (s : State) (g : TileName) : State :=
  let at_ := if (tileCyc s g).toNat % beatPeriod = 0 && (gangOf s g).lastBeat != s.now then s.now else nextBeat s g
  postEv (dropBeat s g) at_ ordInput g none .heartbeat (.heartbeat g)

/-- The gang's heartbeats, its allowance counted from the present cycle on. -/
def postBeats (s : State) (g : TileName) : State :=
  let s := modGang (dueBeat s g) g fun gg => { gg with lastBeat := s.now }
  postEv s (s.now + beatAllowance) ordEnd g none .heartbeatTimeout (.heartbeatTimeout g)

/-- The gang's count has been corrected: its next heartbeat follows the new count. -/
def retimeBeat (s : State) (g : TileName) : State :=
  if s.agenda.any fun e => decide (e.arg = .heartbeat g) then dueBeat s g else s

/-- The cycle of the last arrival of a task's gangs, each at its own announcement (R129 step 3). -/
def lastArrival (s : State) (gs : List TileName) : Nat :=
  gs.foldl (fun m g => ((gangOf s g).aligned.filter fun a => a.1 = g).foldl (fun m a => max m a.2) m) 0

/-- The cycle on which an alignment completes: the first multiple of 256 at least 64 cycles after the last arrival; seen by
all only after that multiple, the next multiple to come (R129, log 28). -/
def alignmentEnd (now last : Nat) : Nat := (max (last + 64) (now + 1) + 255) / 256 * 256

/-- An alignment arrival of gang src is seen at gang dst: when dst has seen all it corrects its cyc, and when every gang
has, the wait of each completes on one corrected cycle (R129). -/
def seeArrival (s : State) (dst src : TileName) : State :=
  let task := (gangOf s dst).task
  let s := modGang s dst fun gg => { gg with aligned := gg.aligned ++ [(src, s.now)] }
  let gs := taskGangs s task
  let s :=
    if gs.all fun h => (gangOf s dst).aligned.any fun a => a.1 = h then
      let d := (gangOf s dst).tst.diff.toInt
      let s := forTiles s (gangTiles s dst) fun s t => modSlab s t fun sl => { sl with skew := sl.skew - d }
      let s := retimeBeat s dst
      modGang s dst fun gg => { gg with tst := { gg.tst with drift := false, diff := 0 } }
    else s
  if allAligned s task then
    let at_ := alignmentEnd s.now (lastArrival s gs)
    gs.foldl (fun s g =>
      let s := modGang s g fun gg => { gg with aligned := [] }
      postEv s at_ ordWait g (some (gangOwner s g)) .cycalignComplete (.cycalignComplete g)) s
  else s

/-- A gang announces its arrival to the gangs of its domain (R129 step 1); a queue that was full before this cycle takes
nothing, with the timing fault ASYNCFULL (10_route R258).  Its items stand behind those of the units D, K, B and Q of their cycle
(DESIGN CHOICE, log 172). -/
def announce (s : State) (g : TileName) : State :=
  let gg := gangOf s g
  let own := gangOwner s g
  let kind (h : TileName) : Bool := isWafer s g gg.dmem h
  let others := (taskGangs s gg.task).filter (· != g)
  let s := if others.any fun h => queueFull s g (kind h) then raise s own 9 6 else s
  let s := others.foldl (fun s h =>
    if queueFull s g (kind h) then s else enqueue s own g (kind h) unitC .align h (s.now + 1)) s
  seeArrival s g g

/-- Start a wait at the block end: when it completes, or when it is first looked at (R125, R128, R129, R133). -/
def startWait (s : State) (g : TileName) (w : WaitKind) : State :=
  let own := some (gangOwner s g)
  let e := s.now
  match w with
  | .waitev _ => postEv s (e + 1) ordWait g own .waitevComplete (.waitevComplete g)
  | .cycwait t =>
    let c1 := (tileCyc s g + 1).toNat
    postEv s (e + 1 + (t.toNat - c1)) ordWait g own .cycwaitComplete (.cycwaitComplete g)
  | .cycalign => announce s g
  | .barwait n => postEv s (e + 1) ordWait g own .barwaitComplete (.barwaitComplete g n)
  | .bankwait u m _ => postEv s (e + 1) ordWait g own .bankwaitComplete (.bankwaitComplete g u m)
  | .rgnmap u r d =>
    let s := forTiles s (gangTiles s g) fun s t => postAct s (gangOwner s g) e ordRead (.mapStart t r d)
    postEv s (e + 1) ordWait g own .rgnmapComplete (.rgnmapComplete g u r)
  | .collwait => postEv s (e + 1) ordWait g own .collwaitComplete (.collwaitComplete g)
  | .sys n a =>
    let k := s.freeCount
    let (d, s) := freeDelay s
    let v := if Config.sysServed n.toNat then Config.sysAnswer n.toNat a k else BitVec.allOnes 64
    postEv s (e + 1 + d) ordWait g own .sysAnswer (.sysAnswer g v)

/-- The gang enters WAITING for a list of waits. -/
def enterWaits (s : State) (g : TileName) (ws : List WaitKind) : State :=
  let s := modGang s g fun gg => { gg with seq := .waiting, waits := ws, waitStart := s.now, waitEnd := 0, acqs := [] }
  ws.foldl (fun s w => startWait s g w) s

/-! ### The block end (R110) -/

/-- Why a block end stops: a control trap with its cause, slot and port, or an exit collision under EXITSTRICT. -/
inductive EndTrap where
  | ctl (cause slot port : Nat)
  | collision (slot port : Nat)
deriving DecidableEq, Repr

/-- Add the strides of a level to s60 to s63, leaving DF (R115, 04_scalar R82). -/
def addStrides (g : Gang) (l : LoopLevel) : Gang :=
  (List.range 4).foldl (fun g i =>
    let v := tabGetD TV.zero g.s (60 + i)
    { g with s := tabPut g.s (60 + i) { v with val := v.val + (l.strides.extractLsb' (16 * i) 16).signExtend 64 } }) g

/-- The back-edge of the innermost level, repeated for each level it pops (R115). -/
def backEdge (b : Nat) : Nat → Gang → Nat → Gang × Nat
  | 0, g, next => (g, next)
  | f + 1, g, next =>
    match g.loops with
    | [] => (g, next)
    | l :: rest =>
      if l.last != b then (g, next)
      else
        let g := addStrides g l
        let i := l.iter + 1
        if i.ult l.trips then ({ g with loops := { l with iter := i } :: rest }, l.start)
        else backEdge b f { g with loops := rest } (b + 1)

/-- What a block end decides: the gang after steps 2 to 6, the next bundle, the exit that won. -/
structure EndOut where
  g    : Gang
  next : Nat
  exit : Option ExitRec
deriving DecidableEq, Repr

/-- Step 2: a pending BRKL pops its levels (R117). -/
def endBrkl (g : Gang) : Except EndTrap Gang :=
  match g.blk.lop with
  | some l =>
    if l.port = 265 then
      (if l.n = 7 || g.loops.length < l.n then .error (.ctl 4 l.slot l.port) else .ok { g with loops := g.loops.drop l.n })
    else .ok g
  | none => .ok g

/-- Steps 3 to 5: the winning exit, or the back-edge (R111 to R115, R133, R134).  A call whose target is out of range and
that finds 16 entries raises EXITRANGE: no rule orders the two traps (DESIGN CHOICE, log 126). -/
def endExit (g : Gang) (b : Nat) : Except EndTrap EndOut :=
  match g.blk.exit with
  | none =>
    -- in HANDLER the levels are hidden (R134)
    if g.handler then .ok ⟨g, b + 1, none⟩ else let (g, n) := backEdge b 7 g (b + 1); .ok ⟨g, n, none⟩
  | some x =>
    if g.blk.xcol && g.tctl.exitstrict then .error (.collision x.slot x.port)
    else
      let g := if g.blk.xcol then { g with tst := { g.tst with excol := true } } else g
      let jumps := x.port = 258 || x.port = 259 || x.port = 260 || x.port = 261 || x.port = 266 || x.port = 267
      let calls := x.port = 260 || x.port = 261
      if jumps && 8191 < x.tgt.toNat then .error (.ctl 1 x.slot x.port)
      else if calls && 16 ≤ g.calls.length then .error (.ctl 5 x.slot x.port)
      else if calls then .ok ⟨{ g with calls := (b + 1) :: g.calls }, x.tgt.toNat, some x⟩
      else if jumps then .ok ⟨g, x.tgt.toNat, some x⟩
      else if x.port = 262 then
        (match g.calls with
         | [] => .error (.ctl 6 x.slot x.port)
         | r :: rest => .ok ⟨{ g with calls := rest }, r, some x⟩)
      else if x.port = 282 then
        (if g.handler then .ok ⟨{ g with handler := false }, g.eret, some x⟩ else .error (.ctl 7 x.slot x.port))
      else .ok ⟨g, b + 1, some x⟩

/-- Step 6: a pending LOOP or LOOPM pushes its level (R114, R116). -/
def endLoop (o : EndOut) : Except EndTrap EndOut :=
  match o.g.blk.lop with
  | none => .ok o
  | some l =>
    if l.port = 265 then .ok o
    else if 8191 < l.e.toNat || l.e.toNat < o.next then .error (.ctl 3 l.slot l.port)
    else if 6 ≤ o.g.loops.length then .error (.ctl 2 l.slot l.port)
    else if l.n = 0 then .ok { o with next := l.e.toNat + 1 }
    else .ok { o with g := { o.g with
      loops := ⟨o.next, l.e.toNat, BitVec.ofNat 32 l.n, 0, l.strides⟩ :: o.g.loops } }

/-- Step 9: the event to deliver on an EVENT tile, and the trap of a bad e6 (R134, 16_context R378). -/
def endEvent (g : Gang) : Except EndTrap (Option Word) :=
  if !g.tctl.event || g.handler then .ok none
  else
    match pickEvent g.events g.tctl.evm with
    | none => .ok none
    | some w => if 8191 < (tabGetD TV.zero g.e 6).val.toNat then .error (.ctl 1 0xFF 0) else .ok (some w)

/-- Steps 1 to 6 of a block end, pure.  A trap at a later step discards the whole decision, and with it the EXCOL flag of a
collision (DESIGN CHOICE, log 127). -/
def endDecide (g : Gang) (b : Nat) : Except EndTrap EndOut :=
  match g.blk.trap with
  | some (cause, slot, port) => .error (.ctl cause slot port)
  | none => do
    let g ← endBrkl g
    let o ← endExit g b
    endLoop o

/-- An end trap: the fault, and the fall-through at e+1 with nothing else of the block (20_fault R486). -/
def endFault (s : State) (is : Issue) (x : EndTrap) : State :=
  let own := issueOwner s is
  let s := match x with
    | .ctl cause slot port => raise s { own with slot := slot, trig := port } 3 cause
    | .collision slot port => raise s { own with slot := slot, trig := port } 2 0
  let s := modGang s is.gang fun gg => { gg with pc := is.pc + 1, blk := .empty }
  postBundle s is.gang (s.now + 1)

/-- Deliver an event: ERET, HANDLER, e7, the handler's first bundle at e+1, a new segment (R134, 16_context R378). -/
def deliverEvent (s : State) (g : TileName) (next : Nat) (w : Word) : State :=
  let entry := (tabGetD TV.zero (gangOf s g).e 6).val.toNat
  let s := modGang s g fun gg =>
    { gg with eret := next, handler := true, seq := .handler, pc := entry, e := tabPut gg.e 7 (.plain w),
              events := dropEvent gg.events w }
  postBundle (segmentNext s g) g (s.now + 1)

/-- HALT: nothing more issues; the gang drains (R133, 14_kernel R334). -/
def haltGang (s : State) (g : TileName) (code : Word) : State :=
  let gg := gangOf s g
  let last := (unitOps s g gg.task).foldl (fun m e => max m e.at_) s.now
  let s := modGang s g fun gg => { gg with seq := .halting, haltCode := code.setWidth 8, blk := .empty, waitStart := s.now }
  let s := modTask s gg.task fun t =>
    { t with gangs := t.gangs.map fun e => if e.1 = g then (e.1, 2, code.setWidth 8) else e }
  postEv s (last + 1) (ordWait - 1) g (some (gangOwner s g)) .haltDrainComplete (.haltDrainComplete g gg.task)

/-- Step 7: the gang takes its quiet point (R122); with INVAL the map units act before the resume (17_page R402). -/
def takePoint (s : State) (g : TileName) (kinds : BitVec 3) (next : Nat) (ws : List WaitKind) : State :=
  let s := modGang s g fun gg =>
    { gg with seq := .stopped, stopKinds := kinds, pc := next, waits := ws, blk := .empty }
  if kinds.getLsbD 2 then
    let (d, s) := freeDelay s
    postAct s (gangOwner s g) (s.now + 1 + d) ordWait (.invalStop g)
  else s

/-- The end of a block at the cycle of its END bundle (R110).  A HALT that wins drops the waits that the block fired (DESIGN CHOICE,
log 171). -/
def blockEnd (s : State) (is : Issue) : State :=
  let g0 := gangOf s is.gang
  let b := is.pc
  let own := issueOwner s is
  match endDecide g0 b with
  | .error x => endFault s is x
  | .ok o =>
    -- a CYCALIGN without a QPOINT is the timing-integrity fault, and its wait does not start (R129)
    let noQp := g0.blk.waits.contains .cycalign && g0.blk.qpSlot = 0xFF
    let ws := if noQp then g0.blk.waits.erase .cycalign else g0.blk.waits
    let ws := match o.exit with
      | some x => if x.port = 281 then ws ++ [.sys x.tgt x.aux] else ws
      | none => ws
    let halts : Bool := match o.exit with | some x => x.port = 284 | none => false
    let kinds := g0.blk.qp &&& requestKinds s is.gang
    let takes := kinds != 0 && !quietBusy s is.gang && !halts
    match (if ws.isEmpty && !takes && !halts then endEvent { o.g with handler := g0.handler } else .ok none) with
    | .error x => endFault s is x
    | .ok ev =>
      let s := modGang s is.gang fun _ => { o.g with pc := o.next, blk := .empty }
      let s := if noQp then raise s own 14 3 else s
      let s := match o.exit with
        | some x =>
          let s := bumpCounter s is.gang 5 1
          if x.port = 280 then raiseAux s { own with slot := x.slot, trig := 280 } 4 0 x.tgt 0 else s
        | none => s
      let s := if kinds != 0 && quietBusy s is.gang && !halts then
          raise s { own with slot := g0.blk.qpSlot, trig := 268 } 17 0 else s
      if halts then haltGang s is.gang (match o.exit with | some x => x.tgt | none => 0)
      else if takes then takePoint s is.gang kinds o.next ws
      else if !ws.isEmpty then enterWaits s is.gang ws
      else match ev with
        | some w => deliverEvent s is.gang o.next w
        | none =>
          let back := g0.handler && !(gangOf s is.gang).handler
          let s := if back then segmentNext (modGang s is.gang fun gg => { gg with seq := .issuing }) is.gang else s
          postBundle s is.gang (s.now + 1)

/-! ### Issuing a bundle (02_bundle R33, R53, R54; R486) -/

/-- The bundle at an index: an index that no object holds is an empty bundle with END = 1 (14_kernel R330). -/
def fetchBundle (k : Ctx) (pc : Nat) : BitVec 256 := tabGetD (BitVec.twoPow 256 63) k.image pc

/-- Exchange the shape registers of an engine with their shadows (R32). -/
def swapShapes (sl : Slab) (keys : List Nat) : Slab :=
  keys.foldl (fun sl k =>
    let a := tabGetD (shapeReset k) sl.shape k
    let b := tabGetD (shapeReset k) sl.shadow k
    { sl with shape := tabPut sl.shape k b, shadow := tabPut sl.shadow k a }) sl

/-- The keys that the SWAP bits of a header select (R28). -/
def swapKeys (h : Word) : List Nat :=
  (List.range 4).flatMap fun k => if hdrSwap h k then (List.range 4).map (4 * k + ·) else []

/-- Register writes act before c.tctl and c.tstclr, and those before triggers: a trigger sees every write of its bundle
(R33).  FLOAD and the triggers of M come after the other triggers, because of two V-path accesses of one bundle they are
the ones that fault (07_vector R193, 08_accumulator R223). -/
def workRank (w : BitVec 24) : Nat :=
  let d := slotPort w
  if registerDest d then 0 else if d = 285 || d = 286 then 1 else if d = 577 then 3
  else if 608 ≤ d && d ≤ 613 then 4 else 2

/-- The slots of a bundle whose iteration flag holds, in the order they act. -/
def bundleWork (g : Gang) (b : BitVec 256) : List (Nat × BitVec 24) :=
  let h := bundleHeader b
  let l := selectedLevel g (hdrLvl h)
  let ws := ((List.range 8).map fun i => (i, bundleSlot b i)).filter fun e => flagHolds l (hdrFlag h e.1)
  (List.range 5).flatMap fun r => ws.filter fun e => workRank e.2 = r

/-- A gang issues its bundle of the present cycle: fetch, decode check, SWAP, the values its sources read.  A block's sixteenth bundle
without END names the header, which no slot of it does (DESIGN CHOICE, log 170). -/
def openBundle (s : State) (g : TileName) : State :=
  let gg := gangOf s g
  let own : Owner := ⟨gg.ctx, gg.task, g, gg.handler, gg.pc, 0xFF, 0, s.now⟩
  if gg.seq != .issuing && gg.seq != .handler then s
  else if 8191 < gg.pc then
    -- the sequencer stays as it is and issues nothing up to the freeze edge (20_fault R486)
    let met : Bool := (s.own.map (·.pc)) = some 8192 && !(ctxOf s gg.ctx).faults.isEmpty
    let s := bumpCounter (if met then s else raise s { own with pc := 8192 } 1 0) g (if gg.handler then 2 else 0) 1
    postEv s (s.now + 1) ordIssue g (some { own with pc := 8192 }) (.bundleIssue g) .none
  else
    let b := fetchBundle (ctxOf s gg.ctx) gg.pc
    let sixteenth := gg.blk.bpos = 15 && !hdrEnd (bundleHeader b)
    let bad := match bundleOffender b with | some i => some i | none => if sixteenth then some 8 else none
    let s := matchBreak s gg.ctx g 2 fun v => v.toNat % 8192 = gg.pc
    let s := bumpCounter s g (if gg.handler then 2 else 0) 1
    match bad with
    | some i =>
      let hdr : Word := if hdrEnd (bundleHeader b) || sixteenth then BitVec.twoPow 64 63 else 0
      let s := raise s { own with slot := i } 1 0
      { s with issue := some ⟨g, gg.pc, hdr, 0, 0, [], none, 0⟩ }
    | none =>
      let ks := swapKeys (bundleHeader b)
      let s := if ks.isEmpty then s else modSlabs s g fun sl => swapShapes sl ks
      let snap : Snap := ⟨gangOf s g, (gangTiles s g).map fun t => (t, slabOf s t)⟩
      { s with issue := some ⟨g, gg.pc, bundleHeader b, 0, 0, bundleWork gg b, some snap, 0⟩ }

/-- Every slot has acted: the block goes on, or ends. -/
def closeBundle (s : State) (is : Issue) : State :=
  let s := { s with issue := none }
  let s := modGang s is.gang fun gg =>
    { gg with lastIssue := some (s.now, is.pc, is.fired), blk := { gg.blk with bpos := gg.blk.bpos + 1 }, pc := is.pc + 1 }
  if hdrEnd is.hdr then blockEnd s is else postBundle s is.gang (s.now + 1)

/-- BUNDLE_ISSUE (R33): opens the bundle of a gang, or closes the one in hand. -/
def execBundleIssue (g : TileName) (s : State) : Host.Outcome State Fault Refusal :=
  match s.issue with
  | some is => .next (closeBundle s is)
  | none => .next (openBundle s g)

/-! ### Completions of the waits of C -/

/-- Look again on the next cycle. -/
def again (s : State) (g : TileName) (i : Instr) : State :=
  postEv s (s.now + 1) ordWait g s.own i s.arg

/-- WAITEV_COMPLETE (R125): the oldest event of the lowest enabled class goes to c.r; a mask of 0 completes with 0. DESIGN
CHOICE (log 154): an event delivered on this cycle counts from the next on. -/
def execWaitevComplete (s : State) : Host.Outcome State Fault Refusal :=
  match s.arg with
  | .waitevComplete g =>
    match findWait s g (fun w => match w with | .waitev _ => true | _ => false) with
    | some (.waitev m) =>
      if m = 0 then .next (waitDone (putFE s g (gangOf s g).handler 136 .zero) g (.waitev m))
      else
        (match pickEvent (gangOf s g).events m with
         | none => .next (again s g .waitevComplete)
         | some w =>
           let s := modGang s g fun gg => { gg with events := dropEvent gg.events w }
           .next (waitDone (putFE s g (gangOf s g).handler 136 (.plain w)) g (.waitev m)))
    | _ => .next s
  | _ => .fault .noOperand

/-- CYCWAIT_COMPLETE (R128). -/
def execCycwaitComplete (s : State) : Host.Outcome State Fault Refusal :=
  match s.arg with
  | .cycwaitComplete g =>
    match findWait s g (fun w => match w with | .cycwait _ => true | _ => false) with
    | some w => .next (waitDone s g w)
    | none => .next s
  | _ => .fault .noOperand

/-- CYCALIGN_COMPLETE (R129). -/
def execCycalignComplete (s : State) : Host.Outcome State Fault Refusal :=
  match s.arg with
  | .cycalignComplete g => .next (waitDone s g .cycalign)
  | _ => .fault .noOperand

/-- ALIGNMENT_ARRIVAL (R129): a gang of the domain has announced its arrival. -/
def execAlignmentArrival (s : State) : Host.Outcome State Fault Refusal :=
  match s.arg with
  | .alignmentArrival dst src => .next (seeArrival s dst src)
  | _ => .fault .noOperand

/-- SYS_ANSWER (R133, R487): the answer goes to c.r, on the origin of a new segment. -/
def execSysAnswer (s : State) : Host.Outcome State Fault Refusal :=
  match s.arg with
  | .sysAnswer g a =>
    match findWait s g (fun w => match w with | .sys _ _ => true | _ => false) with
    | some w => .next (waitDone (putFE s g (gangOf s g).handler 136 (.plain a)) g w)
    | none => .next s
  | _ => .fault .noOperand

end Sys2Proof.Machine
end

