-- ==== Sys2Proof/Machine/Barrier.lean ====
section
/-! DEFINITION. The barrier unit B (12_barrier R279 to R288). -/

namespace Sys2Proof.Machine

/-- A trigger of B: made once, by slab 0 (11_group R269). -/
def barStep (s : State) (g : BitVec 5) (port : Nat) (src : BitVec 9) (f : Issue → State → Owner → Word → Nat → State) :
    Host.Outcome State Fault Refusal :=
  slotStep s g port fun is s => untagged s is (gangTiles s is.gang) src fun s =>
    let w := (readScalar s is is.gang src).val
    f is s (issueOwner s is) w (w.toNat % 512)

/-- b.opa. -/
def bOpa (s : State) (is : Issue) : Word := (slOpd s is is.gang 704).val

/-- The barrier fault (R288). DESIGN CHOICE (log 165): AUX is the record index. -/
def barFault (s : State) (own : Owner) (cause n : Nat) : State := raiseAux s own 13 cause (BitVec.ofNat 64 n) 0

/-- BARINIT (R282). DESIGN CHOICE (log 160): the name of HOME, then BUSY, then BADCOUNT, the first alone. -/
def execBarinit (g : BitVec 5) (src : BitVec 9) (s : State) : Host.Outcome State Fault Refusal :=
  barStep s g 705 src fun is s own w n =>
    let o := bOpa s is
    let r := getBar s is.gang n
    let free := w.getLsbD 9
    let home := (o.extractLsb' 16 16).toNat
    if !free && !namesTile home then raiseAux s own 11 0 (BitVec.ofNat 64 home) 0
    else if r.state = 2 || r.state = 3 || r.arr != 0 || r.inb != 0 || r.outb != 0 ||
        (slabOf s is.gang).relList.any fun e => e.1 = n then barFault s own 3 n
    else if !free && home = is.gang && o.setWidth 16 = (0 : BitVec 16) then barFault s own 4 n
    else
      let new : BarRec :=
        if free then ⟨false, 0, 0, 0, 0, 0, 0, 0⟩
        else ⟨o.getLsbD 32, o.extractLsb' 16 16, 1, 0, 0, 0, o.setWidth 16, 0⟩
      postAct s own (s.now + 2) ordBar (.barWrite is.gang n new)

/-- BARARR (R283): HELD at c+1; the item holds its place from the trigger. DESIGN CHOICE (log 162): the record's checks, then
the name, then the queue, the first alone. -/
def execBararr (g : BitVec 5) (src : BitVec 9) (s : State) : Host.Outcome State Fault Refusal :=
  barStep s g 706 src fun is s own _ n =>
    let t := is.gang
    let r := getBar s t n
    let home := r.home.toNat
    let wafer := isWafer s t (gangOf s t).dmem home
    if r.state = 0 then barFault s own 1 n
    else if r.state != 1 then barFault s own 2 n
    else if home != t && (nameEntry (slabOf s t) home).isNone then raiseAux s own 11 0 (BitVec.ofNat 64 home) 0
    else if queueFull s t wafer then raise s own 9 6
    else enqueue (postLand s own (s.now + 1) (.barHeld t n)) own t wafer unitB (.arrival n r.gen r.send) home (s.now + 1)

/-- BARWAIT (R285). -/
def execBarwait (g : BitVec 5) (src : BitVec 9) (s : State) : Host.Outcome State Fault Refusal :=
  barStep s g 707 src fun is s own _ n =>
    if (getBar s is.gang n).state = 0 then barFault s own 1 n else recordWait s is.gang (.barwait n)

/-- BARTEST (R281): the record at the start of c+4.  It names no remote party, so its result stands in slab 0 alone
(11_group R269, 16_context R379; log 24). -/
def execBartest (g : BitVec 5) (src : BitVec 9) (s : State) : Host.Outcome State Fault Refusal :=
  barStep s g 708 src fun is s own _ n => postAct s own (s.now + 4) (ordLand + 1) (.barTest is.gang n)

/-- BARXIN and BARXOUT (R281). -/
def barxOp (out : Bool) (port : Nat) (g : BitVec 5) (src : BitVec 9) (s : State) : Host.Outcome State Fault Refusal :=
  barStep s g port src fun is s own _ n =>
    if (getBar s is.gang n).state = 0 then barFault s own 1 n
    else postAct s own (s.now + 2) ordBar (.barAdd is.gang n out ((bOpa s is).setWidth 32))

def execBarxin (g : BitVec 5) (src : BitVec 9) (s : State) : Host.Outcome State Fault Refusal := barxOp false 709 g src s
def execBarxout (g : BitVec 5) (src : BitVec 9) (s : State) : Host.Outcome State Fault Refusal := barxOp true 710 g src s

/-! ### Landings (R281, R282, R283) -/

/-- The completion check of a record at the end of the present cycle (R286, R287). -/
def postBarCheck (s : State) (own : Owner) (t n : Nat) : State :=
  post s ⟨s.now, ordDone, t, some own, .operationLanding own (.barCheck t n), .none⟩

def landBarWrite (s : State) (own : Owner) (t n : Nat) (r : BarRec) : State := postBarCheck (putBar s t n r) own t n

def landBarAdd (s : State) (own : Owner) (t n : Nat) (out : Bool) (k : BitVec 32) : State :=
  let r := getBar s t n
  postBarCheck (putBar s t n (if out then { r with outb := r.outb + k } else { r with inb := r.inb + k })) own t n

def landBarHeld (s : State) (t n : Nat) : State := putBar s t n { getBar s t n with state := 3 }

def landBarTest (s : State) (own : Owner) (t n : Nat) : State :=
  landSl s own t 161 (.plain (if (getBar s t n).state = 1 then 1 else 0))

/-- A home record completes when ARR = EXP and no beat is outstanding: new generation, and a release item for every entry
of its release list (R286). -/
def landBarCheck (s : State) (own : Owner) (t n : Nat) : State :=
  let r := getBar s t n
  if r.state = 0 || r.home.toNat != t || r.arr != r.exp || r.inb != 0 || r.outb != 0 then s
  else
    let gen := r.gen + 1
    let s := putBar s t n { r with gen := gen, arr := 0, state := if r.state = 2 then 1 else r.state }
    let mine := (slabOf s t).relList.filter fun e => e.1 = n
    let dm := match gangAt s t with | some g => (gangOf s g).dmem | none => (gangOf s own.gang).dmem
    let s := modSlab s t fun sl =>
      { sl with relList := sl.relList.filter fun e => e.1 != n
                releases := sl.releases ++ mine.map fun e => (e.2, n, gen, isWafer s t dm e.2) }
    mine.foldl (fun s e => scheduleSend s own t (isWafer s t dm e.2)) s

/-! ### Deliveries (R284, R286, R288) -/

/-- The owner of a delivery's event, charged to the receiving tile's gang. -/
def receiver (s : State) (t : TileName) : Owner := deliveryOwner s (s.own.getD ⟨0, 0, t, false, 0, 0xFF, 0, s.now⟩) t

/-- ARRIVAL_DELIVERY. -/
def execArrivalDelivery (s : State) : Host.Outcome State Fault Refusal :=
  match s.arg with
  | .arrivalDelivery dst src n gen send =>
    let own := receiver s dst
    let r := getBar s dst n
    let aux := BitVec.ofNat 64 n
    if r.state = 0 || r.home.toNat != dst || gen != r.gen then .next (raiseDelivery s own 13 5 aux dst)
    else if r.arr = r.exp then .next (raiseDelivery s own 13 6 aux dst)
    else if !send && src != dst && 8192 ≤ (slabOf s dst).relList.length then .next (raiseDelivery s own 13 7 aux dst)
    else
      let s := putBar s dst n { r with arr := r.arr + 1 }
      let s := if !send && src != dst then
          modSlab s dst fun sl => { sl with relList := sl.relList ++ [(n, src)] } else s
      .next (postBarCheck s own dst n)
  | _ => .fault .noOperand

/-- RELEASE_DELIVERY. -/
def execReleaseDelivery (s : State) : Host.Outcome State Fault Refusal :=
  match s.arg with
  | .releaseDelivery dst src n gen =>
    let r := getBar s dst n
    if r.state = 2 && r.home.toNat = src then .next (putBar s dst n { r with gen := gen, state := 1 })
    else .next (raiseDelivery s (receiver s dst) 13 5 (BitVec.ofNat 64 n) dst)
  | _ => .fault .noOperand

/-- BARWAIT_COMPLETE (R285): on the first cycle at whose start the record is OPEN; the new segment's origin acquires the
objects bound to the record (13_binding R296, R300, R303). -/
def execBarwaitComplete (s : State) : Host.Outcome State Fault Refusal :=
  match s.arg with
  | .barwaitComplete g n =>
    match findWait s g (· = .barwait n) with
    | some _ =>
      if (getBar s g n).state = 1 then
        .next (waitDone (modGang s g fun gg => { gg with acqs := gg.acqs ++ [barAddr n] }) g (.barwait n))
      else .next (again s g .barwaitComplete)
    | none => .next s
  | _ => .fault .noOperand

end Sys2Proof.Machine
end

