-- ==== Sys2Proof/Machine/Memory.lean ====
section
/-! DEFINITION. The loads, stores, ordered accesses, atomics and fences of L0 and L1 (06_region R145 to R156). -/

namespace Sys2Proof.Machine

/-! ### Ports of an L unit (02_bundle R40, R44) -/

def lBase (u : BitVec 2) : Nat := 256 + 64 * u.toNat
def lRes (u : BitVec 2) : Nat := 136 + 2 * u.toNat
def lPath (u : BitVec 2) : Nat := u.toNat - 1
def lOpd (s : State) (is : Issue) (t : TileName) (u : BitVec 2) (k : Nat) : TV := slOpd s is t (lBase u + k)

/-! ### Where an address leads (R142 to R145, R168) -/

/-- The array an access reaches. -/
structure Place where
  tile   : TileName
  addr   : Nat
  space  : Nat
deriving DecidableEq, Repr

/-- A task holds a bank of a slab; bank 0 is always held (R165). -/
def holdsBank (s : State) (task : Nat) (t : TileName) (b : Nat) : Bool :=
  b = 0 || tabGet (slabOf s t).banks b = some task

/-- Checks 5 to 8 of R145 on an address inside a window: the address cause of R169. -/
def lowChecks (s : State) (task : Nat) (p : Place) (n : Nat) (writes : Bool) : Except (Nat × Nat) Place :=
  if p.addr % n != 0 then .error (8, 5)
  else if writes && protectedAddr p.addr then .error (8, 6)
  else if p.space ≤ 1 && !holdsBank s task p.tile (p.addr / 0x20000) then .error (8, 7)
  else .ok p

/-- The checks of R145 in order: the place, or the class and cause of the fault.  A local form reads its address
under R137. -/
def placeOf (s : State) (g t : TileName) (generic : Bool) (a : Word) (n : Nat) (writes : Bool) :
    Except (Nat × Nat) Place :=
  let gg := gangOf s g
  if !generic then
    if 0x400000 ≤ a.toNat then .error (8, 4) else lowChecks s gg.task ⟨t, a.toNat, 0⟩ n writes
  else
    match spaceOf gg.width a.toNat with
    | none => .error (8, 2)
    | some sp =>
      let o := a.toNat - spaceBase sp
      if sp = 3 then .error (8, 1)
      else if sp = 2 then
        (if !namesTile (o / 0x400000) then .error (11, 0)
         else if !inDomain gg.dmem (o / 0x400000) then .error (8, 3)
         else lowChecks s gg.task ⟨o / 0x400000, o % 0x400000, 2⟩ n writes)
      else if sp = 1 then
        lowChecks s gg.task ⟨(gangTiles s g)[o / 0x400000]?.getD g, o % 0x400000, 1⟩ n writes
      else lowChecks s gg.task ⟨t, o, 0⟩ n writes

/-! ### The forms -/

/-- What an operation does with its doubleword or bytes. -/
inductive MemKind where
  | load (n : Nat)
  | spec (n : Nat)
  | store (n : Nat)
  | ordLoad
  | ordStore
  | atom (op : AtomOp)
deriving DecidableEq, Repr

def kindBytes : MemKind → Nat
  | .load n => n
  | .spec n => n
  | .store n => n
  | _ => 8

def kindWrites : MemKind → Bool
  | .load _ => false
  | .spec _ => false
  | .ordLoad => false
  | _ => true

def kindScoped : MemKind → Bool
  | .ordLoad => true
  | .ordStore => true
  | .atom _ => true
  | _ => false

/-- opb is read: by stores as the offset, by CAS as the comparand (R146, R154). -/
def kindReadsB : MemKind → Bool
  | .store _ => true
  | .ordStore => true
  | .atom .cas => true
  | _ => false

/-- The operands of one slab: t, opa, opb, scp. -/
structure MemOpds where
  t   : TV
  a   : TV
  b   : TV
  scp : TV
deriving DecidableEq, Repr

def memOpds (s : State) (is : Issue) (u : BitVec 2) (src : BitVec 9) (t : TileName) : MemOpds :=
  ⟨readScalar s is t src, lOpd s is t u 0, lOpd s is t u 1, lOpd s is t u 2⟩

def opdsTagged (k : MemKind) (o : MemOpds) : Bool :=
  o.t.df || o.a.df || (kindReadsB k && o.b.df) || (kindScoped k && o.scp.df)

/-- The address of R146, R153, R154, modulo 2^64. -/
def memAddr (k : MemKind) (o : MemOpds) : Word :=
  match k with
  | .store _ => o.a.val + o.b.val
  | .ordStore => o.a.val + o.b.val
  | .atom _ => o.a.val
  | _ => o.a.val + o.t.val

def scpScope (w : Word) : Nat := w.toNat % 8
def scpOrd (w : Word) : BitVec 3 := w.extractLsb' 4 3
def scpFord (w : Word) : BitVec 3 := w.extractLsb' 7 3

/-- A reserved combination of scp (R151). -/
def scpBad (k : MemKind) (w : Word) : Bool :=
  match k with
  | .atom op => 6 ≤ scpScope w || 5 ≤ (scpOrd w).toNat ||
      (op = .cas && !(scpFord w = 0 || scpFord w = 1 || scpFord w = 4))
  | .ordLoad => 6 ≤ scpScope w
  | .ordStore => 6 ≤ scpScope w
  | _ => false

/-- The access a kind makes. -/
def kindOp (k : MemKind) (o : MemOpds) : MemOp :=
  match k with
  | .load n => .load n
  | .spec n => .load n
  | .store n => .store n o.t.val
  | .ordLoad => .load 8
  | .ordStore => .store 8 o.t.val
  | .atom op => .atom op o.t.val o.b.val (scpOrd o.scp.val) (scpFord o.scp.val)

def kindOrd (k : MemKind) (o : MemOpds) (a : Word) : Option Ordered :=
  match k with
  | .ordLoad => some ⟨a, true, false⟩
  | .ordStore => some ⟨a, false, true⟩
  | .atom _ => some ⟨a, ordAcquires (scpOrd o.scp.val) || ordAcquires (scpFord o.scp.val), ordReleases (scpOrd o.scp.val)⟩
  | _ => none

/-- An access on its way: to its own gang's arrays at c+2, or to a domain tile's at c+5+h+2s (R147); a release is checked
before the actions of that cycle (13_binding R302). -/
def launchAccess (s : State) (own : Owner) (t : TileName) (p : Place) (acc : MemAccess) : State :=
  let writes : Bool := match acc.op with | .load _ => false | _ => true
  let rel : Bool := match acc.ord with | some o => o.rel | none => false
  if p.space = 2 then
    let d := 5 + pathCost t p.tile
    let acc := { acc with path := remoteTurn t p.tile }
    let s := postEv s (s.now + d) (if writes then ordWrite + acc.path else ordRead) t (some own) .remoteAccessArrival
      (.remoteAccessArrival ⟨own, acc, d⟩)
    if rel then postAct s own (s.now + d) ordCheck (.relCheck acc) else s
  else
    let s := postAct s own (s.now + 2) (if writes then ordWrite + acc.path else ordRead) (.mem acc)
    if rel then postAct s own (s.now + 2) ordCheck (.relCheck acc) else s

/-- The first gang slab whose checks fail: its number, class, cause and address. -/
def firstBadPlace (ps : List (TileName × Word × Except (Nat × Nat) Place)) : Option (Nat × Nat × Nat × Word) :=
  ps.zipIdx.findSome? fun ((_, a, p), i) => match p with | .error (cl, ca) => some (i, cl, ca, a) | .ok _ => none

/-- The access of one slab: a gang-window atomic and a domain access are made once, by slab 0, for every slab (R150).  Where the
addresses of the slabs differ, slab 0's decides for it alone, and another slab's access of that kind is not made (DESIGN CHOICE,
log 174). -/
def slabAccess (s : State) (own : Owner) (u : BitVec 2) (k : MemKind) (ts : List TileName) (t : TileName) (o : MemOpds)
    (p : Place) : State :=
  let first := t = own.gang
  let atomic : Bool := match k with | .atom _ => true | _ => false
  let once := p.space = 2 || (p.space = 1 && atomic)
  let acc : MemAccess :=
    ⟨p.tile, p.addr, kindOp k o, if p.space = 2 then lRes u + 1 else lRes u, if once then ts else [t],
      kindOrd k o (memAddr k o), lPath u, none⟩
  if once && !first then s else launchAccess s own t p acc

/-- An operation of L0 or L1 at its trigger (R145 to R154): tags, reserved scp codes, address checks, the reservation of a
domain access, scope, then the access. -/
def memTrigger (s : State) (is : Issue) (u : BitVec 2) (k : MemKind) (generic : Bool) (src : BitVec 9) : State :=
  let own := issueOwner s is
  let ts := gangTiles s is.gang
  let rows := ts.map fun t => (t, memOpds s is u src t)
  match rows.zipIdx.find? fun ((_, o), _) => opdsTagged k o with
  | some (_, i) => consumeDF s is i
  | none =>
    match rows.zipIdx.find? fun ((_, o), _) => scpBad k o.scp.val with
    | some (_, i) => raiseAux s own 1 0 0 i
    | none =>
      let ps := rows.map fun (t, o) => (t, memAddr k o, placeOf s is.gang t generic (memAddr k o) (kindBytes k) (kindWrites k))
      match firstBadPlace ps with
      | some (i, cl, ca, a) => raiseAux s own cl ca a i
      | none =>
        let remote : Bool := match ps.head? with | some (_, _, .ok p) => p.space = 2 | _ => false
        let scopes := rows.map fun (_, o) => scpScope o.scp.val
        let wide := kindScoped k && scopes.any (4 ≤ ·)
        if remote && !entryLres (entryNow s is.gang) then raise s own 9 2
        else if wide && (gangOf s is.gang).tctl.scopestrict then raiseAux s own 10 0 0 (scopes.findIdx (4 ≤ ·))
        else
          let s := if wide then
              modGang s is.gang fun gg => { gg with tst := { gg.tst with scopenarrow := true } } else s
          (rows.zip ps).foldl (fun st x => match x with
            | ((t, o), (_, _, .ok p)) => slabAccess st own u k ts t o p
            | _ => st) s

/-- LDS at its trigger: a tag or a failed check gives a tagged zero at c+4, slab by slab (R148). -/
def specTrigger (s : State) (is : Issue) (u : BitVec 2) (n : Nat) (src : BitVec 9) : State :=
  let own := issueOwner s is
  let ts := gangTiles s is.gang
  forTiles s ts fun st t =>
    let o := memOpds s is u src t
    let bad := postLand st own (st.now + 4) (.slRes t (lRes u) ⟨0, true⟩)
    if opdsTagged (.spec n) o then bad
    else match placeOf s is.gang t false (memAddr (.spec n) o) n false with
      | .error _ => bad
      | .ok p => slabAccess st own u (.spec n) ts t o p

/-- A load, store, ordered access or atomic at port offset k. -/
def memOp (k : Nat) (kind : MemKind) (generic : Bool) (g : BitVec 5) (u : BitVec 2) (src : BitVec 9) (s : State) :
    Host.Outcome State Fault Refusal :=
  slotStep s g (lBase u + k) fun is s => memTrigger s is u kind generic src

/-- A speculative load at port offset k. -/
def ldsOp (k n : Nat) (g : BitVec 5) (u : BitVec 2) (src : BitVec 9) (s : State) : Host.Outcome State Fault Refusal :=
  slotStep s g (lBase u + k) fun is s => specTrigger s is u n src

/-- A fence (R155): its scope is checked at the trigger; it makes no access. -/
def fenceOp (k : Nat) (g : BitVec 5) (u : BitVec 2) (src : BitVec 9) (s : State) : Host.Outcome State Fault Refusal :=
  slotStep s g (lBase u + k) fun is s =>
    let own := issueOwner s is
    let ts := gangTiles s is.gang
    untagged s is ts src fun s =>
      let scopes := ts.map fun t => scpScope (readScalar s is t src).val
      if scopes.any (6 ≤ ·) then raiseAux s own 1 0 0 (scopes.findIdx (6 ≤ ·))
      else if scopes.any (4 ≤ ·) then
        if (gangOf s is.gang).tctl.scopestrict then raiseAux s own 10 0 0 (scopes.findIdx (4 ≤ ·))
        else modGang s is.gang fun gg => { gg with tst := { gg.tst with scopenarrow := true } }
      else s

/-- LD.B (R147). -/
def execLdB (g : BitVec 5) (u : BitVec 2) (src : BitVec 9) (s : State) : Host.Outcome State Fault Refusal :=
  memOp 3 (.load 1) false g u src s

/-- LD.H (R147). -/
def execLdH (g : BitVec 5) (u : BitVec 2) (src : BitVec 9) (s : State) : Host.Outcome State Fault Refusal :=
  memOp 4 (.load 2) false g u src s

/-- LD.W (R147). -/
def execLdW (g : BitVec 5) (u : BitVec 2) (src : BitVec 9) (s : State) : Host.Outcome State Fault Refusal :=
  memOp 5 (.load 4) false g u src s

/-- LD.D (R147). -/
def execLdD (g : BitVec 5) (u : BitVec 2) (src : BitVec 9) (s : State) : Host.Outcome State Fault Refusal :=
  memOp 6 (.load 8) false g u src s

/-- LDS.B (R148). -/
def execLdsB (g : BitVec 5) (u : BitVec 2) (src : BitVec 9) (s : State) : Host.Outcome State Fault Refusal :=
  ldsOp 7 1 g u src s

/-- LDS.H (R148). -/
def execLdsH (g : BitVec 5) (u : BitVec 2) (src : BitVec 9) (s : State) : Host.Outcome State Fault Refusal :=
  ldsOp 8 2 g u src s

/-- LDS.W (R148). -/
def execLdsW (g : BitVec 5) (u : BitVec 2) (src : BitVec 9) (s : State) : Host.Outcome State Fault Refusal :=
  ldsOp 9 4 g u src s

/-- LDS.D (R148). -/
def execLdsD (g : BitVec 5) (u : BitVec 2) (src : BitVec 9) (s : State) : Host.Outcome State Fault Refusal :=
  ldsOp 10 8 g u src s

/-- ST.B (R147). -/
def execStB (g : BitVec 5) (u : BitVec 2) (src : BitVec 9) (s : State) : Host.Outcome State Fault Refusal :=
  memOp 11 (.store 1) false g u src s

/-- ST.H (R147). -/
def execStH (g : BitVec 5) (u : BitVec 2) (src : BitVec 9) (s : State) : Host.Outcome State Fault Refusal :=
  memOp 12 (.store 2) false g u src s

/-- ST.W (R147). -/
def execStW (g : BitVec 5) (u : BitVec 2) (src : BitVec 9) (s : State) : Host.Outcome State Fault Refusal :=
  memOp 13 (.store 4) false g u src s

/-- ST.D (R147). -/
def execStD (g : BitVec 5) (u : BitVec 2) (src : BitVec 9) (s : State) : Host.Outcome State Fault Refusal :=
  memOp 14 (.store 8) false g u src s

/-- LDG.B (R147). -/
def execLdgB (g : BitVec 5) (u : BitVec 2) (src : BitVec 9) (s : State) : Host.Outcome State Fault Refusal :=
  memOp 15 (.load 1) true g u src s

/-- LDG.H (R147). -/
def execLdgH (g : BitVec 5) (u : BitVec 2) (src : BitVec 9) (s : State) : Host.Outcome State Fault Refusal :=
  memOp 16 (.load 2) true g u src s

/-- LDG.W (R147). -/
def execLdgW (g : BitVec 5) (u : BitVec 2) (src : BitVec 9) (s : State) : Host.Outcome State Fault Refusal :=
  memOp 17 (.load 4) true g u src s

/-- LDG.D (R147). -/
def execLdgD (g : BitVec 5) (u : BitVec 2) (src : BitVec 9) (s : State) : Host.Outcome State Fault Refusal :=
  memOp 18 (.load 8) true g u src s

/-- STG.B (R147). -/
def execStgB (g : BitVec 5) (u : BitVec 2) (src : BitVec 9) (s : State) : Host.Outcome State Fault Refusal :=
  memOp 19 (.store 1) true g u src s

/-- STG.H (R147). -/
def execStgH (g : BitVec 5) (u : BitVec 2) (src : BitVec 9) (s : State) : Host.Outcome State Fault Refusal :=
  memOp 20 (.store 2) true g u src s

/-- STG.W (R147). -/
def execStgW (g : BitVec 5) (u : BitVec 2) (src : BitVec 9) (s : State) : Host.Outcome State Fault Refusal :=
  memOp 21 (.store 4) true g u src s

/-- STG.D (R147). -/
def execStgD (g : BitVec 5) (u : BitVec 2) (src : BitVec 9) (s : State) : Host.Outcome State Fault Refusal :=
  memOp 22 (.store 8) true g u src s

/-- LD.ACQ (R153). -/
def execLdAcq (g : BitVec 5) (u : BitVec 2) (src : BitVec 9) (s : State) : Host.Outcome State Fault Refusal :=
  memOp 23 .ordLoad true g u src s

/-- LD.SC (R153). -/
def execLdSc (g : BitVec 5) (u : BitVec 2) (src : BitVec 9) (s : State) : Host.Outcome State Fault Refusal :=
  memOp 24 .ordLoad true g u src s

/-- ST.REL (R153). -/
def execStRel (g : BitVec 5) (u : BitVec 2) (src : BitVec 9) (s : State) : Host.Outcome State Fault Refusal :=
  memOp 25 .ordStore true g u src s

/-- ST.SC (R153). -/
def execStSc (g : BitVec 5) (u : BitVec 2) (src : BitVec 9) (s : State) : Host.Outcome State Fault Refusal :=
  memOp 26 .ordStore true g u src s

/-- ATOM.ADD (R154). -/
def execAtomAdd (g : BitVec 5) (u : BitVec 2) (src : BitVec 9) (s : State) : Host.Outcome State Fault Refusal :=
  memOp 29 (.atom .add) true g u src s

/-- ATOM.AND (R154). -/
def execAtomAnd (g : BitVec 5) (u : BitVec 2) (src : BitVec 9) (s : State) : Host.Outcome State Fault Refusal :=
  memOp 30 (.atom .and) true g u src s

/-- ATOM.OR (R154). -/
def execAtomOr (g : BitVec 5) (u : BitVec 2) (src : BitVec 9) (s : State) : Host.Outcome State Fault Refusal :=
  memOp 31 (.atom .or) true g u src s

/-- ATOM.XOR (R154). -/
def execAtomXor (g : BitVec 5) (u : BitVec 2) (src : BitVec 9) (s : State) : Host.Outcome State Fault Refusal :=
  memOp 32 (.atom .xor) true g u src s

/-- ATOM.MIN (R154). -/
def execAtomMin (g : BitVec 5) (u : BitVec 2) (src : BitVec 9) (s : State) : Host.Outcome State Fault Refusal :=
  memOp 33 (.atom .min) true g u src s

/-- ATOM.MAX (R154). -/
def execAtomMax (g : BitVec 5) (u : BitVec 2) (src : BitVec 9) (s : State) : Host.Outcome State Fault Refusal :=
  memOp 34 (.atom .max) true g u src s

/-- ATOM.XCHG (R154). -/
def execAtomXchg (g : BitVec 5) (u : BitVec 2) (src : BitVec 9) (s : State) : Host.Outcome State Fault Refusal :=
  memOp 35 (.atom .xchg) true g u src s

/-- ATOM.CAS (R154). -/
def execAtomCas (g : BitVec 5) (u : BitVec 2) (src : BitVec 9) (s : State) : Host.Outcome State Fault Refusal :=
  memOp 36 (.atom .cas) true g u src s

/-- FENCE.ACQ (R155). -/
def execFenceAcq (g : BitVec 5) (u : BitVec 2) (src : BitVec 9) (s : State) : Host.Outcome State Fault Refusal :=
  fenceOp 37 g u src s

/-- FENCE.REL (R155). -/
def execFenceRel (g : BitVec 5) (u : BitVec 2) (src : BitVec 9) (s : State) : Host.Outcome State Fault Refusal :=
  fenceOp 38 g u src s

/-- FENCE.AR (R155). -/
def execFenceAr (g : BitVec 5) (u : BitVec 2) (src : BitVec 9) (s : State) : Host.Outcome State Fault Refusal :=
  fenceOp 39 g u src s

/-- FENCE.SC (R155). -/
def execFenceSc (g : BitVec 5) (u : BitVec 2) (src : BitVec 9) (s : State) : Host.Outcome State Fault Refusal :=
  fenceOp 40 g u src s

/-! ### At the array -/

/-- An access acts on its array: the state after it, what it read, and whether it wrote (R139, R147, R154). -/
def arrayAct (s : State) (a : MemAccess) : State × Word × Bool :=
  match a.op with
  | .load n => (s, BitVec.ofNat 64 (padRead s a.tile a.addr n), false)
  | .store n d => (padStore s a.tile a.addr n d.toNat, 0, true)
  | .atom op t cmp _ _ =>
    let old := padWord s a.tile a.addr
    match atomNew op old t cmp with
    | some v => (padStore s a.tile a.addr 8 v.toNat, old, true)
    | none => (s, old, false)

/-- The order an access takes is an acquire. -/
def accAcquires (a : MemAccess) (old : Word) : Bool :=
  match a.op with
  | .atom op _ cmp o f => ordAcquires (ordTaken op old cmp o f)
  | _ => match a.ord with | some o => o.acq | none => false

/-- An access that is a store has no result. -/
def accResults (a : MemAccess) : Bool := match a.op with | .store _ _ => false | _ => true

/-- The operation has met UNFLUSHED on this cycle. -/
def unflushedNow (s : State) (own : Owner) : Bool :=
  (ctxOf s own.ctx).faults.any fun r =>
    r.cls = 9 && r.cause = 7 && r.cyc = islandCyc s own.gang && r.tile = own.gang && r.pc = own.pc && r.slot = own.slot

/-- UNFLUSHED for a stopped release, once for the gang (11_group R270, 13_binding R302). -/
def raiseUnflushed (s : State) (own : Owner) (k : Nat) : State :=
  if unflushedNow s own then s else raiseAux s own 9 7 0 k

/-- Another slab's access of the same operation, on the same cycle, is a stopped release that would write. -/
def writesStopped (s : State) (own : Owner) : Bool :=
  s.agenda.any fun e => e.at_ ≤ s.now &&
    match e.instr with
    | .operationLanding o (.mem b) => decide (o = own) && b.stop.isSome && (arrayAct s b).2.2
    | _ => false

/-- The result of an access lands after `back` cycles: of one in the gang slab by slab, of a domain access in every slab when
its value has travelled back (R147, R150, R171). -/
def postResult (s : State) (own : Owner) (a : MemAccess) (back : Nat) (far : Bool) (v : Word) : State :=
  if !accResults a then s
  else if far then postLand s own (s.now + back) (.reply a (.plain v))
  else a.dests.foldl (fun s t => postLand s own (s.now + back) (.slRes t a.port (.plain v))) s

/-- An access at its array cycle: a stopped release that would write, in this slab or in another of the gang, makes no write,
lands nothing and raises UNFLUSHED (11_group R270); else it acts and its result lands after `back` cycles, with the acquire of
the object it names (R147, 13_binding R302, R303). -/
def landAccess (s : State) (own : Owner) (a : MemAccess) (back : Nat) (far : Bool) : State :=
  let (s', v, wrote) := arrayAct s a
  match if wrote || (a.stop.isSome && (unflushedNow s own || writesStopped s own)) then a.stop else none with
  | some k => raiseUnflushed s own k
  | none =>
    let s := postResult s' own a back far v
    match a.ord with
    | some o => if accAcquires a v then postLand s own (s.now + back) (.acquire 3 o.sync) else s
    | none => s

/-- REMOTE_ACCESS_ARRIVAL (R147). -/
def execRemoteAccessArrival (s : State) : Host.Outcome State Fault Refusal :=
  match s.arg with
  | .remoteAccessArrival r => .next (landAccess s r.own r.acc r.back true)
  | _ => .fault .noOperand

end Sys2Proof.Machine
end

