-- ==== Sys2Proof/Machine/Vector.lean ====
section
/-! DEFINITION. The vector unit V (07_vector R172 to R192): lanes, arithmetic, compares, conversion, reductions, shuffles, masks, vector memory. -/

namespace Sys2Proof.Machine

/-! ### Lanes and elements (R172, R174) -/

def lane (v : Vec) (i : Nat) : BitVec 32 := v.extractLsb' (32 * i) 32

/-- The vector whose lane i is f i. -/
def ofLanes (f : Nat → BitVec 32) : Vec :=
  (List.range 64).foldl (fun v i => v ||| ((f i).setWidth 2048 <<< (32 * i))) 0

/-- Element e of width w. -/
def elemOf (v : Vec) (w e : Nat) : Nat := (v >>> (e * w)).toNat % 2 ^ w

/-- v with element e of width w replaced. -/
def putElem (v : Vec) (w e n : Nat) : Vec :=
  let mask : Vec := BitVec.ofNat 2048 ((2 ^ w - 1) * 2 ^ (e * w))
  (v &&& ~~~mask) ||| BitVec.ofNat 2048 (n % 2 ^ w * 2 ^ (e * w))

/-! ### Operands (R177, R178) -/

/-- What a vector operation reads in one slab: mask, a, cc, control, address. -/
structure VOpds where
  km  : Word
  a   : Vec
  cc  : Vec
  ctl : Word
  adr : Word
deriving DecidableEq, Repr

def vOpds (s : State) (is : Issue) (t : TileName) : VOpds :=
  ⟨(slOpd s is t 450).val, slVOpd s t 448, slVOpd s t 449, (slOpd s is t 451).val, (slOpd s is t 452).val⟩

/-- The actions of an operation in every slab land at c+lat with their flags set at the trigger; under STRICT the numeric
trap of the lowest slab that meets it stops them all (R178, 03_element R68). -/
def landFlaggedOf (s : State) (own : Owner) (lat : Nat) (outs : List (Action × FlagSet)) : State :=
  let f := (gangOf s own.gang).fmt
  let s := setFlags s own.gang (outs.foldl (fun a x => a.or x.2) .none)
  match outs.zipIdx.findSome? fun (x, i) => (numericTrap f x.2).map fun c => (c, i) with
  | some (c, i) => raiseAux s own 5 c 0 i
  | none => outs.foldl (fun s x => postLand s own (s.now + lat) x.1) s

def landFlagged (s : State) (is : Issue) (lat : Nat) (outs : List (Action × FlagSet)) : State :=
  landFlaggedOf s (issueOwner s is) lat outs

/-- A vector trigger: a tagged value in any slab takes the fault of 04_scalar R85; else its action in each slab. -/
def vecStep (s : State) (g : BitVec 5) (port lat : Nat) (src : BitVec 9)
    (f : State → Issue → TileName → Action × FlagSet) : Host.Outcome State Fault Refusal :=
  slotStep s g port fun is s =>
    let ts := gangTiles s is.gang
    match ts.zipIdx.find? fun (t, _) => vecTagged s is t src with
    | some (_, k) => consumeDF s is k
    | none => landFlagged s is lat (ts.map fun t => f s is t)

/-- Per-lane results under the mask: an inactive lane is 0 and sets no flag (R178). -/
def maskedLanes (km : Word) (f : Nat → BitVec 32 × FlagSet) : Vec × FlagSet :=
  (List.range 64).foldl (fun (v, fl) i =>
    if km.getLsbD i then let (x, g) := f i; (v ||| (x.setWidth 2048 <<< (32 * i)), fl.or g) else (v, fl)) (0, .none)

/-- An operation of a, cc and t lane by lane, into vector port res. -/
def laneOp (port res lat : Nat) (f : BitVec 32 → BitVec 32 → BitVec 32 → BitVec 32 × FlagSet)
    (g : BitVec 5) (src : BitVec 9) (s : State) : Host.Outcome State Fault Refusal :=
  vecStep s g port lat src fun s is t =>
    let o := vOpds s is t
    let x := readVec s is t src
    let (v, fl) := maskedLanes o.km fun i => f (lane o.a i) (lane o.cc i) (lane x i)
    (.vRes t res v, fl)

/-- A mask of lanes into v.kr (R181). -/
def cmpOp (port : Nat) (f : BitVec 32 → BitVec 32 → Bool) (g : BitVec 5) (src : BitVec 9) (s : State) :
    Host.Outcome State Fault Refusal :=
  vecStep s g port 2 src fun s is t =>
    let o := vOpds s is t
    let x := readVec s is t src
    let m := (List.range 64).foldl (fun n i => if o.km.getLsbD i && f (lane o.a i) (lane x i) then n + 2 ^ i else n) 0
    (.slRes t 147 (.plain (BitVec.ofNat 64 m)), .none)

/-! ### Lane effects -/

/-- An FP32 result with its invalid-operation flag. -/
def fpRes (x : Nat × Bool) : BitVec 32 × FlagSet := (BitVec.ofNat 32 x.1, if x.2 then invFlag else .none)

def intLane (x : BitVec 32) : BitVec 32 × FlagSet := (x, .none)

/-- Invert the sign of an FP32 code. -/
def fneg (x : Nat) : Nat := if x.testBit 31 then x - 2 ^ 31 else x + 2 ^ 31

/-- VMIN and VMAX: a NaN gives the canonical NaN, −0 is below +0 (R179). -/
def fmin32 (a b : BitVec 32) : BitVec 32 :=
  let x := decodeFmt 4 a.toNat
  let y := decodeFmt 4 b.toNat
  if x.isNan || y.isNan then 0x7FC00000 else if numLt x y then a else if numLt y x then b else if a.getLsbD 31 then a else b
def fmax32 (a b : BitVec 32) : BitVec 32 :=
  let x := decodeFmt 4 a.toNat
  let y := decodeFmt 4 b.toNat
  if x.isNan || y.isNan then 0x7FC00000 else if numLt x y then b else if numLt y x then a else if a.getLsbD 31 then b else a

/-- VABS and VNEG change only the sign, except of a NaN (R180). -/
def signLane (t u : BitVec 32) : BitVec 32 := if (decodeFmt 4 t.toNat).isNan then 0x7FC00000 else u

def fEq (a b : BitVec 32) : Bool := numEq (decodeFmt 4 a.toNat) (decodeFmt 4 b.toNat)
def fLt (a b : BitVec 32) : Bool := numLt (decodeFmt 4 a.toNat) (decodeFmt 4 b.toNat)

/-- VCLAMP (R187). -/
def clampLane (b : Bound) (x : BitVec 32) : BitVec 32 :=
  let v := decodeFmt 4 x.toNat
  if v.isNan || numLt v (decodeFmt 4 b.lo.toNat) then b.lo else if numLt (decodeFmt 4 b.hi.toNat) v then b.hi else x

/-! ### Conversion (R183) -/

def ctlSfmt (w : Word) : Nat := w.toNat % 16
def ctlDfmt (w : Word) : Nat := (w.extractLsb' 4 4).toNat
def ctlRm (w : Word) : Nat := (w.extractLsb' 8 2).toNat
def ctlSp (w : Word) : Nat := (w.extractLsb' 10 2).toNat
def ctlDp (w : Word) : Nat := (w.extractLsb' 12 2).toNat
def ctlBd (w : Word) : Nat := (w.extractLsb' 14 3).toNat
def ctlLane (w : Word) : Nat := (w.extractLsb' 17 6).toNat

def vcvtBad (w : Word) : Bool :=
  6 ≤ ctlSfmt w || 6 ≤ ctlDfmt w || 32 / fmtBits (ctlSfmt w) ≤ ctlSp w || 32 / fmtBits (ctlDfmt w) ≤ ctlDp w

def vcvtResult (o : VOpds) (x : Vec) : Vec × FlagSet :=
  let sf := ctlSfmt o.ctl
  let df := ctlDfmt o.ctl
  let wd := fmtBits df
  (List.range 64).foldl (fun (v, fl) i =>
    if o.km.getLsbD i then
      let (c, g) := convertFmt sf df (ctlRm o.ctl) (elemOf x (fmtBits sf) (64 * ctlSp o.ctl + i))
      (putElem v wd (64 * ctlDp o.ctl + i) c, fl.or g)
    else (v, fl)) (if wd = 32 then 0 else o.cc, .none)

/-- The lowest slab whose control fails a check. -/
def badSlab (s : State) (is : Issue) (p : TileName → Bool) : Option Nat :=
  ((gangTiles s is.gang).zipIdx.find? fun (t, _) => p t).map (·.2)

def execVcvt (g : BitVec 5) (src : BitVec 9) (s : State) : Host.Outcome State Fault Refusal :=
  slotStep s g 481 fun is s =>
    let ts := gangTiles s is.gang
    match ts.zipIdx.find? fun (t, _) => vecTagged s is t src with
    | some (_, k) => consumeDF s is k
    | none =>
      match badSlab s is fun t => vcvtBad (vOpds s is t).ctl with
      | some k => raiseAux s (issueOwner s is) 6 3 0 k
      | none => landFlagged s is 3 (ts.map fun t =>
          let (v, fl) := vcvtResult (vOpds s is t) (readVec s is t src)
          (.vRes t 143 v, fl))

/-! ### Reductions (R184) -/

/-- One level of the tree. -/
def treeLevel {α : Type} (op : α → α → α) : List α → List α
  | x :: y :: rest => op x y :: treeLevel op rest
  | xs => xs

def treeFold {α : Type} (op : α → α → α) (xs : List α) : List α :=
  (List.range 6).foldl (fun xs _ => treeLevel op xs) xs

/-- The lanes a reduction folds, inactive ones at the identity. -/
def redLanes (o : VOpds) (x : Vec) (id : BitVec 32) : List (BitVec 32) :=
  (List.range 64).map fun i => if o.km.getLsbD i then lane x i else id

def redOp (port : Nat) (f : VOpds → Vec → Word × FlagSet) (g : BitVec 5) (src : BitVec 9) (s : State) :
    Host.Outcome State Fault Refusal :=
  vecStep s g port 8 src fun s is t =>
    let (v, fl) := f (vOpds s is t) (readVec s is t src)
    (.slRes t 149 (.plain v), fl)

/-- A node of VRED.ADD: rounds, and marks an invalid operation. -/
def addNode (x y : BitVec 32 × Bool) : BitVec 32 × Bool :=
  let (r, inv) := add32 x.1.toNat y.1.toNat
  (BitVec.ofNat 32 r, x.2 || y.2 || inv)

def redAdd (o : VOpds) (x : Vec) : Word × FlagSet :=
  match treeFold addNode ((redLanes o x 0).map (·, false)) with
  | (r, inv) :: _ => (r.setWidth 64, if inv then invFlag else .none)
  | [] => (0, .none)

def redPick (op : BitVec 32 → BitVec 32 → BitVec 32) (id : BitVec 32) (o : VOpds) (x : Vec) : Word × FlagSet :=
  (((treeFold op (redLanes o x id)).headD id).setWidth 64, .none)

def redIadd (o : VOpds) (x : Vec) : Word × FlagSet :=
  (BitVec.ofInt 64 ((redLanes o x 0).foldl (fun n v => n + v.toInt) 0), .none)

/-! ### Masks and shuffles (R185, R186) -/

/-- A mask operation: never masked; t is of class K or S. -/
def maskOp (port res : Nat) (f : Nat → Word → Word → Word) (g : BitVec 5) (src : BitVec 9) (s : State) :
    Host.Outcome State Fault Refusal :=
  slotStep s g port fun is s =>
    let ts := gangTiles s is.gang
    untagged s is ts src fun s => ts.zipIdx.foldl (fun st (t, k) =>
      postLand st (issueOwner s is) (s.now + 2)
        (.slRes t res (.plain (f k (slOpd s is t 450).val (readScalar s is t src).val)))) s

/-- KTAIL: the tail of a row of length t over the gang lanes of slab k. -/
def tailMask (k : Nat) (t : Word) : Word :=
  let n := t.toNat - 64 * k
  if 64 ≤ n then BitVec.allOnes 64 else BitVec.ofNat 64 (2 ^ n - 1)

def execVshuf (g : BitVec 5) (src : BitVec 9) (s : State) : Host.Outcome State Fault Refusal :=
  vecStep s g 486 2 src fun s is t =>
    let o := vOpds s is t
    let x := readVec s is t src
    (.vRes t 142 (maskedLanes o.km fun i => (lane x ((lane o.a i).toNat % 64), .none)).1, .none)

def execVbcast (g : BitVec 5) (src : BitVec 9) (s : State) : Host.Outcome State Fault Refusal :=
  vecStep s g 487 2 src fun s is t =>
    let o := vOpds s is t
    let x := readVec s is t src
    (.vRes t 142 (maskedLanes o.km fun _ => (lane x (ctlLane o.ctl), .none)).1, .none)

/-- VGSHUF: every slab's t at the common trigger cycle. -/
def execVgshuf (g : BitVec 5) (src : BitVec 9) (s : State) : Host.Outcome State Fault Refusal :=
  vecStep s g 488 2 src fun s is t =>
    let o := vOpds s is t
    let xs := (gangTiles s is.gang).map fun u => readVec s is u src
    (.vRes t 142 (maskedLanes o.km fun i =>
      let a := (lane o.a i).toNat
      (match xs[a / 64 % 4]? with | some x => lane x (a % 64) | none => 0, .none)).1, .none)

/-- VSEL takes t in active lanes and a in the others (R182). -/
def execVsel (g : BitVec 5) (src : BitVec 9) (s : State) : Host.Outcome State Fault Refusal :=
  vecStep s g 480 2 src fun s is t =>
    let o := vOpds s is t
    let x := readVec s is t src
    (.vRes t 142 (ofLanes fun i => if o.km.getLsbD i then lane x i else lane o.a i), .none)

/-- VCLAMP (R187): bounds as they stand at the trigger. -/
def execVclamp (g : BitVec 5) (src : BitVec 9) (s : State) : Host.Outcome State Fault Refusal :=
  vecStep s g 499 2 src fun s is t =>
    let o := vOpds s is t
    let x := readVec s is t src
    let b := tabGetD boundReset (gangOf s is.gang).bd (ctlBd o.ctl)
    (.vRes t 142 (maskedLanes o.km fun i => (clampLane b (lane x i), .none)).1, .none)

/-! ### Vector memory (R188 to R192) -/

/-- The address of lane i under a shape register (R189). -/
def stridedAddr (h base : Word) (i : Nat) : Word :=
  let rl := (h.extractLsb' 32 3).toNat
  let rlen := 2 ^ (if rl = 7 then 6 else rl)
  base + BitVec.ofNat 64 (i % rlen * (h.extractLsb' 0 16).toNat + i / rlen * (h.extractLsb' 16 16).toNat)

/-- The address cause of one lane (R190). -/
def laneCause (s : State) (task : Nat) (t : TileName) (a : Word) (writes : Bool) : Option Nat :=
  if 0x400000 ≤ a.toNat then some 4
  else if a.toNat % 4 != 0 then some 5
  else if writes && protectedAddr a.toNat then some 6
  else if !holdsBank s task t (a.toNat / 0x20000) then some 7
  else none

/-- A vector memory operation in one slab: its active lanes with address and word. -/
structure VMem where
  tile  : TileName
  lanes : List (Nat × Word × BitVec 32)
deriving DecidableEq, Repr

def activeLanes (km : Word) (addr : Nat → Word) (data : Nat → BitVec 32) : List (Nat × Word × BitVec 32) :=
  ((List.range 64).filter fun i => km.getLsbD i).map fun i => (i, addr i, data i)

/-- A row of a drain, or of an FLOAD, claims the V path of a slab on a cycle (R193, 08_accumulator R223): the timing
cause. -/
def vpathCause (sl : Slab) (y : Nat) : Option Nat :=
  if (match sl.fload with | some c => c < y && y ≤ c + 48 | none => false) then some 1
  else if sl.mx.vclaims.any fun c => c.1 ≤ y && y ≤ c.2 then some 9 else none

/-- The first lane of the lowest slab that fails its checks: slab, cause, address. -/
def badLane (s : State) (task : Nat) (ms : List VMem) (writes : Bool) : Option (Nat × Nat × Word) :=
  ms.zipIdx.findSome? fun (m, k) => m.lanes.findSome? fun (_, a, _) =>
    (laneCause s task m.tile a writes).map fun c => (k, c, a)

/-- The bound check of a store's lanes under a BND field (R192): the lanes as they land, flags, trap. -/
def boundLanes (g : Gang) (bnd : Nat) (ls : List (Nat × Word × BitVec 32)) : List (Nat × Word × BitVec 32) × FlagSet × Bool :=
  if bnd < 8 then (ls, .none, false)
  else
    let b := tabGetD boundReset g.bd (bnd % 8)
    ls.foldr (fun (i, a, w) (out, fl, tr) =>
      let (rep, f, t) := boundCheck b (decodeFmt 4 w.toNat)
      ((i, a, match rep with | some c => BitVec.ofNat 32 c | none => w) :: out, fl.or ⟨false, false, f⟩, tr || t))
      ([], .none, false)

/-- The checks common to the four operations, then f.  An operation with no active lane makes no access (R190) and so neither
raises nor causes a fault of the V path (R193, log 146). -/
def vmemChecked (s : State) (is : Issue) (ms : List VMem) (lat : Nat) (writes : Bool) (f : State → State) : State :=
  let own := issueOwner s is
  match badLane s (gangOf s is.gang).task ms writes with
  | some (k, c, a) => raiseAux s own 8 c a k
  | none =>
    match ms.zipIdx.findSome? fun (m, k) =>
        if m.lanes.isEmpty then none else (vpathCause (slabOf s m.tile) (s.now + lat)).map fun c => (c, k) with
    | some (c, k) => raiseAux s own 9 c 0 k
    | none => f s

/-- A load: lanes read at c+3, the result after that (R191). -/
def vloadAll (s : State) (is : Issue) (ms : List VMem) (port : Nat) : State :=
  vmemChecked s is ms 3 false fun s => ms.foldl (fun s m =>
    postAct s (issueOwner s is) (s.now + 3) ordRead (.vload m.tile port (m.lanes.map fun l => (l.1, l.2.1.toNat)))) s

/-- A store: bound check at the trigger, words written at c+lat through the V path (R191, R192).  The address faults and the V path's
come before the bound trap (DESIGN CHOICE, log 175). -/
def vstoreAll (s : State) (is : Issue) (ms : List VMem) (lat shape : Nat) : State :=
  let own := issueOwner s is
  vmemChecked s is ms lat true fun s =>
    let gg := gangOf s is.gang
    let outs := ms.map fun m =>
      (m.tile, boundLanes gg ((shapeOf (slabOf s m.tile) shape).extractLsb' 36 4).toNat m.lanes)
    match outs.zipIdx.find? fun ((_, _, _, tr), _) => tr with
    | some (_, k) => raiseAux s own 7 0 0 k
    | none =>
      let s := setFlags s is.gang (outs.foldl (fun a x => a.or x.2.2.1) .none)
      outs.foldl (fun s x => postAct s own (s.now + lat) (ordWrite + 7)
        (.vstore x.1 (x.2.1.map fun l => (l.1, l.2.1.toNat, l.2.2)) x.2.2.1.bndf)) s

def execVld (g : BitVec 5) (src : BitVec 9) (s : State) : Host.Outcome State Fault Refusal :=
  slotStep s g 489 fun is s =>
    let ts := gangTiles s is.gang
    untagged s is ts src fun s =>
      vloadAll s is (ts.map fun t =>
        let o := vOpds s is t
        ⟨t, activeLanes o.km (stridedAddr (shapeOf (slabOf s t) 4) (o.adr + (readScalar s is t src).val)) fun _ => 0⟩) 145

/-- The other three take a vector trigger. -/
def vmemVec (s : State) (g : BitVec 5) (port : Nat) (src : BitVec 9) (lanes : State → Issue → TileName → VOpds → Vec → VMem)
    (f : State → Issue → List VMem → State) : Host.Outcome State Fault Refusal :=
  slotStep s g port fun is s =>
    let ts := gangTiles s is.gang
    match ts.zipIdx.find? fun (t, _) => vecTagged s is t src with
    | some (_, k) => consumeDF s is k
    | none => f s is (ts.map fun t => lanes s is t (vOpds s is t) (readVec s is t src))

def execVst (g : BitVec 5) (src : BitVec 9) (s : State) : Host.Outcome State Fault Refusal :=
  vmemVec s g 490 src
    (fun s _ t o x => ⟨t, activeLanes o.km (stridedAddr (shapeOf (slabOf s t) 5) o.adr) (lane x)⟩)
    fun s is ms => vstoreAll s is ms 3 5

def indexedAddr (o : VOpds) (x : Vec) (i : Nat) : Word := o.adr + (lane x i).setWidth 64

def execVgath (g : BitVec 5) (src : BitVec 9) (s : State) : Host.Outcome State Fault Refusal :=
  vmemVec s g 491 src (fun _ _ t o x => ⟨t, activeLanes o.km (indexedAddr o x) fun _ => 0⟩)
    fun s is ms => vloadAll s is ms 146

def execVscat (g : BitVec 5) (src : BitVec 9) (s : State) : Host.Outcome State Fault Refusal :=
  vmemVec s g 492 src (fun _ _ t o x => ⟨t, activeLanes o.km (indexedAddr o x) (lane o.a)⟩)
    fun s is ms => vstoreAll s is ms 10 7

/-- The lanes of a load at its array cycle; inactive lanes are 0. -/
def landVload (s : State) (own : Owner) (t : TileName) (port : Nat) (ls : List (Nat × Nat)) : State :=
  let v := ls.foldl (fun v l => v ||| ((BitVec.ofNat 2048 (padRead s t l.2 4)) <<< (32 * l.1))) (0 : Vec)
  postLand s own (s.now + if port = 145 then 2 else 9) (.vRes t port v)

/-- The words of a store, in lane order. -/
def landVstore (s : State) (t : TileName) (ws : List (Nat × Nat × BitVec 32)) : State :=
  ws.foldl (fun s w => padStore s t w.2.1 4 w.2.2.toNat) s

/-! ### Lane operations and compares -/

/-- VADD (R179). -/
def execVadd (g : BitVec 5) (src : BitVec 9) (s : State) : Host.Outcome State Fault Refusal :=
  laneOp 453 144 4 (fun a _ t => fpRes (add32 a.toNat t.toNat)) g src s

/-- VSUB (R179). -/
def execVsub (g : BitVec 5) (src : BitVec 9) (s : State) : Host.Outcome State Fault Refusal :=
  laneOp 454 144 4 (fun a _ t => fpRes (add32 a.toNat (fneg t.toNat))) g src s

/-- VMUL (R179). -/
def execVmul (g : BitVec 5) (src : BitVec 9) (s : State) : Host.Outcome State Fault Refusal :=
  laneOp 455 144 4 (fun a _ t => fpRes (mul32 a.toNat t.toNat)) g src s

/-- VFMA (R179). -/
def execVfma (g : BitVec 5) (src : BitVec 9) (s : State) : Host.Outcome State Fault Refusal :=
  laneOp 456 144 4 (fun a c t => fpRes (fma32 a.toNat t.toNat c.toNat)) g src s

/-- VMIN (R179). -/
def execVmin (g : BitVec 5) (src : BitVec 9) (s : State) : Host.Outcome State Fault Refusal :=
  laneOp 457 144 4 (fun a _ t => intLane (fmin32 a t)) g src s

/-- VMAX (R179). -/
def execVmax (g : BitVec 5) (src : BitVec 9) (s : State) : Host.Outcome State Fault Refusal :=
  laneOp 458 144 4 (fun a _ t => intLane (fmax32 a t)) g src s

/-- VABS (R180). -/
def execVabs (g : BitVec 5) (src : BitVec 9) (s : State) : Host.Outcome State Fault Refusal :=
  laneOp 459 142 2 (fun _ _ t => intLane (signLane t (t &&& 0x7FFFFFFF))) g src s

/-- VNEG (R180). -/
def execVneg (g : BitVec 5) (src : BitVec 9) (s : State) : Host.Outcome State Fault Refusal :=
  laneOp 460 142 2 (fun _ _ t => intLane (signLane t (t ^^^ 0x80000000))) g src s

/-- VIADD (R180). -/
def execViadd (g : BitVec 5) (src : BitVec 9) (s : State) : Host.Outcome State Fault Refusal :=
  laneOp 461 142 2 (fun a _ t => intLane (a + t)) g src s

/-- VISUB (R180). -/
def execVisub (g : BitVec 5) (src : BitVec 9) (s : State) : Host.Outcome State Fault Refusal :=
  laneOp 462 142 2 (fun a _ t => intLane (a - t)) g src s

/-- VIMUL (R180). -/
def execVimul (g : BitVec 5) (src : BitVec 9) (s : State) : Host.Outcome State Fault Refusal :=
  laneOp 463 142 2 (fun a _ t => intLane (a * t)) g src s

/-- VAND (R180). -/
def execVand (g : BitVec 5) (src : BitVec 9) (s : State) : Host.Outcome State Fault Refusal :=
  laneOp 464 142 2 (fun a _ t => intLane (a &&& t)) g src s

/-- VOR (R180). -/
def execVor (g : BitVec 5) (src : BitVec 9) (s : State) : Host.Outcome State Fault Refusal :=
  laneOp 465 142 2 (fun a _ t => intLane (a ||| t)) g src s

/-- VXOR (R180). -/
def execVxor (g : BitVec 5) (src : BitVec 9) (s : State) : Host.Outcome State Fault Refusal :=
  laneOp 466 142 2 (fun a _ t => intLane (a ^^^ t)) g src s

/-- VSHL (R180). -/
def execVshl (g : BitVec 5) (src : BitVec 9) (s : State) : Host.Outcome State Fault Refusal :=
  laneOp 467 142 2 (fun a _ t => intLane (a <<< (t.toNat % 32))) g src s

/-- VSHR (R180). -/
def execVshr (g : BitVec 5) (src : BitVec 9) (s : State) : Host.Outcome State Fault Refusal :=
  laneOp 468 142 2 (fun a _ t => intLane (a >>> (t.toNat % 32))) g src s

/-- VSAR (R180). -/
def execVsar (g : BitVec 5) (src : BitVec 9) (s : State) : Host.Outcome State Fault Refusal :=
  laneOp 469 142 2 (fun a _ t => intLane (a.sshiftRight (t.toNat % 32))) g src s

/-- VCMP.EQ (R181). -/
def execVcmpEq (g : BitVec 5) (src : BitVec 9) (s : State) : Host.Outcome State Fault Refusal :=
  cmpOp 470 (fun a t => fEq a t) g src s

/-- VCMP.NE (R181). -/
def execVcmpNe (g : BitVec 5) (src : BitVec 9) (s : State) : Host.Outcome State Fault Refusal :=
  cmpOp 471 (fun a t => !fEq a t) g src s

/-- VCMP.LT (R181). -/
def execVcmpLt (g : BitVec 5) (src : BitVec 9) (s : State) : Host.Outcome State Fault Refusal :=
  cmpOp 472 (fun a t => fLt a t) g src s

/-- VCMP.LE (R181). -/
def execVcmpLe (g : BitVec 5) (src : BitVec 9) (s : State) : Host.Outcome State Fault Refusal :=
  cmpOp 473 (fun a t => fLt a t || fEq a t) g src s

/-- VCMP.IEQ (R181). -/
def execVcmpIeq (g : BitVec 5) (src : BitVec 9) (s : State) : Host.Outcome State Fault Refusal :=
  cmpOp 474 (fun a t => a == t) g src s

/-- VCMP.INE (R181). -/
def execVcmpIne (g : BitVec 5) (src : BitVec 9) (s : State) : Host.Outcome State Fault Refusal :=
  cmpOp 475 (fun a t => a != t) g src s

/-- VCMP.ILT (R181). -/
def execVcmpIlt (g : BitVec 5) (src : BitVec 9) (s : State) : Host.Outcome State Fault Refusal :=
  cmpOp 476 (fun a t => a.slt t) g src s

/-- VCMP.ILE (R181). -/
def execVcmpIle (g : BitVec 5) (src : BitVec 9) (s : State) : Host.Outcome State Fault Refusal :=
  cmpOp 477 (fun a t => a.sle t) g src s

/-- VCMP.ILTU (R181). -/
def execVcmpIltu (g : BitVec 5) (src : BitVec 9) (s : State) : Host.Outcome State Fault Refusal :=
  cmpOp 478 (fun a t => a.ult t) g src s

/-- VCMP.ILEU (R181). -/
def execVcmpIleu (g : BitVec 5) (src : BitVec 9) (s : State) : Host.Outcome State Fault Refusal :=
  cmpOp 479 (fun a t => a.ule t) g src s

/-- VRED.ADD (R184). -/
def execVredAdd (g : BitVec 5) (src : BitVec 9) (s : State) : Host.Outcome State Fault Refusal :=
  redOp 482 redAdd g src s

/-- VRED.MIN (R184). -/
def execVredMin (g : BitVec 5) (src : BitVec 9) (s : State) : Host.Outcome State Fault Refusal :=
  redOp 483 (redPick fmin32 0x7F800000) g src s

/-- VRED.MAX (R184). -/
def execVredMax (g : BitVec 5) (src : BitVec 9) (s : State) : Host.Outcome State Fault Refusal :=
  redOp 484 (redPick fmax32 0xFF800000) g src s

/-- VRED.IADD (R184). -/
def execVredIadd (g : BitVec 5) (src : BitVec 9) (s : State) : Host.Outcome State Fault Refusal :=
  redOp 485 redIadd g src s

/-- KAND (R186). -/
def execKand (g : BitVec 5) (src : BitVec 9) (s : State) : Host.Outcome State Fault Refusal :=
  maskOp 493 147 (fun _ m t => t &&& m) g src s

/-- KOR (R186). -/
def execKor (g : BitVec 5) (src : BitVec 9) (s : State) : Host.Outcome State Fault Refusal :=
  maskOp 494 147 (fun _ m t => t ||| m) g src s

/-- KXOR (R186). -/
def execKxor (g : BitVec 5) (src : BitVec 9) (s : State) : Host.Outcome State Fault Refusal :=
  maskOp 495 147 (fun _ m t => t ^^^ m) g src s

/-- KNOT (R186). -/
def execKnot (g : BitVec 5) (src : BitVec 9) (s : State) : Host.Outcome State Fault Refusal :=
  maskOp 496 147 (fun _ _ t => ~~~t) g src s

/-- KTAIL (R186). -/
def execKtail (g : BitVec 5) (src : BitVec 9) (s : State) : Host.Outcome State Fault Refusal :=
  maskOp 497 147 (fun k _ t => tailMask k t) g src s

/-- KPOPC (R186). -/
def execKpopc (g : BitVec 5) (src : BitVec 9) (s : State) : Host.Outcome State Fault Refusal :=
  maskOp 498 148 (fun _ _ t => popcV t) g src s

end Sys2Proof.Machine
end

