-- ==== Sys2Proof/Machine/Side.lean ====
section
/-! DEFINITION. The side engines of a slab: interpolation F (07_vector R193 to R195) and transposer X (R196 to R199). -/

namespace Sys2Proof.Machine

/-! ### Interpolation -/

/-- The task holds every bank of a byte range (R168). -/
def rangeBank (s : State) (task : Nat) (t : TileName) (a n : Nat) : Bool :=
  (List.range ((a + n - 1) / 0x20000 + 1 - a / 0x20000)).all fun i => holdsBank s task t (a / 0x20000 + i)

/-- The address cause of a table address (R193): RANGE, then ALIGN, then BANK (DESIGN CHOICE, log 176). -/
def floadCause (s : State) (task : Nat) (t : TileName) (a : Word) : Option Nat :=
  if 0x400000 ≤ a.toNat + 3071 then some 4
  else if a.toNat % 64 != 0 then some 5
  else if !rangeBank s task t a.toNat 3072 then some 7
  else none

/-- A vector memory operation in flight has its array cycle in a range. -/
def vaccessIn (s : State) (t : TileName) (lo hi : Nat) : Bool :=
  s.agenda.any fun e => lo ≤ e.at_ && e.at_ ≤ hi &&
    match e.instr with
    | .operationLanding _ (.vload t' _ ls) => t' = t && !ls.isEmpty
    | .operationLanding _ (.vstore t' ws _) => t' = t && !ws.isEmpty
    | _ => false

/-- An FLOAD triggered fewer than 48 cycles ago (R193). -/
def floadBusy (sl : Slab) (now : Nat) : Bool := match sl.fload with | some c => now < c + 48 | none => false

/-- The timing cause of an FLOAD: an earlier one or a vector access in its rows, or a drain row (R193, 08_accumulator
R223); EARLY before VPATH (DESIGN CHOICE, log 177). -/
def floadTiming (s : State) (t : TileName) : Option Nat :=
  let sl := slabOf s t
  if floadBusy sl s.now then some 1
  else if vaccessIn s t (s.now + 1) (s.now + 48) then some 1
  else if sl.mx.vclaims.any fun c => c.1 ≤ s.now + 48 && s.now + 1 ≤ c.2 then some 9
  else none

/-- FLOAD (R193). DESIGN CHOICE (log 156): its address checks come before its timing fault. -/
def execFload (g : BitVec 5) (src : BitVec 9) (s : State) : Host.Outcome State Fault Refusal :=
  slotStep s g 577 fun is s =>
    let ts := gangTiles s is.gang
    let own := issueOwner s is
    untagged s is ts src fun s =>
      let a (t : TileName) : Word := (readScalar s is t src).val
      match ts.zipIdx.findSome? fun (t, k) => (floadCause s (gangOf s is.gang).task t (a t)).map fun c => (c, k, a t) with
      | some (c, k, x) => raiseAux s own 8 c x k
      | none =>
        match ts.zipIdx.findSome? fun (t, k) => (floadTiming s t).map fun c => (c, k) with
        | some (c, k) => raiseAux s own 9 c 0 k
        | none => forTiles s ts fun st t =>
            let st := modSlab st t fun sl => { sl with fload := some s.now }
            (List.range 48).foldl (fun st r =>
              postAct st own (s.now + 1 + r) ordRead (.floadRow t ((a t).toNat + 64 * r) r)) st

/-- A row of sixteen coefficients; the last one makes the new table take effect (R193). -/
def landFloadRow (s : State) (t : TileName) (a r : Nat) : State :=
  modSlab s t fun sl =>
    let new := tabPuts sl.fnew ((List.range 16).map fun i => (16 * r + i, BitVec.ofNat 32 (padRead s t (a + 4 * i) 4)))
    if r = 47 then
      { sl with ftab := new, fnew := [], fload := if sl.fload = some (s.now - 48) then none else sl.fload }
    else { sl with fnew := new }

def fctlShift (w : Word) : Nat := w.toNat % 32
def fctlBf (w : Word) : Bool := w.getLsbD 5
def fctlIp (w : Word) : Nat := (w.extractLsb' 6 1).toNat
def fctlFmt (w : Word) : Nat := (w.extractLsb' 8 4).toNat
def fctlDp (w : Word) : Nat := (w.extractLsb' 12 2).toNat

/-- The format trap's condition (R195). -/
def fctlBad (w : Word) : Bool :=
  let f := fctlFmt w
  24 < fctlShift w || !(f = 0 || f = 2 || f = 3 || f = 4) || 32 / fmtBits f ≤ fctlDp w

/-- FEVAL (R195): checks at the trigger; the coefficients are read after the end of the trigger cycle (R193). DESIGN CHOICE
(log 155): the format trap comes before the timing fault. -/
def execFeval (g : BitVec 5) (src : BitVec 9) (s : State) : Host.Outcome State Fault Refusal :=
  slotStep s g 578 fun is s =>
    let ts := gangTiles s is.gang
    let own := issueOwner s is
    match ts.zipIdx.find? fun (t, _) => vecTagged s is t src with
    | some (_, k) => consumeDF s is k
    | none =>
      match badSlab s is fun t => fctlBad (slOpd s is t 576).val with
      | some k => raiseAux s own 6 3 0 k
      | none =>
        match badSlab s is fun t => floadBusy (slabOf s t) s.now with
        | some k => raiseAux s own 9 1 0 k
        | none => postAct s own s.now ordEval
            (.feval (ts.map fun t => (t, (slOpd s is t 576).val, (slOpd s is t 450).val, readVec s is t src)))

/-- One lane: the FP32 input, its segment, two FMAs, the conversion. -/
def fevalLane (tab : Tab (BitVec 32)) (ctl : Word) (t : Vec) (i : Nat) : Nat × FlagSet :=
  let x := if fctlBf ctl then elemOf t 16 (64 * fctlIp ctl + i) * 2 ^ 16 else (lane t i).toNat
  let seg := x / 2 ^ fctlShift ctl % 256
  let c (j : Nat) : Nat := (tabGetD 0 tab (3 * seg + j)).toNat
  let (u, i1) := fma32 (c 2) x (c 1)
  let (y, i2) := fma32 u x (c 0)
  let (r, fl) := convertFmt 4 (fctlFmt ctl) 0 y
  (r, if i1 || i2 then fl.or invFlag else fl)

def fevalResult (tab : Tab (BitVec 32)) (ctl km : Word) (t : Vec) : Vec × FlagSet :=
  (List.range 64).foldl (fun (v, fl) i =>
    if km.getLsbD i then
      let (r, g) := fevalLane tab ctl t i
      (putElem v (fmtBits (fctlFmt ctl)) (64 * fctlDp ctl + i) r, fl.or g)
    else (v, fl)) (0, .none)

/-- The evaluation in every slab at the end of the trigger cycle: slab, f.ctl, mask and operand; under STRICT the numeric trap
of the lowest slab that meets it stops them all (R178, 11_group R270). -/
def landFeval (s : State) (own : Owner) (xs : List (TileName × Word × Word × Vec)) : State :=
  landFlaggedOf s own 7 (xs.map fun (t, ctl, km, x) =>
    let (v, fl) := fevalResult (slabOf s t).ftab ctl km x
    (.vRes t 150 v, fl))

/-! ### Transposer -/

def hxRows (w : Word) : Nat := let r := w.toNat % 256; if r = 0 || 64 < r then 64 else r
def hxHalf (w : Word) : Bool := w.getLsbD 16
def hxCols (w : Word) : Nat :=
  let c := (w.extractLsb' 8 8).toNat
  let top := if hxHalf w then 128 else 64
  if c = 0 || top < c then top else c

/-- Every row of a tile has been pushed. -/
def xFull (x : XTile) : Bool := hxRows x.hx0 ≤ x.rows.length

/-- XPUSH would start a third tile (R197). -/
def xBlocked (sl : Slab) : Bool :=
  match sl.xtiles with
  | [a, b] => xFull a && xFull b
  | _ => false

/-- A row joins the filling tile, or starts a new one that latches hx0. -/
def xPushRow (sl : Slab) (now : Nat) (row : Vec) : Slab :=
  match sl.xtiles.reverse with
  | x :: rest =>
    if xFull x then { sl with xtiles := sl.xtiles ++ [⟨[row], 0, shapeOf sl 8, now, now⟩] }
    else { sl with xtiles := ({ x with rows := x.rows ++ [row], last := now } :: rest).reverse }
  | [] => { sl with xtiles := [⟨[row], 0, shapeOf sl 8, now, now⟩] }

def execXpush (g : BitVec 5) (src : BitVec 9) (s : State) : Host.Outcome State Fault Refusal :=
  slotStep s g 593 fun is s =>
    let ts := gangTiles s is.gang
    match ts.zipIdx.find? fun (t, _) => vecTagged s is t src with
    | some (_, k) => consumeDF s is k
    | none =>
      match badSlab s is fun t => xBlocked (slabOf s t) with
      | some k => raiseAux s (issueOwner s is) 9 8 0 k
      | none => forTiles s ts fun st t => modSlab st t fun sl => xPushRow sl s.now (readVec s is t src)

/-- XPOP is too early, or there is no full tile (R198). -/
def xpopBad (sl : Slab) (now : Nat) : Bool :=
  match sl.xtiles with
  | x :: _ => !xFull x || now < x.first + 69 || now < x.last + 6
  | [] => true

/-- Column j of a tile (R198). -/
def xColumn (x : XTile) (j : Nat) : Vec :=
  let w := if hxHalf x.hx0 then 16 else 32
  (x.rows.take (hxRows x.hx0)).zipIdx.foldl (fun v (r, e) => putElem v w e (elemOf r w j)) 0

/-- The next column leaves the oldest tile; after the last one its buffer is empty. -/
def xPopCol (sl : Slab) : Slab :=
  match sl.xtiles with
  | x :: rest => { sl with xtiles := if hxCols x.hx0 ≤ x.pops + 1 then rest else { x with pops := x.pops + 1 } :: rest }
  | [] => sl

def execXpop (g : BitVec 5) (src : BitVec 9) (s : State) : Host.Outcome State Fault Refusal :=
  slotStep s g 594 fun is s =>
    let ts := gangTiles s is.gang
    let own := issueOwner s is
    untagged s is ts src fun s =>
      match badSlab s is fun t => xpopBad (slabOf s t) s.now with
      | some k => raiseAux s own 9 1 0 k
      | none => forTiles s ts fun st t =>
          let st := match (slabOf st t).xtiles with
            | x :: _ => postLand st own (s.now + 1) (.vRes t 151 (xColumn x x.pops))
            | [] => st
          modSlab st t xPopCol

/-- XCLR (R199): both buffers are empty at c+1. -/
def execXclr (g : BitVec 5) (src : BitVec 9) (s : State) : Host.Outcome State Fault Refusal :=
  slotStep s g 595 fun is s =>
    let ts := gangTiles s is.gang
    untagged s is ts src fun s => forTiles s ts fun st t => postLand st (issueOwner s is) (s.now + 1) (.xclr t)

def landXclr (s : State) (t : TileName) : State := modSlab s t fun sl => { sl with xtiles := [] }

end Sys2Proof.Machine
end

