-- ==== Sys2Proof/Machine/Queue.lean ====
section
/-! DEFINITION. The queue unit Q: tokens, soft events and host rings (15_queue R355 to R363). -/

namespace Sys2Proof.Machine

/-! ### Tokens (R355 to R358) -/

/-- Where a queue address leads, by the checks 1 to 6 of R357: the tile and the local address, or class and cause. -/
def queuePlace (s : State) (t : TileName) (put : Bool) (a : Nat) : Except (Nat × Nat) (TileName × Nat) :=
  let low (d : TileName) (o : Nat) : Except (Nat × Nat) (TileName × Nat) :=
    if o % 8 != 0 then .error (8, 5) else if protectedAddr o then .error (8, 6) else .ok (d, o)
  match spaceOf (gangOf s t).width a with
  | some 3 => .error (8, 1)
  | some 0 => low t (a - spaceBase 0)
  | some 2 =>
    let o := a - spaceBase 2
    let d := o / 0x400000
    if put && (!namesTile d || (nameEntry (slabOf s t) d).isNone) then .error (11, 0)
    else if !put then .error (8, 2)
    else low d (o % 0x400000)
  | _ => .error (8, 2)

/-- The narrowest common scope of a gang's slab 0 and a tile of the module (11_group R274). -/
def commonScope (s : State) (g d : TileName) : BitVec 3 :=
  if d = g then 0 else if (gangTiles s g).contains d then 1 else if inDomain (gangOf s g).dmem d then 2 else 3

/-- TOKPUT (R357), and a soft event with q.opb[1] = 1 (R358). -/
def execTokput (g : BitVec 5) (src : BitVec 9) (s : State) : Host.Outcome State Fault Refusal :=
  barStep s g 722 src fun is s own w _ =>
    let t := is.gang
    match queuePlace s t true w.toNat with
    | .error (cl, ca) => raiseAux s own cl ca w 0
    | .ok (d, o) =>
      let b := (slOpd s is t 721).val
      let wafer := isWafer s t (gangOf s t).dmem d
      if queueFull s t wafer then raise s own 9 6
      else
        let kind : ItemKind :=
          if b.getLsbD 1 then .softEvent ((slOpd s is t 720).val.setWidth 40)
          else .token o (commonScope s t d) (b.getLsbD 0) w
        enqueue s own t wafer unitQ kind d (s.now + 1)

/-- TOKGET (R357): the word is acted on at c+2, at the own-tile turn. -/
def execTokget (g : BitVec 5) (src : BitVec 9) (s : State) : Host.Outcome State Fault Refusal :=
  barStep s g 723 src fun is s own w _ =>
    let t := is.gang
    match queuePlace s t false w.toNat with
    | .error (cl, ca) => raiseAux s own cl ca w 0
    | .ok (_, o) =>
      if !holdsBank s (gangOf s t).task t (o / 0x20000) then raiseAux s own 8 7 w 0
      else postAct s own (s.now + 2) (ordWrite + 2) (.tokGet t o)

def tokCount (w : Word) : BitVec 32 := w.extractLsb' 0 32
def tokScope (w : Word) : BitVec 3 := w.extractLsb' 60 3

/-- Take a token if there is one: the word's new value and the result (R357). -/
def tokTake (w : Word) : Word × Word :=
  if tokCount w = 0 then (w, 0)
  else
    let w := w - 1
    (if tokCount w = 0 then putBits w 60 3 0 else w, 1)

/-- Count a token: the word's new value (R357). -/
def tokAdd (w : Word) (scope : BitVec 3) : Word :=
  let sc := if tokCount w = 0 then scope else if (tokScope w).ult scope then scope else tokScope w
  let w' := if tokCount w = BitVec.allOnes 32 then w ||| BitVec.twoPow 64 63 else w + 1
  putBits w' 60 3 (sc.setWidth 64)

/-- The array action of a TOKGET, its result at c+4 in every slab (R356) and the acquire of a token taken (13_binding R296,
R300). -/
def landTokGet (s : State) (own : Owner) (t : TileName) (a : Nat) : State :=
  let (w, r) := tokTake (padWord s t a)
  let s := if r = 1 then padStore s t a 8 w.toNat else s
  let s := (gangTiles s own.gang).foldl (fun s t => postLand s own (s.now + 2) (.slRes t 162 (.plain r))) s
  if r = 1 then postLand s own (s.now + 2) (.acquire 2 (BitVec.ofNat 64 (spaceBase 0 + a))) else s

/-- TOKEN_DELIVERY (R357). -/
def execTokenDelivery (s : State) : Host.Outcome State Fault Refusal :=
  match s.arg with
  | .tokenDelivery d src a scope ev =>
    let s := padStore s d a 8 (tokAdd (padWord s d a) scope).toNat
    .next (if ev then postEventAt s d src (eventWord 2 (BitVec.ofNat 16 src) (BitVec.ofNat 40 a)) else s)
  | _ => .fault .noOperand

/-- SOFT_EVENT_DELIVERY (R358): a tile with no task drops it. -/
def execSoftEventDelivery (s : State) : Host.Outcome State Fault Refusal :=
  match s.arg with
  | .softEventDelivery d src p =>
    let drop : State := { s with dropSoft := s.dropSoft + 1 }
    match gangAt s d with
    | none => .next drop
    | some g =>
      if (gangOf s g).seq = .idle then .next drop
      else .next (postEvent s g src (eventWord 7 (BitVec.ofNat 16 src) p))
  | _ => .fault .noOperand

/-! ### Host rings (R359 to R361) -/

/-- RINGPUT (R360). -/
def execRingput (g : BitVec 5) (src : BitVec 9) (s : State) : Host.Outcome State Fault Refusal :=
  barStep s g 724 src fun is s own w _ =>
    let t := is.gang
    let c := (gangOf s t).ctx
    let r := (slOpd s is t 720).val.toNat % 64
    if queueFull s t true then raise s own 9 6
    else if (tabGet (ctxOf s c).rings r).isNone then raiseAux s own 8 2 (BitVec.ofNat 64 r) 0
    else enqueue s own t true unitQ (.ring c r w) t (s.now + 1)

def modRing (s : State) (c r : Nat) (f : HostRing → HostRing) : State :=
  modCtx s c fun k => { k with rings := tabMod k.rings r f }

/-- An entry of a host ring, of 16 bytes (R359): payload, source, dispatcher bits, ring, sequence. -/
def ringEntryBytes (ring : Nat) (e : Word × BitVec 16 × BitVec 8 × Nat) : List Byte :=
  codeBytes 8 e.1.toNat ++ codeBytes 2 e.2.1.toNat ++ [e.2.2.1] ++ codeBytes 1 ring ++ codeBytes 4 e.2.2.2

/-- A posted write through that port. -/
def postWrite (s : State) (addr : Word) (bs : List Byte) : State := tell s (.posted (hostPort s) addr bs)

/-- Entries a ring holds. -/
def ringUsed (h : HostRing) : Nat := (h.tail + 2 ^ 32 - h.head) % 2 ^ 32

/-- The ring's interrupt: PENDING falls to 0 and the timer stops (R361). -/
def ringIrq (s : State) (c r : Nat) (h : HostRing) : State :=
  tell (modRing s c r fun h => { h with pending := 0, epoch := h.epoch + 1 }) (.irq c r h.set.vector)

/-- The timer of a ring with an entry counted in PENDING, from the present cycle on (R361). -/
def ringTimer (s : State) (c r : Nat) (h : HostRing) : State :=
  if h.pending != 0 && h.set.timeUs != 0 then
    postEv s (s.now + usCycles s h.set.timeUs) ordEnd 0 none .ringCoalesceTimeout (.ringCoalesceTimeout c r h.epoch)
  else s

/-- Timers of a context's rings after its return to a boundary or its restoration (DESIGN CHOICE, log 142: counted from
there). -/
def ringTimers (s : State) (c : Nat) : State := (ctxOf s c).rings.foldl (fun s e => ringTimer s c e.1 e.2) s

/-- Write one entry of a ring, or drop it when the ring is full (R360, R361). -/
def ringWrite (s : State) (c r : Nat) (payload : Word) (source : BitVec 16) (disp : BitVec 8) : State :=
  match tabGet (ctxOf s c).rings r with
  | none => s
  | some h =>
    if 2 ^ h.set.logsize ≤ ringUsed h then modRing s c r fun h => { h with drops := h.drops + 1 }
    else
      let x := (payload, source, disp, h.tail)
      let h' : HostRing := { h with tail := (h.tail + 1) % 2 ^ 32, pending := h.pending + 1, entries := h.entries ++ [x] }
      let s := postWrite (modRing s c r fun _ => h') (h.set.base + BitVec.ofNat 64 (16 * (h.tail % 2 ^ h.set.logsize)))
        (ringEntryBytes r x)
      if h.set.count ≤ h'.pending then ringIrq s c r h'
      else if h'.pending = 1 then ringTimer s c r h'
      else s

/-- HOST_RING_ENTRY_WRITE (R360). -/
def execHostRingEntryWrite (s : State) : Host.Outcome State Fault Refusal :=
  match s.arg with
  | .hostRingEntryWrite c r p src d => .next (ringWrite s c r p src d)
  | _ => .fault .noOperand

/-- RING_COALESCE_TIMEOUT (R361): T microseconds after the first entry counted in PENDING. -/
def execRingCoalesceTimeout (s : State) : Host.Outcome State Fault Refusal :=
  match s.arg with
  | .ringCoalesceTimeout c r e =>
    match tabGet (ctxOf s c).rings r with
    | some h => .next (if h.epoch = e && h.pending != 0 then ringIrq s c r h else s)
    | none => .next s
  | _ => .fault .noOperand

/-- Post an event to every EVENT tile of a context, or of all, that enables its class (R360, 11_group R276). -/
def postToEventGangs (s : State) (c : Option Nat) (cls : Nat) (w : Word) : State :=
  (s.gangs.filter fun e =>
    e.2.seq != .idle && e.2.tctl.event && e.2.tctl.evm.getLsbD cls && (c.isNone || c = some e.2.ctx)).foldl
    (fun s e => postEvent s e.1 0x10000 w) s

/-- RING_HEAD_ADVANCE (R360): what a RING event's source and payload hold no rule says (log 17).  Ring 64 is the sampler's
(21_marker R464, log 151). -/
def execRingHeadAdvance (s : State) : Host.Outcome State Fault Refusal :=
  match s.arg with
  | .ringHeadAdvance c r head =>
    match tabGet (ctxOf s c).rings r with
    | none =>
      .next (if r = 64 then
          modCtx s c fun k => { k with sampler := k.sampler.map fun m => { m with head := head % 2 ^ 32 } }
        else s)
    | some _ =>
      let s := modRing s c r fun h => { h with head := head % 2 ^ 32 }
      .next (postToEventGangs s (some c) 3 (openEvent 3 ((openBits (BitVec.ofNat 64 r)).extractLsb' 40 16)))
  | _ => .fault .noOperand

/-- RING_SET (R359): a ring set up anew is empty. -/
def execRingSet (s : State) : Host.Outcome State Fault Refusal :=
  match s.arg with
  | .ringSet c r x =>
    let st := (ctxOf s c).st
    if !(st = .loading || st = .ready || st = .quiesced) then .next (answer s c 1 0)
    else if 64 ≤ r || x.logsize < 4 || 16 < x.logsize || x.count = 0 || 65535 < x.count || 65535 < x.timeUs then
      .next (answer s c 2 0)
    else
      let e := match tabGet (ctxOf s c).rings r with | some h => h.epoch + 1 | none => 0
      let head := x.head % 2 ^ 32
      .next (answer (modCtx s c fun k =>
        { k with rings := tabPut k.rings r ⟨x, head, head, 0, 0, e, []⟩ }) c 0 0)
  | _ => .fault .noOperand

end Sys2Proof.Machine
end

