-- ==== Sys2Proof/Machine/Collective.lean ====
section
/-! DEFINITION. Collectives (18_link R421 to R425): COLL and COLLWAIT, the collective engine, communicators. -/

namespace Sys2Proof.Machine

/-! ### The descriptor (R422) -/

def collOp (d : BitVec 512) : Nat := (d.extractLsb' 0 8).toNat
def collFmt (d : BitVec 512) : Nat := (d.extractLsb' 8 8).toNat
def collRoot (d : BitVec 512) : Nat := (d.extractLsb' 16 16).toNat
def collElems (d : BitVec 512) : Nat := (d.extractLsb' 32 32).toNat
def collSrc (d : BitVec 512) : Nat := (d.extractLsb' 64 22).toNat
def collDst (d : BitVec 512) : Nat := (d.extractLsb' 128 22).toNat

/-- Bytes of an element: BF16 has two, FP32 and INT32 four. -/
def collSize (fmt : Nat) : Nat := if fmt = 2 then 2 else 4

def collSrcBytes (d : BitVec 512) : Nat := collElems d * collSize (collFmt d)
def collDstBytes (d : BitVec 512) (nrank : Nat) : Nat := collSrcBytes d * (if collOp d = 4 then nrank else 1)

/-- Check 3 of R423. -/
def collDescBad (d : BitVec 512) (nrank : Option Nat) : Bool :=
  4 < collOp d || !(collFmt d = 2 || collFmt d = 4 || collFmt d = 5) || d.extractLsb' 192 320 != 0 ||
    collElems d = 0 || 2 ^ 20 < collElems d ||
    (collOp d = 3 && (match nrank with | some n => n ≤ collRoot d | none => false))

/-- Check 5 of R423: the address cause and the address. -/
def collBufBad (s : State) (task : Nat) (t : TileName) (d : BitVec 512) (nrank : Nat) : Option (Nat × Nat) :=
  let a := collSrc d
  let b := collDst d
  let n := collSrcBytes d
  let m := collDstBytes d nrank
  if a % 64 != 0 then some (5, a)
  else if b % 64 != 0 then some (5, b)
  else if 0x400000 < a + n then some (4, a)
  else if 0x400000 < b + m then some (4, b)
  else if protectedAddr b then some (6, b)
  else if !rangeBank s task t a n then some (7, a)
  else if !rangeBank s task t b m then some (7, b)
  else none

/-- The rank of a gang of this module in a communicator (R421). -/
def collRank (rs : List (Nat × TileName)) (g : TileName) : Option Nat :=
  rs.findIdx? fun r => r.1 = Config.moduleIndex && r.2 = g

def collKey (comm rank : Nat) : Nat := comm * 4096 + rank

/-- COLL (R423): the gang's next number on the communicator, and its item.  Before SERVICE there is no communicator, and the
fault is COMM (19_tile R432). -/
def execColl (g : BitVec 5) (src : BitVec 9) (s : State) : Host.Outcome State Fault Refusal :=
  barStep s g 725 src fun is s own w _ =>
    let t := is.gang
    let gg := gangOf s t
    let k := ctxOf s gg.ctx
    let a := w.toNat
    let m := (slOpd s is t 720).val.toNat % 64
    let desc := BitVec.ofNat 512 (padRead s t a 64)
    let ranks := if s.phase = .service then tabGet k.comms m else none
    if a % 64 != 0 then raiseAux s own 8 5 w 0
    else if 0x400000 < a + 64 then raiseAux s own 8 4 w 0
    else if collDescBad desc (ranks.map (·.length)) then raise s own 6 23
    else
      match ranks with
      | none => raise s own 6 22
      | some rs =>
        match collRank rs t with
        | none => raise s own 6 22
        | some i =>
          match collBufBad s gg.task t desc rs.length with
          | some (ca, x) => raiseAux s own 8 ca (BitVec.ofNat 64 x) 0
          | none =>
            if gg.coll.isSome then raise s own 9 22
            else if queueFull s t true then raise s own 9 6
            else
              let n : BitVec 32 := tabGetD 0 k.collCount (collKey m i) + 1
              let s := modCtx s gg.ctx fun k => { k with collCount := tabPut k.collCount (collKey m i) n }
              let s := modGang s t fun gg => { gg with coll := some ⟨m, i, n, desc⟩, collDone := none }
              let s := postAct s own (s.now + 2) ordRead (.collRead t a m n)
              enqueue s own t true unitQ (.coll gg.ctx m i n) t (s.now + 1)

/-- The descriptor as it is read at c+2, for the gang's collective, or for that which its task has left to go on (14_kernel
R337). -/
def landCollRead (s : State) (own : Owner) (t : TileName) (a comm : Nat) (inst : BitVec 32) : State :=
  let put (x : CollOut) : CollOut :=
    if x.comm = comm && x.inst = inst then { x with desc := BitVec.ofNat 512 (padRead s t a 64) } else x
  let s := if ownerLive s own then modGang s t fun gg => { gg with coll := gg.coll.map put } else s
  modCtx s own.ctx fun k => { k with orphans := k.orphans.map fun o => if o.1 = t then (o.1, put o.2) else o }

/-- COLLWAIT (R424). -/
def execCollwait (g : BitVec 5) (src : BitVec 9) (s : State) : Host.Outcome State Fault Refusal :=
  barStep s g 726 src fun is s _ _ _ => recordWait s is.gang .collwait

/-- q.c goes to every slab. -/
def putCollStatus (s : State) (g : TileName) (w : Word) : State :=
  forTiles s (gangTiles s g) fun s u => putSl s u (gangOf s g).handler 163 (.plain w)

/-- COLLWAIT_COMPLETE (R424): with no collective outstanding the status is NONE, and no rule gives its number (log 17). -/
def execCollwaitComplete (s : State) : Host.Outcome State Fault Refusal :=
  match s.arg with
  | .collwaitComplete g =>
    match findWait s g (fun w => w = .collwait) with
    | none => .next s
    | some w =>
      let s := modGang s g fun gg => { gg with waits := w :: gg.waits.filter (· != w) }
      let gg := gangOf s g
      match gg.coll, gg.collDone with
      | none, _ => .next (waitDone (putCollStatus s g (((openBits 1).extractLsb' 0 32).setWidth 64 <<< 32 ||| 1)) g w)
      | some _, some v =>
        .next (waitDone (putCollStatus (modGang s g fun gg => { gg with coll := none, collDone := none }) g v) g w)
      | some _, none => .next (again s g .collwaitComplete)
  | _ => .fault .noOperand

/-! ### The engine (R423) -/

/-- Element j of a contribution as the code its format holds. -/
def collElem (fmt : Nat) (bytes : List Byte) (j : Nat) : Nat :=
  ((List.range (collSize fmt)).map fun i => (bytes[collSize fmt * j + i]?.getD 0).toNat * 256 ^ i).sum

/-- A BF16 element read exactly as FP32. -/
def collWiden (fmt x : Nat) : Nat := if fmt = 2 then x * 65536 else x

/-- One fold step in rank order: the new value and whether the operation is invalid. -/
def collFold (op fmt : Nat) (y x : Nat) : Nat × Bool :=
  if op = 0 then (if fmt = 5 then ((y + x) % 2 ^ 32, false) else add32 y x)
  else if op = 1 then ((fmin32 (BitVec.ofNat 32 y) (BitVec.ofNat 32 x)).toNat, false)
  else ((fmax32 (BitVec.ofNat 32 y) (BitVec.ofNat 32 x)).toNat, false)

/-- The code of a result value: rounded to BF16 for that format, and a NaN the canonical one (R423, 03_element R63). -/
def collCode (fmt y : Nat) : Nat :=
  if fmt = 2 then (convertFmt 4 2 0 y).1
  else if fmt = 4 && (decodeFmt 4 y).isNan then nanCode 4
  else y

/-- Element j of a reduction: its code and whether an operation was invalid. -/
def collReduce (op fmt : Nat) (cs : List Contribution) (j : Nat) : Nat × Bool :=
  match cs.map fun c => collWiden fmt (collElem fmt c.bytes j) with
  | [] => (0, false)
  | x :: xs =>
    let (y, inv) := xs.foldl (fun (y, i) x => let (z, b) := collFold op fmt y x; (z, i || b)) (x, false)
    (collCode fmt y, inv)

/-- The bytes of a contribution's elements as a result holds them (R423). -/
def collCopy (c : Contribution) : List Byte :=
  (List.range c.count).flatMap fun j => codeBytes (collSize c.fmt) (collCode c.fmt (collWiden c.fmt (collElem c.fmt c.bytes j)))

/-- The result bytes and INV, from the contributions in rank order. -/
def collResult (cs : List Contribution) : List Byte × Bool :=
  match cs with
  | [] => ([], false)
  | c :: _ =>
    if c.op = 3 then (match cs[c.root]? with | some r => (collCopy r, false) | none => ([], false))
    else if c.op = 4 then (cs.flatMap collCopy, false)
    else
      (List.range c.count).foldl (fun (bs, inv) j =>
        let (y, b) := collReduce c.op c.fmt cs j
        (bs ++ codeBytes (collSize c.fmt) y, inv || b)) ([], false)

/-- The contributions of an instance in rank order. -/
def inRankOrder (n : Nat) (got : List Contribution) : List Contribution :=
  (List.range n).filterMap fun i => got.find? fun c => c.rank = i

/-- OP, FMT, COUNT and ROOT agree with rank 0's (R423). -/
def collAgrees (cs : List Contribution) : Bool :=
  match cs with
  | [] => true
  | c :: rest => rest.all fun x => x.op = c.op && x.fmt = c.fmt && x.count = c.count && x.root = c.root

/-- Write a result into a gang's slab 0 through its N path, row by row. -/
def writeResult (s : State) (t : TileName) (a : Nat) (bytes : List Byte) : State :=
  (List.range ((bytes.length + 63) / 64)).foldl (fun s r =>
    let row := (bytes.drop (64 * r)).take 64
    padStore s t (a + 64 * r) row.length ((row.zipIdx.map fun (b, i) => b.toNat * 256 ^ i).sum)) s

/-- The gangs of this module whose outstanding collective is an instance; gangs that have ended since go on as scheduled
(14_kernel R337). -/
def collGangs (s : State) (c comm : Nat) (inst : BitVec 32) : List (TileName × CollOut) :=
  (s.gangs.filterMap fun e =>
    if e.2.ctx = c && e.2.seq != .idle then
      match e.2.coll with
      | some x => if x.comm = comm && x.inst = inst && e.2.collDone.isNone then some (e.1, x) else none
      | none => none
    else none) ++ (ctxOf s c).orphans.filter fun o => o.2.comm = comm && o.2.inst = inst

/-- An instance has ended for a gang: its status waits for COLLWAIT where the gang that began it still holds it (R424). -/
def collEnded (s : State) (c : Nat) (e : TileName × CollOut) (w : Word) : State :=
  if (ctxOf s c).orphans.contains e then modCtx s c fun k => { k with orphans := k.orphans.erase e }
  else modGang s e.1 fun gg => { gg with collDone := some w }

def collStatus (inst : BitVec 32) (inv : Bool) (st : Nat) : Word :=
  inst.setWidth 64 <<< 32 ||| BitVec.ofNat 64 ((if inv then 256 else 0) + st)

/-- Every gang of the module ends an instance with a status, and no DST is written. -/
def endCollective (s : State) (c comm : Nat) (inst : BitVec 32) (st : Nat) : State :=
  let s := (collGangs s c comm inst).foldl (fun s e => collEnded s c e (collStatus inst false st)) s
  modCtx s c fun k => { k with colls := k.colls.filter fun i => !(i.comm = comm && i.inst = inst) }

/-- Every contribution has arrived: the result is formed and written for every rank of the module. -/
def formResult (s : State) (c comm : Nat) (inst : BitVec 32) (cs : List Contribution) : State :=
  if !collAgrees cs then endCollective s c comm inst 2
  else
    let (bytes, inv) := collResult cs
    let s := (collGangs s c comm inst).foldl (fun s e =>
      collEnded (writeResult s e.1 (collDst e.2.desc) bytes) c e (collStatus inst inv 0)) s
    modCtx s c fun k => { k with colls := k.colls.filter fun i => !(i.comm = comm && i.inst = inst) }

/-- Other modules of a communicator. -/
def otherModules (rs : List (Nat × TileName)) : List Nat := ((rs.map (·.1)).filter (· != Config.moduleIndex)).eraseDups

/-- Every instance of a context whose contributions have all arrived forms its result, unless the context is stopped
(16_context R373).  While it quiesces its own contributions to other modules are not sent: the instance is kept for them
(R427). -/
def settleColls (s : State) (c : Nat) : State :=
  let st := (ctxOf s c).st
  if !(st = .running || st = .quiescing) then s
  else
    (ctxOf s c).colls.foldl (fun s i =>
      match tabGet (ctxOf s c).comms i.comm with
      | none => s
      | some rs =>
        let cs := inRankOrder rs.length i.got
        if cs.length = rs.length then
          let s := formResult s c i.comm i.inst cs
          if st = .quiescing && !(otherModules rs).isEmpty then modCtx s c fun k => { k with colls := k.colls ++ [i] } else s
        else s) s

/-- An instance has ended on this module: each of its ranks has counted it, and no gang waits for it. -/
def collOver (s : State) (c comm : Nat) (inst : BitVec 32) (rs : List (Nat × TileName)) : Bool :=
  let mine := (List.range rs.length).filter fun i => match rs[i]? with | some r => r.1 = Config.moduleIndex | none => false
  !mine.isEmpty && (collGangs s c comm inst).isEmpty &&
    mine.all fun i => 0 ≤ (tabGetD 0 (ctxOf s c).collCount (collKey comm i) - inst).toInt

/-- A contribution joins its instance; one already held for the same rank is discarded, and one of an instance that has ended
(R428). -/
def addContribution (s : State) (c comm : Nat) (inst : BitVec 32) (x : Contribution) : State :=
  match tabGet (ctxOf s c).comms comm with
  | none => s
  | some rs =>
    let old := match (ctxOf s c).colls.find? fun i => i.comm = comm && i.inst = inst with | some i => i.got | none => []
    if (old.any fun y => y.rank = x.rank) || (old.isEmpty && collOver s c comm inst rs) then s
    else
      let got := old ++ [x]
      settleColls (modCtx s c fun k =>
        { k with colls := (k.colls.filter fun i => !(i.comm = comm && i.inst = inst)) ++ [⟨comm, inst, got⟩] }) c

/-! ### Contributions between modules (R418 to R420, R427, R428) -/

/-- The lowest UP scale-out port that reaches a module. -/
def portTo (s : State) (m : Nat) : Option Nat :=
  (List.range 64).find? fun p => linkState s (.scale p) = .up && Config.portPeer p = m

def modPort (s : State) (p : Nat) (f : Port → Port) : State :=
  { s with ports := tabPut s.ports p (f (tabGetD Port.fresh s.ports p)) }

/-- 10 microseconds with no acknowledgement (R419). -/
def resendAfter (s : State) : Nat := usCycles s 10

/-- A payload of a transport frame has at most 8,192 bytes (R418): a longer one goes out in several frames. -/
def payloads : Nat → List Byte → List (List Byte)
  | 0, bs => [bs]
  | n + 1, bs => if bs.length ≤ 8192 then [bs] else bs.take 8192 :: payloads n (bs.drop 8192)

/-- Send one DATA frame: it is kept until it is acknowledged (R418, R419). -/
def sendFrame (s : State) (p : Nat) (dst : Nat) (job : BitVec 32) (payload : List Byte) : State :=
  let q := tabGetD Port.fresh s.ports p
  let f : Frame := ⟨1, BitVec.ofNat 8 Config.moduleIndex, BitVec.ofNat 8 dst, job, q.sendSeq, q.recvSeq, payload, true⟩
  let s := modPort (tell s (.frame p f)) p fun q =>
    { q with sendSeq := q.sendSeq + 1, unacked := q.unacked ++ [(q.sendSeq, f)] }
  if q.unacked.isEmpty then
    postEv s (s.now + resendAfter s) ordEnd p none .transportResendTimeout (.transportResendTimeout p q.epoch)
  else s

/-- Send a rank's contribution to every other module of its communicator; a module that no UP port reaches fails the
collective (R420). -/
def sendContribution (s : State) (c comm : Nat) (inst : BitVec 32) (x : Contribution) : State :=
  match tabGet (ctxOf s c).comms comm with
  | none => s
  | some rs =>
    (otherModules rs).foldl (fun s m =>
      match portTo s m with
      | none => endCollective s c comm inst 3
      | some p =>
        let fs := Config.contributionFrames comm inst.toNat x.rank [x.op, x.fmt, x.root, x.count] x.bytes
        (fs.flatMap fun f => payloads f.length f).foldl (fun s f => sendFrame s p m (ctxOf s c).ops.job f) s) s

/-- The collectives of a context that its gangs, ended ones too, have begun and not ended. -/
def collsBegun (s : State) (c : Nat) : List (TileName × CollOut) :=
  (s.gangs.filterMap fun e =>
    if e.2.ctx = c && e.2.seq != .idle && e.2.collDone.isNone then e.2.coll.map fun x => (e.1, x) else none) ++ (ctxOf s c).orphans

/-- A contribution that an image of a frozen context had sent to its engine and not yet received is taken by the engine of
the module that restores it (R423, R428). -/
def restartContributions (s : State) (c : Nat) : State :=
  (collsBegun s c).foldl (fun s e =>
    let x := e.2
    let held : Bool := (ctxOf s c).colls.any fun i => i.comm = x.comm && i.inst = x.inst && i.got.any fun y => y.rank = x.rank
    let queued : Bool := (slabOf s e.1).injW.any fun y => match y.kind with
      | .coll _ m r i => m = x.comm && r = x.rank && i = x.inst
      | _ => false
    let due : Bool := s.agenda.any fun y => decide (y.arg = .collContributionArrival c x.comm x.rank x.inst)
    if held || queued || due then s
    else
      let (d, s) := freeDelay s
      postEv s (s.now + 1 + d) ordEnd e.1 (some (gangOwner s e.1)) .collContributionArrival
        (.collContributionArrival c x.comm x.rank x.inst)) s

/-- On a resume each engine sends its own ranks' contributions of every incomplete operation again (R428); a context that
still quiesces sends no new frame (R427). -/
def resendContributions (s : State) (c : Nat) : State :=
  if (ctxOf s c).st = .quiescing then s
  else
    let s := (ctxOf s c).colls.foldl (fun s i =>
      match tabGet (ctxOf s c).comms i.comm with
      | none => s
      | some rs =>
        (i.got.filter fun x => match rs[x.rank]? with | some r => r.1 = Config.moduleIndex | none => false).foldl
          (fun s x => sendContribution s c i.comm i.inst x) s) s
    settleColls (restartContributions s c) c

/-- The engine has read the SRC rows of a gang of the module: its contribution joins the instance, and goes to the other
modules unless the context quiesces (R423, R427). -/
def contributionArrives (s : State) (c comm rank : Nat) (inst : BitVec 32) : State :=
  match (collGangs s c comm inst).find? fun e => e.2.rank = rank with
  | none => s
  | some (t, x) =>
    let d := x.desc
    let bytes := memReadBytes s.mem (padKey t (collSrc d)) (collSrcBytes d)
    let con : Contribution := ⟨rank, collOp d, collFmt d, collRoot d, collElems d, bytes⟩
    let s := addContribution s c comm inst con
    let st := (ctxOf s c).st
    if st = .quiescing || st = .quiesced then s else sendContribution s c comm inst con

/-- COLL_CONTRIBUTION_ARRIVAL (R423). -/
def execCollContributionArrival (s : State) : Host.Outcome State Fault Refusal :=
  match s.arg with
  | .collContributionArrival c comm rank inst => .next (contributionArrives s c comm rank inst)
  | _ => .fault .noOperand

/-- COMM_SET (R421): 1 to 4,096 ranks, no gang twice; a communicator set up anew counts its COLLs from 0. -/
def execCommSet (s : State) : Host.Outcome State Fault Refusal :=
  match s.arg with
  | .commSet c m rs =>
    let st := (ctxOf s c).st
    if s.phase != .service || !(st = .loading || st = .ready || st = .quiesced) then .next (answer s c 1 0)
    else if 64 ≤ m || rs.isEmpty || 4096 < rs.length || rs.eraseDups.length != rs.length ||
        rs.any (fun r => 256 ≤ r.1 || !namesTile r.2) then .next (answer s c 2 0)
    else .next (answer (modCtx s c fun k =>
      { k with comms := tabPut k.comms m rs, collCount := k.collCount.filter fun e => e.1 / 4096 != m,
               colls := k.colls.filter fun i => i.comm != m }) c 0 0)
  | _ => .fault .noOperand

end Sys2Proof.Machine
end

