-- ==== Sys2Proof/Machine/Global.lean ====
section
/-! DEFINITION. Global virtual memory as the device's engines and the host reach it, through a context's page table, and the queue descriptors, error and completion lists that stand in it (15_queue R342, R343, R348). -/

namespace Sys2Proof.Machine

/-! ### Bytes at a global virtual address (17_page R389 to R391) -/

/-- The vault byte of a global virtual address, if its page is mapped. -/
def vaKey (k : Ctx) (va : Nat) : Option Nat :=
  (walk k (va / 4096)).map fun l => vaultKey l.home l.frame (va % 4096)

/-- n bytes, if every page is mapped. -/
def gvaBytes (s : State) (c va n : Nat) : Option (List Byte) :=
  (List.range n).mapM fun i => (vaKey (ctxOf s c) (va + i)).map (memRead s.vault)

/-- n bytes as a little-endian number. -/
def gvaNat (s : State) (c va n : Nat) : Option Nat :=
  (gvaBytes s c va n).map fun bs => bs.foldr (fun b acc => b.toNat + 256 * acc) 0

/-- Write bytes where the pages are mapped, with no undo entry. -/
def gvaWrite (s : State) (c va : Nat) (bs : List Byte) : State :=
  bs.zipIdx.foldl (fun s (b, i) =>
    match vaKey (ctxOf s c) (va + i) with
    | some a => { s with vault := memWrite s.vault a b }
    | none => s) s

def gvaPutNat (s : State) (c va n v : Nat) : State :=
  gvaWrite s c va ((List.range n).map fun i => BitVec.ofNat 8 (v / 256 ^ i))

/-- A line with bytes replaced from offset o. -/
def linePatch (l : BitVec 512) (o : Nat) (bs : List Byte) : BitVec 512 :=
  bs.zipIdx.foldl (fun l (b, i) =>
    (l &&& ~~~((0xFF : BitVec 512) <<< (8 * (o + i)))) ||| (b.setWidth 512 <<< (8 * (o + i)))) l

/-- Write bytes line by line with undo entries (09_window R248, 18_link R414): a line of a page that is missing or has
W = 0 is not written, and reported; from a line with no room for its entry on, none is (20_fault R446). -/
def gvaLogged (s : State) (own : Owner) (va : Nat) (bs : List Byte) : State × Bool :=
  let n := (va + bs.length + 63) / 64 - va / 64
  let r := (List.range (if bs.isEmpty then 0 else n)).foldl (fun (s, ok, full) i =>
    let a := 64 * (va / 64 + i)
    let lo := max va a
    let piece := (bs.drop (lo - va)).take (a + 64 - lo)
    match walk (ctxOf s own.ctx) (a / 4096) with
    | some l =>
      if l.w then
        let line := a % 4096 / 64
        let old := memLine s.vault (vaultLineKey l.home l.frame line)
        if full then (s, ok, full)
        else
          (vaultWriteLine s own l.home l.frame line (linePatch old (lo - a) piece), ok,
            undoFull s own.ctx l.home l.frame line)
      else (s, false, full)
    | none => (s, false, full)) (s, true, false)
  (r.1, r.2.1)

/-! ### Queue descriptors (R343) -/

def queueVa (s : State) (c q : Nat) : Nat := (ctxOf s c).ops.queueTable + 64 * q

/-- A queue's descriptor, if it is mapped. -/
def queueDesc (s : State) (c q : Nat) : Option (BitVec 512) :=
  if 1024 ≤ q then none else (gvaNat s c (queueVa s c q) 64).map (BitVec.ofNat 512)

def qBase (d : BitVec 512) : Nat := (d.extractLsb' 0 64).toNat
def qLogsize (d : BitVec 512) : Nat := (d.extractLsb' 64 8).toNat
def qPrio (d : BitVec 512) : Nat := (d.extractLsb' 72 8).toNat
def qEn (d : BitVec 512) : Bool := d.extractLsb' 80 8 = (1 : BitVec 8)
def qHead (d : BitVec 512) : Nat := (d.extractLsb' 96 32).toNat
def qTail (d : BitVec 512) : Nat := (d.extractLsb' 128 32).toNat
def qLost (d : BitVec 512) : Nat := (d.extractLsb' 160 32).toNat
def qErrBase (d : BitVec 512) : Nat := (d.extractLsb' 192 64).toNat
def qErrTail (d : BitVec 512) : Nat := (d.extractLsb' 256 32).toNat
def qCplTail (d : BitVec 512) : Nat := (d.extractLsb' 288 32).toNat
def qCplBase (d : BitVec 512) : Nat := (d.extractLsb' 320 64).toNat

/-- Write a 32-bit field of a descriptor. -/
def putQueueField (s : State) (c q off v : Nat) : State := gvaPutNat s c (queueVa s c q + off) 4 (v % 2 ^ 32)

/-- The address of record i (R343). -/
def recordVa (d : BitVec 512) (i : Nat) : Nat := qBase d + 64 * (i % 2 ^ qLogsize d)

/-- HEAD goes past a record (R342, R346). -/
def advanceHead (s : State) (c q : Nat) : State :=
  match queueDesc s c q with
  | some d => putQueueField s c q 12 (qHead d + 1)
  | none => s

/-- An entry of a queue's error list: record, code, queue, TAG; the bytes that no rule names are free (R342, log 17). -/
def errorEntry (s : State) (c q idx code : Nat) (tag : BitVec 32) : State :=
  match queueDesc s c q with
  | none => s
  | some d =>
    let x := openBits (BitVec.ofNat 64 (idx + code * 2 ^ 32))
    let bytes := codeBytes 4 idx ++ [BitVec.ofNat 8 code, x.extractLsb' 0 8] ++ codeBytes 2 q ++ codeBytes 4 tag.toNat ++
      codeBytes 4 (x.extractLsb' 8 32).toNat
    let s := gvaWrite s c (qErrBase d + 16 * (qErrTail d % 256)) bytes
    let s := putQueueField s c q 32 (qErrTail d + 1)
    if 256 ≤ qErrTail d then putQueueField s c q 20 (qLost d + 1) else s

/-- What a completion tells (R348). -/
structure Completion where
  ctx    : Nat
  queue  : Nat
  record : Nat
  seqno  : BitVec 32
  tag    : BitVec 32
  code   : BitVec 8
  flag   : Bool
  notify : Option Nat
deriving DecidableEq, Repr

/-- A completion entry of a queue's list, and of a host ring with NOTIFY (R348, R359). -/
def completionEntry (s : State) (x : Completion) : State :=
  let flag : Nat := if x.flag then 1 else 0
  let s := match queueDesc s x.ctx x.queue with
    | none => s
    | some d =>
      let bytes := codeBytes 4 x.seqno.toNat ++ codeBytes 4 x.tag.toNat ++ [x.code, BitVec.ofNat 8 flag] ++
        codeBytes 2 x.queue ++ codeBytes 4 x.record
      let s := gvaWrite s x.ctx (qCplBase d + 16 * (qCplTail d % 256)) bytes
      putQueueField s x.ctx x.queue 36 (qCplTail d + 1)
  let s := tell s (.completion x.ctx x.queue x.seqno x.tag x.code x.flag x.record)
  match x.notify with
  | some r => ringWrite s x.ctx r (x.tag ++ x.seqno : BitVec 64) (BitVec.ofNat 8 flag ++ x.code : BitVec 16) 3
  | none => s

/-! ### Launch records (R340, R342) -/

/-- One step of CRC-32 of IEEE 802.3, reflected, on one bit. -/
def crcBit (c : BitVec 32) : BitVec 32 := if c.getLsbD 0 then (c >>> 1) ^^^ 0xEDB88320 else c >>> 1

def crcByte (c : BitVec 32) (b : Byte) : BitVec 32 :=
  (List.range 8).foldl (fun c _ => crcBit c) (c ^^^ b.setWidth 32)

def crc32 (bs : List Byte) : BitVec 32 := ~~~(bs.foldl crcByte (BitVec.allOnes 32))

def recKernel (r : BitVec 512) : Nat := (r.extractLsb' 0 16).toNat
def recObject (r : BitVec 512) : Nat := (r.extractLsb' 16 16).toNat
def recOrigin (r : BitVec 512) : Nat := (r.extractLsb' 32 14).toNat
def recAny (r : BitVec 512) : Bool := r.getLsbD 47
def recPhase (r : BitVec 512) : Nat := (r.extractLsb' 48 14).toNat
def recGraph (r : BitVec 512) : Bool := r.getLsbD 64
def recOverlap (r : BitVec 512) : Bool := r.getLsbD 65
def recNotify (r : BitVec 512) : Option Nat := if r.getLsbD 66 then some (r.extractLsb' 80 8).toNat else none
def recSeq (r : BitVec 512) : BitVec 32 := r.extractLsb' 96 32
def recTag (r : BitVec 512) : BitVec 32 := r.extractLsb' 128 32
def recMbx (r : BitVec 512) (i : Nat) : Word := r.extractLsb' (160 + 64 * i) 64
def recCrc (r : BitVec 512) : BitVec 32 := r.extractLsb' 480 32

/-- Reserved bits of a record that are not 0. -/
def recReserved (r : BitVec 512) : Bool :=
  r.getLsbD 46 || r.extractLsb' 62 2 != 0 || r.extractLsb' 67 13 != 0 || r.extractLsb' 88 8 != 0

def lineBytes (r : BitVec 512) : List Byte := (List.range 64).map fun i => r.extractLsb' (8 * i) 8

/-- The kernel that a record names in a context. -/
def recordKernel (s : State) (c : Nat) (r : BitVec 512) : Option Kernel :=
  match tabGet (ctxOf s c).objects (recObject r) with
  | some o => if recObject r = 0 then none else o.kernels[recKernel r]?
  | none => none

/-! ### Shapes (11_group R267, R271, R272) -/

def gangCols (w : Nat) : Nat := if w = 1 then 1 else 2
def gangRows (w : Nat) : Nat := if w = 4 then 2 else 1

def level (k : Kernel) (n : Nat) : Nat × Nat := k.levels[n]?.getD (1, 1)

/-- Width and height of the rectangle in tiles. -/
def rectCols (k : Kernel) : Nat := (level k 0).1 * gangCols k.gang
def rectRows (k : Kernel) : Nat := (level k 0).2 * gangRows k.gang

/-- The deeper levels divide those above in 1 to 8 parts each way. -/
def nestingOk (k : Kernel) : Bool :=
  k.levels.length ≤ 4 && (level k 0).1 != 0 && (level k 0).2 != 0 && (List.range (k.levels.length - 1)).all fun n =>
    let (a, b) := level k n
    let (x, y) := level k (n + 1)
    x != 0 && y != 0 && a % x = 0 && b % y = 0 && 1 ≤ a / x && a / x ≤ 8 && 1 ≤ b / y && b / y ≤ 8

/-- The rectangle of a kernel at an origin is valid. -/
def originOk (k : Kernel) (o : TileName) : Bool :=
  tileCol o + rectCols k ≤ 96 && tileRow o + rectRows k ≤ 66 && tileCol o % gangCols k.gang = 0 &&
    tileRow o % gangRows k.gang = 0

/-- The origins a record allows: lowest row, then lowest column, with ANY. -/
def origins (k : Kernel) (r : BitVec 512) : List TileName :=
  if !nestingOk k then []
  else if recAny r then
    ((List.range 66).flatMap fun row => (List.range 96).map fun col => mkTile col row).filter (originOk k)
  else [recOrigin r].filter (originOk k)

/-- The gangs of a rectangle by their slab 0, ascending. -/
def rectGangs (k : Kernel) (o : TileName) : List TileName :=
  (List.range (level k 0).2).flatMap fun y => (List.range (level k 0).1).map fun x =>
    mkTile (tileCol o + x * gangCols k.gang) (tileRow o + y * gangRows k.gang)

/-- dmem (R272). -/
def dmemWord (k : Kernel) (o : TileName) (phase : Nat) : Word :=
  let parts := (List.range (k.levels.length - 1)).foldl (fun v n =>
    let (a, b) := level k n
    let (x, y) := level k (n + 1)
    v + (a / x - 1) * 2 ^ (28 + 6 * n) + (b / y - 1) * 2 ^ (31 + 6 * n)) 0
  BitVec.ofNat 64 (phase * 2 ^ 50 + (if k.gang = 4 then 2 else if k.gang = 2 then 1 else 0) * 2 ^ 48 +
    (k.levels.length - 1) * 2 ^ 46 + parts + rectRows k * 2 ^ 21 + rectCols k * 2 ^ 14 + tileRow o * 2 ^ 7 + tileCol o)

end Sys2Proof.Machine
end

