-- ==== Sys2Proof/Machine/Region.lean ====
section
/-! DEFINITION. The tag table, the region map and the bank hand-over (06_region R157 to R168, 17_page R392 to R395). -/

namespace Sys2Proof.Machine

/-! ### Tag table (R158, R159) -/

/-- A trigger of L that reads t and some operands: a tag in any slab takes the fault of R85. -/
def lUntagged (s : State) (is : Issue) (u : BitVec 2) (src : BitVec 9) (ks : List Nat) (f : State → State) : State :=
  match (gangTiles s is.gang).zipIdx.find? fun (t, _) =>
      (readScalar s is t src).df || ks.any fun k => (lOpd s is t u k).df with
  | some (_, i) => consumeDF s is i
  | none => f s

def execTaglook (g : BitVec 5) (u : BitVec 2) (src : BitVec 9) (s : State) : Host.Outcome State Fault Refusal :=
  slotStep s g (lBase u + 41) fun is s => lUntagged s is u src [] fun s =>
    forTiles s (gangTiles s is.gang) fun st t =>
      postAct st (issueOwner s is) (s.now + 2) ordRead
        (.tagLook t (lRes u) ((readScalar s is t src).val.extractLsb' 12 36).toNat)

/-- The lowest valid slot that holds a page, or 0xFFFF (R158). -/
def tagSearch (s : State) (t : TileName) (vpn : Nat) : Nat :=
  ((List.range 1024).find? fun n => tagValid (tagWord s t n) && tagVpn (tagWord s t n) = vpn).getD 0xFFFF

def landTagLook (s : State) (own : Owner) (t : TileName) (port vpn : Nat) : State :=
  postLand s own (s.now + 2) (.slRes t port (.plain (BitVec.ofNat 64 (tagSearch s t vpn))))

/-- A change of one tag entry per slab, seen from the start of c+2 (00_scope R10), L1's last; a slot below 16 in any slab is
the address fault SLOT. -/
def tagChange (s : State) (is : Issue) (u : BitVec 2) (slot : TileName → Nat) (act : TileName → Action) : State :=
  let ts := gangTiles s is.gang
  let own := issueOwner s is
  match ts.zipIdx.find? fun (t, _) => slot t < 16 with
  | some (t, i) => raiseAux s own 8 8 (BitVec.ofNat 64 (slot t)) i
  | none => forTiles s ts fun s t => postAct s own (s.now + 2) (ordLand + lPath u) (act t)

def execTagset (g : BitVec 5) (u : BitVec 2) (src : BitVec 9) (s : State) : Host.Outcome State Fault Refusal :=
  slotStep s g (lBase u + 42) fun is s => lUntagged s is u src [0, 1] fun s =>
    let slot (t : TileName) : Nat := (lOpd s is t u 0).val.toNat % 1024
    tagChange s is u slot fun t =>
      .tagWrite t (slot t) (mkTag ((lOpd s is t u 1).val.toNat % 64) ((readScalar s is t src).val.extractLsb' 12 36).toNat)

def execTagclr (g : BitVec 5) (u : BitVec 2) (src : BitVec 9) (s : State) : Host.Outcome State Fault Refusal :=
  slotStep s g (lBase u + 43) fun is s => lUntagged s is u src [] fun s =>
    let slot (t : TileName) : Nat := (readScalar s is t src).val.toNat % 1024
    let s' := tagChange s is u slot fun t => .tagClear t (slot t)
    let ts := gangTiles s is.gang
    forTiles s' (if ts.any fun t => slot t < 16 then [] else ts) fun s t =>
      postAct s (issueOwner s is) (s.now + 2) (ordWrite + lPath u) (.dirtySlot t (slot t))

def landTagWrite (s : State) (t : TileName) (slot : Nat) (v : Word) : State := padPutWord s t (8 * slot) v

/-- TAGCLR clears V, and RES and DIRTY of the slot (R159, 09_window R235). -/
def landTagClear (s : State) (t : TileName) (slot : Nat) : State :=
  cleanSlot (padPutWord s t (8 * slot) (tagWord s t slot &&& ~~~(BitVec.twoPow 64 63))) t slot

/-! ### RGNMAP (R162) -/

/-- The wait's descriptor is checked at the trigger in every slab; region and descriptor of slab 0 are latched. -/
def execRgnmap (g : BitVec 5) (u : BitVec 2) (src : BitVec 9) (s : State) : Host.Outcome State Fault Refusal :=
  slotStep s g (lBase u + 44) fun is s => lUntagged s is u src [0] fun s =>
    let desc (t : TileName) : Nat := (readScalar s is t src).val.toNat
    match (gangTiles s is.gang).zipIdx.find? fun (t, _) => 0x400000 ≤ desc t || desc t % 32 != 0 with
    | some (t, i) =>
      raiseAux s (issueOwner s is) 8 (if 0x400000 ≤ desc t then 4 else 5) (BitVec.ofNat 64 (desc t)) i
    | none => recordWait s is.gang (.rgnmap (u = 2) ((lOpd s is is.gang u 0).val.toNat % 64) (desc is.gang))

/-- Drop the pending pin releases of a region: a new map releases those pins itself. -/
def dropPinRelease (s : State) (t : TileName) (i : Nat) : State :=
  { s with agenda := s.agenda.filter fun e =>
      !(match e.instr, e.arg with
        | .pinReleaseComplete, .pinReleaseComplete t' i' _ => t' = t && i' = i
        | _, _ => false) }

/-- Slots of two ranges meet. -/
def rangesMeet (a n b m : Nat) : Bool := a < b + m && b < a + n

/-- The check of a new map, 0 when it may be walked (R162). -/
def mapCheck (s : State) (t : TileName) (i : Nat) : Nat :=
  let s0 := rgnSlot0 s t i
  let n := rgnNslot s t i
  if rgnKind s t i = 0 then 4
  else if s0 < 16 || n = 0 || 1024 < s0 + n || rgnGva s t i % 4096 != 0 then 1
  else if (List.range 64).any fun j =>
      j != i && rgnState s t j = 2 && rangesMeet s0 n (rgnSlot0 s t j) (rgnNslot s t j) then 2
  else 0

/-- The map unit's start on the END bundle's cycle, after the writes of that cycle: it reads the descriptor in its own
slab's scratchpad, at the address that slab 0 latched (DEDUCED, log 131), and checks (R162). -/
def landMapStart (s : State) (own : Owner) (t : TileName) (i desc : Nat) : State :=
  if rgnState s t i = 2 then rgnPutState s t i 3 3
  else
    let s := releasePins (dropPinRelease s t i) own.ctx t i fun _ => true
    let d0 := padWord s t desc
    let s := padPutWord s t (rgnAddr i 0)
      (BitVec.ofNat 64 (2 ^ 61 + (d0.extractLsb' 20 10).toNat * 2 ^ 20 + (d0.extractLsb' 0 10).toNat))
    let s := padPutWord s t (rgnAddr i 1) ((padWord s t (desc + 8)).extractLsb' 0 48 |>.setWidth 64)
    let s := padPutWord s t (rgnAddr i 3) (padWord s t (desc + 16) &&& 3)
    let s := padPutWord s t (rgnAddr i 4) 0
    match mapCheck s t i with
    | 0 =>
      let (d, s) := freeDelay s
      postEv s (s.now + 1 + d) ordLand t (some own) .rgnmapWalkEnd (.rgnmapWalkEnd t i)
    | c => rgnPutState s t i 3 c

/-- Walk and pin pages in turn; the first that fails, with its cause (R162, R395). -/
def walkPages (s : State) (c : Nat) (t : TileName) (i : Nat) (wr : Bool) : List Nat → State × Option (Nat × Nat)
  | [] => (s, none)
  | v :: vs =>
    match walk (ctxOf s c) v with
    | none => (s, some (v, 5))
    | some l =>
      if 4095 ≤ l.pcnt then (s, some (v, 5))
      else if wr && !l.w then (s, some (v, 6))
      else
        let s := modCtx s c fun k => addPcnt k l.key true
        let s := modSlab s t fun sl => { sl with pins := tabPut sl.pins i (tabGetD [] sl.pins i ++ [⟨v, l.key, l.home, l.frame, l.w⟩]) }
        walkPages s c t i wr vs

/-- The outcome of a walk of a region: FAULTED with its cause and FAILVA and the new pins released, or MAPPED.  A range that
runs past 2^48 meets missing pages there, and FAILVA keeps its 48 bits (DESIGN CHOICE, log 132). -/
def walkRegion (s : State) (c : Nat) (t : TileName) (i : Nat) (vs : List Nat) : State × Bool :=
  let held := pinsOf s t i
  let (s, r) := walkPages s c t i (rgnWr s t i) vs
  match r with
  | some (v, cause) =>
    let s := releasePins s c t i fun p => !held.contains p
    let s := padPutWord s t (rgnAddr i 4) (BitVec.ofNat 64 (4096 * v % 2 ^ 48))
    (rgnPutState s t i 3 cause, false)
  | none =>
    let s := padPutWord s t (rgnAddr i 5) (BitVec.ofNat 64 (pinsOf s t i).length)
    (rgnPutState s t i 2 0, true)

/-- Leaves that are pinned anew are no more open to the host (17_page R396, R401). -/
def closeLeaves (s : State) (c : Nat) (keys : List Nat) : State :=
  modCtx s c fun k => { k with openLeaves := k.openLeaves.filter fun x => !keys.contains x }

/-- RGNMAP_WALK_END: the walk's last cycle w; a first-touch region then fills its slots from w+1 (R162, 17_page R394).  A
region that an RGNUNMAP has made UNMAPPED meanwhile stays so, with no pin (R161). -/
def execRgnmapWalkEnd (s : State) : Host.Outcome State Fault Refusal :=
  match s.arg with
  | .rgnmapWalkEnd t i =>
    let own := s.own.getD ⟨0, 0, t, false, 0, 0xFF, 0, s.now⟩
    let n := rgnNslot s t i
    let v0 := rgnGva s t i / 4096
    if rgnState s t i != 1 then .next s
    else
      let (s, ok) := walkRegion s own.ctx t i ((List.range n).map (v0 + ·))
      let s := closeLeaves s own.ctx ((pinsOf s t i).map (·.key))
      if ok && rgnFtouch s t i then
        let s := (List.range n).foldl (fun s j => postAct s own (s.now + 1 + 64 * j) ordIssue (.ftouch t i j)) s
        .next (postLand s own (s.now + 1 + 64 * (n - 1) + 256) (.ftouch t i n))
      else .next s
  | _ => .fault .noOperand

/-- Work of the map unit on a region of a slab is still to come. -/
def mapPending (s : State) (t : TileName) (i : Nat) : Bool :=
  s.agenda.any fun e =>
    match e.instr, e.arg with
    | .rgnmapWalkEnd, .rgnmapWalkEnd t' i' => t' = t && i' = i
    | .operationLanding _ (.mapStart t' i' _), _ => t' = t && i' = i
    | .operationLanding _ (.ftouch t' i' _), _ => t' = t && i' = i
    | _, _ => false

/-- RGNMAP_COMPLETE: the wait ends when the last slab is done (R162). -/
def execRgnmapComplete (s : State) : Host.Outcome State Fault Refusal :=
  match s.arg with
  | .rgnmapComplete g u r =>
    match findWait s g (fun w => match w with | .rgnmap u' i _ => u' = u && i = r | _ => false) with
    | some (.rgnmap u' i d) =>
      if (gangTiles s g).any fun t => mapPending s t i then .next (again s g .rgnmapComplete)
      else .next (waitDone s g (.rgnmap u' i d))
    | _ => .next s
  | _ => .fault .noOperand

/-! ### RGNUNMAP, RGNQRY (R163, R164) -/

def execRgnunmap (g : BitVec 5) (u : BitVec 2) (src : BitVec 9) (s : State) : Host.Outcome State Fault Refusal :=
  slotStep s g (lBase u + 45) fun is s => lUntagged s is u src [] fun s =>
    forTiles s (gangTiles s is.gang) fun st t =>
      let r := (readScalar s is t src).val.toNat % 64
      let st := postAct st (issueOwner s is) (s.now + 2) (ordLand + lPath u) (.unmap t r)
      postAct st (issueOwner s is) (s.now + 2) (ordWrite + lPath u) (.dirtyRegion t r)

/-- The slots from 16 on whose tag entry carries a region. -/
def regionSlots (s : State) (t : TileName) (i : Nat) : List Nat :=
  (List.range 1008).map (· + 16) |>.filter fun n => tagRegion (tagWord s t n) = i

/-- DIRTY of every slot of the region, against the writes of the same cycle (09_window R235). -/
def landDirtyRegion (s : State) (t : TileName) (i : Nat) : State :=
  let mine := regionSlots s t i
  modSlab s t fun sl => { sl with slots := sl.slots.map fun e => if mine.contains e.1 then (e.1, { e.2 with dirty := 0 }) else e }

/-- V of every tag entry of the region, and RES and DIRTY of its slot, are cleared (R163). -/
def landUnmap (s : State) (own : Owner) (t : TileName) (i : Nat) : State :=
  let mine := regionSlots s t i
  let s := rgnPutState s t i 0 0
  let s := mine.foldl (fun s n =>
    if tagValid (tagWord s t n) then padPutWord s t (8 * n) (tagWord s t n &&& ~~~(BitVec.twoPow 64 63)) else s) s
  let s := modSlab s t fun sl =>
    { sl with slots := sl.slots.map fun e => if mine.contains e.1 then (e.1, { e.2 with res := false, dirty := 0 }) else e }
  match pinsOf s t i with
  | [] => s
  | ps =>
    let (d, s) := freeDelay s
    postEv s (s.now + d) ordEnd t (some own) .pinReleaseComplete (.pinReleaseComplete t i (ps.map (·.vpn)))

/-- PIN_RELEASE_COMPLETE (R163, 17_page R395). -/
def execPinReleaseComplete (s : State) : Host.Outcome State Fault Refusal :=
  match s.arg with
  | .pinReleaseComplete t i leaves =>
    .next (releasePins s (s.own.getD ⟨0, 0, t, false, 0, 0xFF, 0, s.now⟩).ctx t i fun p => leaves.contains p.vpn)
  | _ => .fault .noOperand

def execRgnqry (g : BitVec 5) (u : BitVec 2) (src : BitVec 9) (s : State) : Host.Outcome State Fault Refusal :=
  slotStep s g (lBase u + 46) fun is s => lUntagged s is u src [] fun s =>
    forTiles s (gangTiles s is.gang) fun st t =>
      let w := (readScalar s is t src).val
      postAct st (issueOwner s is) (s.now + 2) ordRead
        (.query t (lRes u) (w.toNat % 64) (w.extractLsb' 6 3).toNat (w.getLsbD 9))

/-- Another task of the context is on the gang: a predecessor that drains, or a successor from its placement on (R165,
14_kernel R334, R337). -/
def otherTask (s : State) (own : Owner) : Bool :=
  s.tasks.any fun e => e.1 != own.task && e.2.ctx = own.ctx && e.2.st != .ended &&
    e.2.gangs.any fun x => x.1 = own.gang && x.2.1 != 3

/-- The bank ownership word from the view of the issuing task (R165). -/
def bankWord (s : State) (own : Owner) (t : TileName) : Word :=
  let bs := (slabOf s t).banks
  BitVec.ofNat 64 ((List.range 31).foldl (fun n i =>
    match tabGet bs (i + 1) with
    | none => n
    | some k => n + (if k = own.task then 2 ^ (i + 1) else 2 ^ (33 + i))) (if otherTask s own then 2 ^ 32 + 1 else 1))

def landQuery (s : State) (own : Owner) (t : TileName) (port i dw : Nat) (banks : Bool) : State :=
  postLand s own (s.now + 2) (.slRes t port (.plain (if banks then bankWord s own t else rgnWord s t i dw)))

/-! ### Bank hand-over (R166, R167, 14_kernel R338) -/

def execBankrel (g : BitVec 5) (u : BitVec 2) (src : BitVec 9) (s : State) : Host.Outcome State Fault Refusal :=
  slotStep s g (lBase u + 47) fun is s => lUntagged s is u src [] fun s =>
    forTiles s (gangTiles s is.gang) fun st t =>
      postLand st (issueOwner s is) (s.now + 2) (.bankRel t ((readScalar s is t src).val.setWidth 32))

def landBankRel (s : State) (own : Owner) (t : TileName) (mask : BitVec 32) : State :=
  modSlab s t fun sl => { sl with banks := sl.banks.filter fun e => !(e.2 = own.task && mask.getLsbD e.1) }

/-- Insert in ascending order without repeats. -/
def insertNat (x : Nat) : List Nat → List Nat
  | [] => [x]
  | y :: ys => if x < y then x :: y :: ys else if x = y then y :: ys else y :: insertNat x ys

/-- The row numbers in banks 1 to 31 that constant blocks meet, ascending. -/
def constRows (bs : List (Nat × List Byte)) : List Nat :=
  bs.foldl (fun rows b =>
    (List.range ((b.1 + b.2.length + 63) / 64 - b.1 / 64)).foldl (fun rows i =>
      let r := b.1 / 64 + i
      if 0x20000 ≤ 64 * r then insertNat r rows else rows) rows) []

/-- The pieces of constant blocks inside one row. -/
def rowPieces (bs : List (Nat × List Byte)) (r : Nat) : List (Nat × List Byte) :=
  bs.filterMap fun b =>
    let lo := max b.1 (64 * r)
    let hi := min (b.1 + b.2.length) (64 * r + 64)
    if lo < hi then some (lo, (b.2.drop (lo - b.1)).take (hi - lo)) else none

/-- The constant blocks of the object whose kernel a gang runs. -/
def gangConsts (s : State) (g : TileName) : List (Nat × List Byte) :=
  match tabGet s.tasks (gangOf s g).task with
  | none => []
  | some t => match tabGet (ctxOf s t.ctx).objects t.object with | some o => o.consts | none => []

/-- A mask names every bank from 1 on that constant blocks meet. -/
def namesConsts (bs : List (Nat × List Byte)) (mask : BitVec 32) : Bool :=
  (constRows bs).all fun r => mask.getLsbD (64 * r / 0x20000)

/-- BANKWAIT: the first of a task that names them also brings the constant blocks of banks 1 to 31 (14_kernel R338).  One
mask, slab 0's, serves every slab of the gang (DESIGN CHOICE, log 133). -/
def execBankwait (g : BitVec 5) (u : BitVec 2) (src : BitVec 9) (s : State) : Host.Outcome State Fault Refusal :=
  slotStep s g (lBase u + 48) fun is s => lUntagged s is u src [] fun s =>
    let mask : BitVec 32 := (readScalar s is is.gang src).val.setWidth 32 &&& ~~~1
    let first := (gangOf s is.gang).firstBank && namesConsts (gangConsts s is.gang) mask
    recordWait (modGang s is.gang fun gg => { gg with firstBank := gg.firstBank && !first }) is.gang
      (.bankwait (u = 2) mask first)

/-- BANKWAIT_COMPLETE (R167): on the first cycle on which every named bank of every slab is FREE or held it takes them;
constant rows follow, one a cycle, and the wait ends with the last (14_kernel R338). -/
def execBankwaitComplete (s : State) : Host.Outcome State Fault Refusal :=
  match s.arg with
  | .bankwaitComplete g u m =>
    match findWait s g (fun w => match w with | .bankwait u' m' _ => u' = u && m' = m | _ => false) with
    | some (.bankwait u' mask consts) =>
      let task := (gangOf s g).task
      let ts := gangTiles s g
      let named := (List.range 32).filter fun b => mask.getLsbD b
      if ts.any fun t => named.any fun b => match tabGet (slabOf s t).banks b with | some k => k != task | none => false then
        .next (again s g .bankwaitComplete)
      else
        let s := forTiles s ts fun s t => modSlab s t fun sl => { sl with banks := tabPuts sl.banks (named.map (·, task)) }
        let bs := gangConsts s g
        let rows := if consts then constRows bs else []
        if rows.isEmpty then .next (waitDone s g (.bankwait u' mask consts))
        else
          let own := gangOwner s g
          let s := rows.zipIdx.foldl (fun s (r, i) => forTiles s ts fun s t => (rowPieces bs r).foldl (fun s p =>
            postAct s own (s.now + 1 + i) (ordWrite + 10) (.constRow t p.1 p.2)) s) s
          let s := modGang s g fun gg => { gg with waits := gg.waits.replace (.bankwait u' mask consts) (.bankwait u' 0 false) }
          .next (postEv s (s.now + rows.length) ordWait g s.own .bankwaitComplete (.bankwaitComplete g u 0))
    | _ => .next s
  | _ => .fault .noOperand

def landConstRow (s : State) (t : TileName) (a : Nat) (bytes : List Byte) : State :=
  { s with mem := memWriteBytes s.mem (padKey t a) bytes }

end Sys2Proof.Machine
end

