-- ==== Sys2Proof/Machine/Staging.lean ====
section
/-! DEFINITION. The staging engine D (09_window R233 to R246, 17_page R394, R397). -/

namespace Sys2Proof.Machine

def dOpa (s : State) (is : Issue) (t : TileName) : Word := (slOpd s is t 640).val
def dOpb (s : State) (is : Issue) (t : TileName) : Word := (slOpd s is t 641).val

/-! ### Reservations (R234) -/

/-- The windows of an operation triggered at c: resource, first, last cycle. -/
def stageWindows (fill : Bool) (c : Nat) : List (Nat × Nat × Nat) :=
  if fill then [(0, c + 32, c + 95), (1, c + 96, c + 159), (2, c + 160, c + 191), (3, c + 192, c + 255)]
  else [(0, c + 192, c + 255), (1, c + 96, c + 159), (2, c + 160, c + 191), (3, c + 1, c + 64)]

def windowsMeet (xs ys : List (Nat × Nat × Nat)) : Bool :=
  xs.any fun x => ys.any fun y => x.1 = y.1 && x.2.1 ≤ y.2.2 && y.2.1 ≤ x.2.2

/-! ### WFILL and WFLUSH (R239) -/

/-- The checks of R239 in order: class and cause of the first that fails. -/
def stageCheck (s : State) (t : TileName) (n : Nat) (fill : Bool) : Option (Nat × Nat) :=
  let w := tagWord s t n
  let i := tagRegion w
  if n < 16 then some (8, 8)
  else if !tagValid w then some (8, 9)
  else if !rgnHolds s t i (tagVpn w) then some (8, 10)
  else
    match pinFor s t i (tagVpn w) with
    | none => some (8, 10)
    | some p =>
      if !fill && !rgnWr s t i then some (8, 11)
      else if !fill && p.home != t then some (8, 12)
      else if (slotOf (slabOf s t) n).pend then some (9, 5)
      else if windowsMeet (stageWindows fill s.now) (slabOf s t).resv then some (9, 4)
      else none

/-- Start an operation that has passed its checks: latches, reservations and the timeline of R233. -/
def startStage (s : State) (own : Owner) (t : TileName) (n : Nat) (fill : Bool) : State :=
  let c := s.now
  let w := tagWord s t n
  match pinFor s t (tagRegion w) (tagVpn w) with
  | none => s
  | some p =>
    let s := modSlab s t fun sl =>
      { sl with resv := (sl.resv.filter fun r => c ≤ r.2.2) ++ stageWindows fill c
                stage := tabPut sl.stage n ⟨own, c, p.vpn, p.home, p.frame, p.home = t, [], 0, false, [], false⟩ }
    let s := modSlot s t n fun x => { x with pend := true, flush := !fill }
    let s := postAct s own (c + 160) ordInput (.busTake t n)
    let s := [0, 1].foldl (fun s k => postAct s own (c + 176 + 16 * k) ordInput (.busSettle t n k)) s
    if fill then
      let s := postLand s own (c + 1) (.resClear t n)
      let s := postAct s own (c + 32) ordEnd (.refresh t)
      let s := (List.range 32).foldl (fun s i => postAct s own (c + 64 + i) ordRead (.fillRead t n i)) s
      let s := (List.range 64).foldl (fun s l => postAct s own (c + 192 + l) (ordWrite + 9) (.fillRow t n l)) s
      postEv s (c + 256) ordLand t (some own) .wfillLanding (.wfillLanding t n)
    else
      let s := (List.range 64).foldl (fun s l => postAct s own (c + 1 + l) ordRead (.flushRow t n l)) s
      let s := (List.range 32).foldl (fun s i => postAct s own (c + 192 + i) ordWrite (.flushWrite t n i)) s
      let s := postAct s own (c + 224) ordEnd (.refresh t)
      postEv s (c + 256) ordLand t (some own) .wflushLanding (.wflushLanding t n)

/-- WFILL and WFLUSH act in every slab; a fault in any slab stops them all (R238).  AUX of their faults is the slot number
(DESIGN CHOICE, log 134); of slabs that fail different checks the lowest numbered gives the cause (DESIGN CHOICE, log 180). -/
def stageOp (fill : Bool) (port : Nat) (g : BitVec 5) (src : BitVec 9) (s : State) : Host.Outcome State Fault Refusal :=
  slotStep s g port fun is s =>
    let ts := gangTiles s is.gang
    let own := issueOwner s is
    untagged s is ts src fun s =>
      let slot (t : TileName) : Nat := (readScalar s is t src).val.toNat % 1024
      match ts.zipIdx.findSome? fun (t, k) => (stageCheck s t (slot t) fill).map fun x => (x, k, slot t) with
      | some ((cl, ca), k, n) => raiseAux s own cl ca (BitVec.ofNat 64 n) k
      | none => forTiles s ts fun s t => startStage s own t (slot t) fill

def execWfill (g : BitVec 5) (src : BitVec 9) (s : State) : Host.Outcome State Fault Refusal := stageOp true 642 g src s
def execWflush (g : BitVec 5) (src : BitVec 9) (s : State) : Host.Outcome State Fault Refusal := stageOp false 643 g src s

/-- WINV (R240). -/
def execWinv (g : BitVec 5) (src : BitVec 9) (s : State) : Host.Outcome State Fault Refusal :=
  slotStep s g 644 fun is s =>
    let ts := gangTiles s is.gang
    let own := issueOwner s is
    untagged s is ts src fun s =>
      let slot (t : TileName) : Nat := (readScalar s is t src).val.toNat % 1024
      match ts.zipIdx.find? fun (t, _) => slot t < 16 with
      | some (t, k) => raiseAux s own 8 8 (BitVec.ofNat 64 (slot t)) k
      | none => forTiles s ts fun s t =>
          postAct (postLand s own (s.now + 2) (.winv t (slot t))) own (s.now + 2) (ordWrite + 9) (.dirtySlot t (slot t))

/-- A first-touch fill at its place; a slot whose WFILL would fail R239 is skipped (17_page R394). -/
def landFtouch (s : State) (own : Owner) (t : TileName) (i j : Nat) : State :=
  let n := rgnSlot0 s t i + j
  if rgnNslot s t i ≤ j then s
  else if (stageCheck s t n true).isSome then s
  else startStage s own t n true

/-! ### The error log (R244, R245) -/

/-- Append a record; a new one replaces the oldest of 16. -/
def logErr (sl : Slab) (r : ErrRec) : Slab :=
  let log := sl.errlog ++ [{ r with seq := sl.errSeq }]
  { sl with errlog := log.drop (log.length - 16), errSeq := sl.errSeq + 1 }

/-- A record of an operation of a context. -/
def errRec (s : State) (t : TileName) (own : Owner) (kind op : Nat) (vpn line bit visible : Nat) : ErrRec :=
  { ctx := own.ctx, cyc := tileCyc s t, seq := 0, kind := BitVec.ofNat 4 kind, op := BitVec.ofNat 2 op, retry := 0,
    lane := 0, lcnt := 0, swap := false, beat := 0, vpn, line, bit, visible }

/-- An uncorrectable error met by an operation (R245, 20_fault R453). -/
def uncorrectable (s : State) (own : Owner) (t : TileName) (cause : Nat) (aux : Word) : State :=
  postEv s s.now ordInput t none .uncorrectableErrorDetect
    (.uncorrectableErrorDetect ⟨BitVec.ofNat 8 cause, some own.ctx, t, own.pc, own.slot, own.trig, aux⟩)

/-- The word of a line that a wrong cell belongs to: 8 words of 64 bits with 8 check bits each (R231). -/
def cellWord (bit : Nat) : Nat := if bit < 512 then bit / 64 else (bit - 512) / 8

/-- The wrong cells of word w of a line. -/
def wrongCells (sl : Slab) (frame line w : Nat) : List Nat :=
  (sl.cellErr.filter fun e => e.1 = frame && e.2.1 = line && cellWord e.2.2 = w).map (·.2.2)

/-- Whether the operation of a slot has failed. -/
def stageFailed (s : State) (t : TileName) (n : Nat) : Bool :=
  match tabGet (slabOf s t).stage n with | some x => x.failed | none => false

/-- A fill or flush stops in every slab of its gang (11_group R270). -/
def failStage (s : State) (x : StageOp) : State :=
  modSlabs s x.own.gang fun sl =>
    { sl with stage := sl.stage.map fun e => if e.2.own = x.own && e.2.start = x.start then (e.1, { e.2 with failed := true }) else e }

/-- A fill or flush meets an uncorrectable error in one slab: it stops in all, and the error is raised once (R245, 11_group
R270). -/
def failWith (s : State) (t : TileName) (n : Nat) (x : StageOp) (cause : Nat) (aux : Word) : State :=
  if stageFailed s t n then s else uncorrectable (failStage s x) x.own t cause aux

/-- The code of each word of a line that the array reads on cycle at_: one wrong cell is corrected, more are an uncorrectable
error (R231, R245), logged here and raised by the operation.  True when the line is good.  BIT of a wrong check bit is open (log 137). -/
def cellCheck (s : State) (own : Owner) (t : TileName) (op frame vpn line at_ visible : Nat) : State × Bool :=
  (List.range 8).foldl (fun (s, ok) w =>
    let rec_ (kind bit : Nat) : ErrRec :=
      { errRec s t own kind op vpn line bit visible with cyc := cycAt s t at_ }
    match wrongCells (slabOf s t) frame line w with
    | [] => (s, ok)
    | [b] => (modSlab s t fun sl => logErr sl (rec_ 1 (b % 512)), ok)
    | _ => (modSlab s t fun sl => logErr sl (rec_ 2 0), false)) (s, true)

/-- AUX of an error in a line of a page. -/
def lineAux (vpn line : Nat) : Word := BitVec.ofNat 64 (vpn * 4096 + 64 * line)

/-- Data lanes of a group (R232). -/
def groupLanes (g : Nat) : List Nat := (List.range 16).map (16 * g + ·)

/-- The flipped data lanes of a group of a beat. -/
def flippedLanes (x : BusErr) (g : Nat) : List Nat := (groupLanes g).filter fun l => x.flips.getLsbD l

/-- A group's even parity does not check (R232). -/
def parityBad (x : BusErr) (g : Nat) : Bool :=
  ((flippedLanes x g).length + (if x.flips.getLsbD (256 + g) then 1 else 0)) % 2 = 1

/-- The mismatches of a beat. -/
def beatMisses (x : BusErr) : List BusMiss :=
  ((List.range 16).filter (parityBad x)).map fun g => ⟨x.beat, g, flippedLanes x g, x.ok.getLsbD g⟩

/-- The flips of a beat that no parity shows, at their bits of the line (R232: lane l carries bit l of the beat's 32 bytes,
which are the low half of the line for an even beat). -/
def silentFlips (x : BusErr) : BitVec 512 :=
  let data := (List.range 256).foldl (fun v l =>
    if x.flips.getLsbD l && !parityBad x (l / 16) then v ||| BitVec.twoPow 512 l else v) 0
  data <<< (256 * (x.beat % 2))

/-- BUS: the transfer of an operation has ended; the hardware's wrong beats become its mismatches (R245). -/
def landBusTake (s : State) (t : TileName) (n : Nat) : State :=
  match tabGet (slabOf s t).stage n with
  | none => s
  | some x =>
    if !x.here then s
    else
      let errs := (slabOf s t).busErr
      let lines := errs.foldl (fun ls b => tabPut ls (b.beat / 2) (tabGetD 0 ls (b.beat / 2) ^^^ silentFlips b)) x.lines
      modSlab s t fun sl =>
        { sl with busErr := [], stage := tabPut sl.stage n { x with lines, bus := errs.flatMap beatMisses } }

/-- The counts of the lanes that a good retransfer showed to differ, and the swaps that a count of 8 schedules (R245,
R246). -/
def countLanes (sl : Slab) (ls : List Nat) : Slab :=
  ls.foldl (fun sl l =>
    let cnt := min 15 (tabGetD 0 sl.laneCount l + 1)
    { sl with laneCount := tabPut sl.laneCount l cnt, swaps := if cnt = 8 then sl.swaps ++ [l] else sl.swaps }) sl

/-- One mismatch settles in retry slot k: the retransfer checks, or the operation has failed.  LANE of a mismatch that
differs in no data lane or in several is the group's or the mismatch's lowest (DESIGN CHOICE, log 138); with more than two
mismatches each is a record of its own (DESIGN CHOICE, log 139). -/
def settleMiss (s : State) (own : Owner) (t : TileName) (n op k : Nat) (x : StageOp) (m : BusMiss) : State :=
  let good := m.ok && x.bus.length ≤ 2 && 0 < (slabOf s t).spares
  let sl := if good then countLanes (slabOf s t) m.lanes else slabOf s t
  let ln := m.lanes.headD (16 * m.group)
  let r : ErrRec :=
    { (errRec s t own (if good then 3 else 4) op x.vpn (m.beat / 2) 0 s.now) with
      cyc := cycAt s t (x.start + 96 + m.beat / 2), retry := BitVec.ofNat 2 (k + 1),
      lane := BitVec.ofNat 8 ln, lcnt := BitVec.ofNat 4 (tabGetD 0 sl.laneCount ln),
      swap := good && m.lanes.any fun l => tabGetD 0 sl.laneCount l = 8, beat := BitVec.ofNat 7 m.beat }
  let s := modSlab s t fun _ => logErr sl r
  if good then s else failWith s t n x 2 (BitVec.ofNat 64 (x.vpn * 4096 + 32 * m.beat))

/-- The end of retry slot k: the first mismatch settles in slot 1, the others in slot 2 (R233, R245). -/
def landBusSettle (s : State) (own : Owner) (t : TileName) (n k : Nat) : State :=
  match tabGet (slabOf s t).stage n with
  | none => s
  | some x =>
    let op := if (slotOf (slabOf s t) n).flush then 1 else 0
    (if k = 0 then x.bus.take 1 else x.bus.drop 1).foldl (fun s m => settleMiss s own t n op k x m) s

/-! ### The timeline (R233, R235, R239) -/

def landResClear (s : State) (t : TileName) (n : Nat) : State := modSlot s t n fun x => { x with res := false }

def landWinv (s : State) (t : TileName) (n : Nat) : State := cleanSlot s t n

/-- DIRTY of a slot against the writes of the same cycle (R235). -/
def landDirtySlot (s : State) (t : TileName) (n : Nat) : State := modSlot s t n fun w => { w with dirty := 0 }

/-- Lines 2p and 2p + 1 of the page come into the buffer, corrected; the page of another tile fills with zeros. -/
def landFillRead (s : State) (own : Owner) (t : TileName) (n p : Nat) : State :=
  match tabGet (slabOf s t).stage n with
  | none => s
  | some x =>
    if !x.here then s
    else
      let got := [2 * p, 2 * p + 1].map fun l => (l, memLine s.vault (vaultLineKey x.home x.frame l))
      let s := modSlab s t fun sl => { sl with stage := tabPut sl.stage n { x with lines := tabPuts x.lines got } }
      [2 * p, 2 * p + 1].foldl (fun s l =>
        let (s, good) := cellCheck s own t 0 x.frame x.vpn l (x.start + 64 + p) (x.start + 96)
        if good then s else failWith s t n x 1 (lineAux x.vpn l)) s

/-- Row L of the slot receives its line; its DIRTY bit clears.  A transfer that failed writes nothing (R245). -/
def landFillRow (s : State) (t : TileName) (n l : Nat) : State :=
  match tabGet (slabOf s t).stage n with
  | none => s
  | some x =>
    if x.failed then s
    else
      let s := padWrite s t (4096 * n + 64 * l) 64 (tabGetD 0 x.lines l).toNat
      modSlot s t n fun w => { w with dirty := w.dirty &&& ~~~(BitVec.twoPow 64 l) }

/-- Row L is read with its DIRTY bit, which clears. -/
def landFlushRow (s : State) (t : TileName) (n l : Nat) : State :=
  match tabGet (slabOf s t).stage n with
  | none => s
  | some x =>
    let line := memLine s.mem (padKey t (4096 * n + 64 * l))
    let d := (slotOf (slabOf s t) n).dirty.getLsbD l
    let y := { x with lines := tabPut x.lines l line, dirty := if d then x.dirty ||| BitVec.twoPow 64 l else x.dirty }
    let s := modSlab s t fun sl => { sl with stage := tabPut sl.stage n y }
    modSlot s t n fun w => { w with dirty := w.dirty &&& ~~~(BitVec.twoPow 64 l) }

/-- A line of a context is to be logged before it is written: the array reads its old bytes (R248). -/
def undoNeeded (s : State) (c : Nat) (home : TileName) (frame line : Nat) : Bool :=
  !((ctxOf s c).undo.any fun e => e.1 = vaultLineKey home frame line)

/-- The dirty lines among 2p and 2p + 1 are written to the vault, undo-logged (R248); the read of an old line meets its own
errors (R244).  A transfer that failed writes nothing (R245); a line with no room for its entry stops the flush in every slab,
and the fault names this one (11_group R270). -/
def landFlushWrite (s : State) (own : Owner) (t : TileName) (n p : Nat) : State :=
  match tabGet (slabOf s t).stage n with
  | none => s
  | some x =>
    [2 * p, 2 * p + 1].foldl (fun s l =>
      if stageFailed s t n || !x.dirty.getLsbD l then s
      else
        let (s, good) := if undoNeeded s own.ctx x.home x.frame l then
            cellCheck s own t 1 x.frame x.vpn l s.now (x.start + 224) else (s, true)
        if !good then failWith s t n x 1 (lineAux x.vpn l)
        else if undoFull s own.ctx x.home x.frame l then
          raiseUndoFull (failStage s x) own x.frame l ((gangTiles s own.gang).idxOf t)
        else vaultWriteLine s own x.home x.frame l (tabGetD 0 x.lines l)) s

/-- The operation leaves the slot. -/
def endStage (s : State) (t : TileName) (n : Nat) : State :=
  let s := modSlab s t fun sl => { sl with stage := tabDel sl.stage n }
  modSlot s t n fun w => { w with pend := false }

/-- WFILL_LANDING (R235): RES is set for a page homed here whose tag entry still names it, unless an acquire has come
between (13_binding R303). -/
def execWfillLanding (s : State) : Host.Outcome State Fault Refusal :=
  match s.arg with
  | .wfillLanding t n =>
    match tabGet (slabOf s t).stage n with
    | none => .next s
    | some x =>
      let w := tagWord s t n
      let ok := x.here && !x.failed && !x.noRes && tagValid w && tagVpn w = x.vpn
      let s := bumpCounter (endStage s t n) x.own.gang 8 1
      .next (if ok then modSlot s t n fun w => { w with res := true } else s)
  | _ => .fault .noOperand

/-- WFLUSH_LANDING (R239). -/
def execWflushLanding (s : State) : Host.Outcome State Fault Refusal :=
  match s.arg with
  | .wflushLanding t n =>
    match tabGet (slabOf s t).stage n with
    | none => .next s
    | some x => .next (bumpCounter (endStage s t n) x.own.gang 9 1)
  | _ => .fault .noOperand

/-! ### WATOM (R241) -/

def watomOp (k : Nat) : AtomOp :=
  match k with
  | 0 => .add
  | 1 => .and
  | 2 => .or
  | 3 => .xor
  | 4 => .min
  | 5 => .max
  | 6 => .xchg
  | _ => .cas

/-- The pinned translation of a page in a MAPPED region of a slab. -/
def mappedPin (s : State) (t : TileName) (vpn : Nat) : Option Pin :=
  (List.range 64).findSome? fun i => if rgnHolds s t i vpn then pinFor s t i vpn else none

def wSync (gva : Nat) : Word := BitVec.ofNat 64 (0x1000000000000 + gva)

def execWatom (g : BitVec 5) (src : BitVec 9) (s : State) : Host.Outcome State Fault Refusal :=
  slotStep s g 645 fun is s =>
    let t := is.gang
    let own := issueOwner s is
    let gg := gangOf s t
    untagged s is (gangTiles s t) src fun s =>
      let w := (readScalar s is t src).val
      let scope := (w.extractLsb' 60 3).toNat
      let ford : BitVec 3 := w.extractLsb' 56 3
      let ordc : BitVec 3 := w.extractLsb' 52 3
      let op := watomOp (w.extractLsb' 48 3).toNat
      let gva := (w.extractLsb' 0 48).toNat
      if 6 ≤ scope || 5 ≤ ordc.toNat || (op = .cas && !(ford = 0 || ford = 1 || ford = 4)) then raise s own 1 0
      else if gva % 8 != 0 then raiseAux s own 8 5 (BitVec.ofNat 64 gva) 0
      else
        match mappedPin s t (gva / 4096) with
        | none => raiseAux s own 8 10 (BitVec.ofNat 64 gva) 0
        | some p =>
          let wafer := isWafer s t gg.dmem p.home
          if 4 ≤ scope && gg.tctl.scopestrict then raise s own 10 0
          else if p.home != t && (nameEntry (slabOf s t) p.home).isNone then raiseAux s own 11 0 (BitVec.ofNat 64 p.home) 0
          else if p.home != t && queueFull s t wafer then raise s own 9 6
          else
            let s := if 4 ≤ scope then
                modGang s t fun gg => { gg with tst := { gg.tst with scopenarrow := true } } else s
            let x : WAtomOp := ⟨own, t, gangTiles s t, op, dOpa s is t, dOpb s is t, ordc, ford, gva, p.home, p.frame, s.now⟩
            if p.home = t then
              let s := if ordReleases ordc then
                  postAct s own (s.now + 128) ordCheck (.relCheck ⟨t, s.now, .load 8, 154, [], some ⟨wSync gva, false, true⟩, 0, none⟩)
                else s
              postEv s (s.now + 128) (ordWrite + 20) t (some own) .watomApply (.watomApply x)
            else enqueue s own t wafer unitD (.watom x) p.home (s.now + 128)

/-- The vault's atomic port: the doubleword before, and the write with its undo entry (R241, R248); none of either when its
line cannot be read (R245), and no result where the undo log has no room (R248, 20_fault R446). -/
def applyWatom (s : State) (w : WAtomOp) : State × Option Word :=
  let off := w.gva % 4096
  let key := vaultKey w.home w.frame off
  let (s, good) := cellCheck s w.own w.home 2 w.frame (w.gva / 4096) (off / 64) s.now (s.now + 1)
  let old := BitVec.ofNat 64 (memReadN s.vault key 8)
  if !good then (uncorrectable s w.own w.home 1 (lineAux (w.gva / 4096) (off / 64)), none)
  else
    match atomNew w.op old w.t w.cmp with
    | none => (s, some old)
    | some v =>
      let line := memLine (memWriteN s.vault key 8 v.toNat) (vaultLineKey w.home w.frame (off / 64))
      (vaultWriteLine s w.own w.home w.frame (off / 64) line,
        if undoFull s w.own.ctx w.home w.frame (off / 64) then none else some old)

/-- The old value reaches d.a of every slab, with the acquire of the lock word it names (13_binding R296, R300). -/
def watomResult (s : State) (w : WAtomOp) (at_ : Nat) (old : Word) : State :=
  let s := w.dests.foldl (fun s t => postLand s w.own at_ (.slRes t 154 (.plain old))) s
  if ordAcquires (ordTaken w.op old w.cmp w.ordc w.ford) then postLand s w.own at_ (.acquire 3 (wSync w.gva)) else s

/-- WATOM_APPLY: a local atomic on c+128, its result at c+256. -/
def execWatomApply (s : State) : Host.Outcome State Fault Refusal :=
  match s.arg with
  | .watomApply w =>
    match applyWatom s w with
    | (s, some old) => .next (watomResult s w (s.now + 128) old)
    | (s, none) => .next s
  | _ => .fault .noOperand

/-- REMOTE_WATOM_APPLY: the reply returns at x + 2B + 128, x the cycle the request was sent (10_route R260); replies of one
cycle land in the order their atomics were triggered (02_bundle R34). -/
def execRemoteWatomApply (s : State) : Host.Outcome State Fault Refusal :=
  match s.arg with
  | .remoteWatomApply w =>
    match applyWatom s w with
    | (s, some old) =>
      .next (postEv s (w.trigAt + 2 * bound w.src w.home + 128) ordLand w.own.born (some w.own) .remoteWatomReply
        (.remoteWatomReply w old))
    | (s, none) => .next s
  | _ => .fault .noOperand

/-- REMOTE_WATOM_REPLY. -/
def execRemoteWatomReply (s : State) : Host.Outcome State Fault Refusal :=
  match s.arg with
  | .remoteWatomReply w old =>
    let s := w.dests.foldl (fun s t => landSl s w.own t 154 (.plain old)) s
    .next (if ordAcquires (ordTaken w.op old w.cmp w.ordc w.ford) then
      acquireObject s (gangTiles s w.own.gang) 3 (wSync w.gva).toNat else s)
  | _ => .fault .noOperand

/-! ### WSTAT, WRES, PGREQ (R242, R243, 17_page R397) -/

/-- The value WSTAT selects in one slab (R242); more than 15 pending lane swaps read as 15 (DESIGN CHOICE, log 181). -/
def wstatValue (s : State) (ctx : Nat) (t : TileName) (w : Word) : Word :=
  let sl := slabOf s t
  let n := w.toNat % 1024
  let x := slotOf sl n
  let b (p : Bool) (k : Nat) : Nat := if p then 2 ^ k else 0
  match (w.extractLsb' 10 2).toNat with
  | 0 =>
    let left := match tabGet sl.stage n with | some o => o.start + 256 - s.now | none => 0
    BitVec.ofNat 64 (b (tagValid (tagWord s t n)) 63 + b x.res 62 + b x.pend 61 + b x.flush 60 + left % 512)
  | 1 => x.dirty
  | 2 =>
    BitVec.ofNat 64 (sl.spares * 2 ^ 60 + min 15 sl.swaps.length * 2 ^ 56 + (errVisible sl ctx s.now).length * 2 ^ 48 +
      undoCount (ctxOf s ctx) t % 2 ^ 17)
  | _ => 0

/-- A query of the slab t[15..14] names, for the d.r of every slab; an index outside the gang delivers 0. -/
def dQuery (port : Nat) (f : State → Nat → TileName → Word → Word) (g : BitVec 5) (src : BitVec 9) (s : State) :
    Host.Outcome State Fault Refusal :=
  slotStep s g port fun is s =>
    let ts := gangTiles s is.gang
    untagged s is ts src fun s => forTiles s ts fun st t =>
      let w := (readScalar s is t src).val
      let v := match ts[(w.extractLsb' 14 2).toNat]? with | some u => f s (gangOf s is.gang).ctx u w | none => 0
      postLand st (issueOwner s is) (s.now + 1) (.slRes t 153 (.plain v))

def execWstat (g : BitVec 5) (src : BitVec 9) (s : State) : Host.Outcome State Fault Refusal :=
  dQuery 646 wstatValue g src s

def execWres (g : BitVec 5) (src : BitVec 9) (s : State) : Host.Outcome State Fault Refusal :=
  dQuery 647 (fun s _ t w => resBits (slabOf s t) (64 * (w.toNat % 16))) g src s

/-- PGREQ: made once for the named slab; the request leaves as a wafer item of slab 0 (11_group R269). -/
def execPgreq (g : BitVec 5) (src : BitVec 9) (s : State) : Host.Outcome State Fault Refusal :=
  slotStep s g 648 fun is s =>
    let t := is.gang
    let ts := gangTiles s t
    let own := issueOwner s is
    untagged s is ts src fun s =>
      let w := (readScalar s is t src).val
      let result (s : State) (v : Word) : State :=
        forTiles s ts fun s u => postLand s own (s.now + 1) (.slRes u 153 (.plain v))
      match ts[(w.extractLsb' 48 2).toNat]? with
      | none => raiseAux s own 8 2 w 0
      | some u =>
        let sl := slabOf s u
        match (List.range 16).find? fun i => (tabGet sl.requests i).isNone with
        | none => result s (BitVec.twoPow 64 63)
        | some i =>
          if queueFull s t true then raise s own 9 6
          else
            let num := sl.reqCount % 4096 * 16 + i
            let vpn := (w.extractLsb' 12 36).toNat
            let s := modSlab s u fun sl =>
              { sl with requests := tabPut sl.requests i ⟨own.ctx, num, vpn, .issued⟩, reqCount := sl.reqCount + 1 }
            let c := (gangOf s t).ctx
            let s := enqueue s own t true unitD (.pageReq c (ctxOf s c).gen num vpn) u (s.now + 1)
            result s (BitVec.ofNat 64 num)

end Sys2Proof.Machine
end

