-- ==== Sys2Proof/Machine/Units.lean ====
section
/-! DEFINITION. Physical units and the binding map (01_wafer R14 to R19, 19_tile R433 to R436), and the lane swaps of a vault (09_window R246). -/

namespace Sys2Proof.Machine

/-- The skip position of a physical row of a reticle (R15, R433). -/
def skipOf (m : BindingMap) (ret row : Nat) : Nat := tabGetD 12 m.skips (11 * ret + row)

/-- The physical slab bound to a logical tile (R15). -/
def slabUnit (m : BindingMap) (t : TileName) : UnitId :=
  let q := tileCol t % 12
  let row := tileRow t % 11
  ⟨false, reticleOf t, if q < skipOf m (reticleOf t) row then q else q + 1, row⟩

/-- The front end that a reference of the map names (R433). -/
def feUnit (w : BitVec 16) : UnitId :=
  ⟨true, (w.extractLsb' 8 6).toNat, (w.extractLsb' 4 4).toNat, (w.extractLsb' 0 4).toNat⟩

/-- The reference of the front end of a gang (R433, 11_group R267). -/
def feRef (m : BindingMap) (g : TileName) (w : Nat) : BitVec 16 :=
  let c := tileCol g
  let r := tileRow g
  if w = 4 then tabGetD 0 m.quads (48 * (r / 2) + c / 2)
  else if w = 2 then tabGetD 0 m.pairs (48 * r + c / 2)
  else tabGetD 0 m.singles (96 * r + c)

/-- State and passed power cycles of a unit; a unit never tested is UNTESTED (R435). -/
def unitOf (s : State) (u : UnitId) : UnitState × Nat :=
  match s.units.find? fun e => e.1 = u with
  | some (_, st, n) => (st, n)
  | none => (.untested, 0)

def putUnit (s : State) (u : UnitId) (st : UnitState) (n : Nat) : State :=
  { s with units := if s.units.any fun e => e.1 = u then s.units.map fun e => if e.1 = u then (u, st, n) else e
                    else s.units ++ [(u, st, n)] }

/-- A unit that a binding passes over: RETIRED, or RETIRING since an earlier power cycle (R435; log 161). -/
def passedOver (s : State) (u : UnitId) : Bool :=
  let (st, n) := unitOf s u
  st = .retired || (st = .retiring && n != 0)

/-- The first column of a physical row that is passed over; where there is none, that of a reinstated slab, which stays the
row's spare (R438), else 12. -/
def ownSkip (s : State) (ret row : Nat) : Nat :=
  let first (p : UnitId → Bool) : Option Nat := (List.range 13).find? fun c => p ⟨false, ret, c, row⟩
  ((first (passedOver s)).or (first s.reinstated.contains)).getD 12

/-- The logical position in its row of a physical column, by the row's skip position (R15). -/
def slabPosition (skip col : Nat) : Option Nat := if col = skip then none else some (if col < skip then col else col - 1)

/-- With this skip position a reinstated slab of the row would have its former logical position again (R438). -/
def takesBack (s : State) (ret row skip : Nat) : Bool :=
  s.reinstated.any fun u => !u.frontEnd && u.reticle = ret && u.row = row &&
    s.former.any fun e => e.1 = u && slabPosition skip u.col = some e.2

/-- Slabs that are RETIRED leave the logical positions that they have by their rows' skips. -/
def leavePositions (s : State) (us : List UnitId) (skip : UnitId → Nat) : State :=
  us.foldl (fun s u => match (if u.frontEnd then none else slabPosition (skip u) u.col) with
    | some p => { s with former := (u, p) :: s.former.filter (·.1 != u) }
    | none => s) s

/-- The same for slabs that fail before a map is written: their positions are those of the last one. -/
def leaveLast (s : State) (us : List UnitId) : State :=
  match s.lastSkips with
  | some sk => leavePositions s us fun u => tabGetD 12 sk (11 * u.reticle + u.row)
  | none => s

/-- The slab under a logical tile by the map, or by its reticle's own skips before a map is written (R432). -/
def tileUnit (s : State) (t : TileName) : UnitId :=
  match s.binding with
  | some m => slabUnit m t
  | none =>
    let q := tileCol t % 12
    let row := tileRow t % 11
    ⟨false, reticleOf t, if q < ownSkip s (reticleOf t) row then q else q + 1, row⟩

/-- A front end drives a physical slab: one of its 2 × 2 group, or one beside the group in its row by a relay (R17). -/
def feDrives (f u : UnitId) : Bool :=
  let near : Bool := f.col ≤ u.col + 1 && u.col ≤ f.col + 2 && u.col ≤ 12
  let row : Bool := (u.reticle = f.reticle && (u.row = f.row || u.row + 1 = f.row) && u.row ≤ 10) ||
    (f.row = 0 && u.row = 10 && u.reticle + 8 = f.reticle)
  near && row

/-- The island of a reticle (19_tile R431). -/
def islandOf (s : State) (r : Nat) : List Nat := (s.islands.find? fun i => i.contains r).getD [r]

/-- A unit that can run tasks in reduced service: good, or RETIRING and still in use. -/
def usable (s : State) (u : UnitId) : Bool :=
  let (st, n) := unitOf s u
  st = .spare || st = .bound || (st = .retiring && n = 0)

/-- The slab under a tile may run tasks in reduced service: it is usable, and no reinstated slab of its row stands at its former
position. -/
def standsWell (s : State) (t : TileName) : Bool :=
  let u := tileUnit s t
  usable s u && !takesBack s u.reticle u.row (ownSkip s u.reticle u.row)

/-- The front end of a gang in the provisional binding of an island: the first of the island's own that drives its slabs, all of
them usable, and that is not among those in use (19_tile R432, R433; log 161). -/
def provisionalFe (s : State) (used : List UnitId) (g : TileName) (w : Nat) : Option UnitId :=
  let ts := gangTilesOf g w
  if !ts.all (standsWell s) then none
  else (islandOf s (reticleOf g)).findSome? fun r => (List.range 12).findSome? fun row => (List.range 13).findSome? fun col =>
    let f : UnitId := ⟨true, r, col, row⟩
    if usable s f && !used.contains f && ts.all (fun t => feDrives f (tileUnit s t)) then some f else none

/-- The gangs at work with their front ends in reduced service. -/
def boundFes (s : State) : List (TileName × Nat × UnitId) :=
  (s.tasks.filter fun e => e.2.st != .ended).flatMap fun e =>
    (e.2.fes.filter fun f => e.2.gangs.any fun g => g.1 = f.1 && g.2.1 != 3).map fun f => (f.1, e.2.width, f.2)

/-- Front ends for the gangs of a launch, each its own and none that a gang beside them uses; a gang that follows one of its own
tiles keeps that one's. -/
def assignFes (s : State) (gs : List (TileName × Nat)) : Option (Tab UnitId) :=
  let ts := gs.flatMap fun g => gangTilesOf g.1 g.2
  let beside : List UnitId := ((boundFes s).filter fun b => !(gangTilesOf b.1 b.2.1).any ts.contains).map fun b => b.2.2
  gs.foldlM (fun (fes : Tab UnitId) g =>
    let f := match (boundFes s).find? fun b => b.1 = g.1 && b.2.1 = g.2 with
      | some b => some b.2.2
      | none => provisionalFe s (beside ++ fes.map (fun (x : Nat × UnitId) => x.2)) g.1 g.2
    f.map fun f => tabPut fes g.1 f) []

/-- What a task placed in reduced service is bound to; none in service, where the map binds (19_tile R433). -/
def provisionalFes (s : State) (gs : List (TileName × Nat)) : Tab UnitId :=
  if s.phase = .merging then (assignFes s gs).getD [] else []

/-- A task comes back to its tiles, with the front ends that it is bound to now. -/
def putTask (s : State) (id : Nat) (t : Task) : State :=
  { s with tasks := tabPut s.tasks id { t with fes := provisionalFes s (t.gangs.map fun g => (g.1, t.width)) } }

/-- A retirement cause meets a unit: a bound one, or one that a provisional binding uses, becomes RETIRING, and a remap is due
(R435, R436). -/
def retireUnit (s : State) (u : UnitId) : State :=
  let st := (unitOf s u).1
  if st = .bound || (st = .spare && s.phase = .merging) then putUnit { s with remapDue := true } u .retiring 0 else s

/-- Retire the slab under a logical tile. -/
def retireTile (s : State) (t : TileName) : State := retireUnit s (tileUnit s t)

/-- The front end of a gang. -/
def gangFe (s : State) (g : TileName) : Option UnitId :=
  match s.binding with
  | some m => some (feUnit (feRef m g (gangOf s g).width))
  | none => (tabGet s.tasks (gangOf s g).task).bind fun t => tabGet t.fes g

/-- Retire the front end of a gang. -/
def retireFrontEnd (s : State) (g : TileName) : State :=
  match gangFe s g with | some u => retireUnit s u | none => s

/-- Defective and RETIRING units that satisfy p, for the management plane (19_tile R430, R437). -/
def badUnits (s : State) (p : UnitId → Bool) : List UnitId :=
  (s.units.filter fun e => (e.2.1 = .retired || e.2.1 = .retiring) && p e.1).map (·.1)

/-- The module leaves service, or does not enter it: the failing units are reported, and its contexts stay as they are
(R19, 19_tile R430, R437). -/
def leaveService (s : State) (rule : Nat) : State :=
  tell (tell (setPhase s .outOfService) (.report rule 0)) (.failing (badUnits s fun _ => true))

/-! ### Voltage islands (R25) -/

/-- The island row of a logical row: 0..6 and 8..14 hold four rows each, 7 and 15 hold five. -/
def islandRow (r : Nat) : Nat := if r < 28 then r / 4 else if r < 33 then 7 else if r < 61 then 8 + (r - 33) / 4 else 15

/-- The voltage island of a tile: 48 across the grid, two columns each, and 16 down it. -/
def voltageIsland (t : TileName) : Nat := 48 * islandRow (tileRow t) + tileCol t / 2

/-- The voltage of a tile in millivolts; no latency and no value depends on it. -/
def tileVolts (s : State) (t : TileName) : Nat := tabGetD 600 s.volts (voltageIsland t)

/-- The scheduled lane swaps of a tile's vault: the lane moves to a spare, or the swap fails and the tile retires
(R246). -/
def laneSwaps (s : State) (c : Nat) (t : TileName) : State :=
  let s := (slabOf s t).swaps.foldl (fun s ln =>
    let sl := slabOf s t
    let done := 0 < sl.spares
    let r : ErrRec :=
      { ctx := c, cyc := tileCyc s t, seq := 0, kind := if done then 5 else 6, op := 0, retry := 0,
        lane := BitVec.ofNat 8 ln, lcnt := if done then 0 else BitVec.ofNat 4 (tabGetD 0 sl.laneCount ln), swap := false,
        beat := 0, vpn := 0, line := 0, bit := 0, visible := s.now }
    let s := modSlab s t fun sl =>
      if done then { (logErr sl r) with spares := sl.spares - 1, laneCount := tabPut sl.laneCount ln 0 } else logErr sl r
    if done then s else retireTile s t) s
  modSlab s t fun sl => { sl with swaps := [] }

end Sys2Proof.Machine
end

