-- ==== Sys2Proof/Machine/Context.lean ====
section
/-! DEFINITION. What a context's stop keeps: the hard freeze and its replay queue (16_context R376, R377), the load values of a resume from a quiet point (R368), the shift of absolute cycles (R386). -/

namespace Sys2Proof.Machine

/-! ### Tiles of a context -/

/-- The tiles of the gangs of a context. -/
def ctxTiles (s : State) (c : Nat) : List TileName := (ctxGangs s c).flatMap fun g => gangTiles s g

/-- The tasks of a context with their numbers. -/
def ctxTasks (s : State) (c : Nat) : List (Nat × Task) := s.tasks.filter fun e => e.2.ctx = c

/-- An event works for a context. -/
def ofCtx (c : Nat) (e : Ev) : Bool := match e.own with | some o => o.ctx = c | none => false

/-! ### The owners that held state names -/

/-- Change every owner that an item, a slab's state or an event names. -/
def ownItem (f : Owner → Owner) (x : Item) : Item :=
  { x with own := f x.own, kind := match x.kind with | .watom w => .watom { w with own := f w.own } | k => k }

def ownSlab (f : Owner → Owner) (sl : Slab) : Slab :=
  { sl with
    mx := { sl.mx with run := sl.mx.run.map fun r => { r with own := f r.own } }
    stage := sl.stage.map fun e => (e.1, { e.2 with own := f e.2.own })
    pend := sl.pend.map fun p => { p with own := f p.own }
    injW := sl.injW.map (ownItem f)
    injD := sl.injD.map (ownItem f)
    copies := sl.copies.map fun e => (e.1, { e.2 with own := f e.2.own }) }

def ownArg (f : Owner → Owner) : Operand → Operand
  | .watomApply w => .watomApply { w with own := f w.own }
  | .remoteWatomApply w => .remoteWatomApply { w with own := f w.own }
  | .remoteWatomReply w v => .remoteWatomReply { w with own := f w.own } v
  | .remoteAccessArrival a => .remoteAccessArrival { a with own := f a.own }
  | .copyBeatDelivery b => .copyBeatDelivery { b with own := f b.own }
  | o => o

def ownInstr (f : Owner → Owner) : Instr → Instr
  | .operationLanding o (.barBeat b) => .operationLanding (f o) (.barBeat { b with own := f b.own })
  | .operationLanding o a => .operationLanding (f o) a
  | i => i

def ownEv (f : Owner → Owner) (e : Ev) : Ev :=
  { e with own := e.own.map f, instr := ownInstr f e.instr, arg := ownArg f e.arg }

/-! ### Absolute cycles (R386) -/

/-- An absolute cycle x of a state saved at base b, at the resume cycle g. -/
def rebase (b g x : Nat) : Nat := x + g - b

/-- A cycle of a tile's own count, of 64 bits. -/
def rebaseWord (b g : Nat) (w : Word) : Word := w + BitVec.ofNat 64 g - BitVec.ofNat 64 b

def rebaseCount (b g x : Nat) : Nat := (rebaseWord b g (BitVec.ofNat 64 x)).toNat

def shiftOwner (b g : Nat) (o : Owner) : Owner := { o with born := rebase b g o.born }

def shiftRun (b g : Nat) (r : MxRun) : MxRun :=
  { r with land := rebase b g r.land, since := rebase b g r.since, bg := r.bg.map fun x => { x with at_ := rebase b g x.at_ } }

def shiftItem (b g : Nat) (x : Item) : Item :=
  { x with eligible := rebase b g x.eligible, order := 8 * rebase b g (x.order / 8) + x.order % 8 }

/-- The absolute cycles of a slab's state, at the resume cycle. -/
def shiftSlab (b g : Nat) (sl : Slab) : Slab :=
  let r := rebase b g
  let sl := ownSlab (shiftOwner b g) sl
  { sl with
    fload := sl.fload.map r
    xtiles := sl.xtiles.map fun x => { x with first := r x.first, last := r x.last }
    mx := { sl.mx with run := sl.mx.run.map (shiftRun b g), vclaims := sl.mx.vclaims.map fun v => (r v.1, r v.2) }
    stage := sl.stage.map fun e => (e.1, { e.2 with start := r e.2.start })
    resv := sl.resv.map fun x => (x.1, r x.2.1, r x.2.2)
    prog := { sl.prog with t0 := rebaseCount b g sl.prog.t0 }
    pend := sl.pend.map fun p => { p with t0 := p.t0.map (rebaseCount b g) }
    injW := sl.injW.map (shiftItem b g)
    injD := sl.injD.map (shiftItem b g)
    copies := sl.copies.map fun e => (e.1, { e.2 with start := r e.2.start }) }

def shiftWait (b g : Nat) : WaitKind → WaitKind
  | .cycwait t => .cycwait (rebaseWord b g t)
  | w => w

/-- ORIGIN, wait targets, the start of a wait and the arrivals it has seen, at the resume cycle. -/
def shiftGang (b g : Nat) (x : Gang) : Gang :=
  { x with
    origin := rebaseWord b g x.origin, waitStart := rebase b g x.waitStart, waitEnd := rebase b g x.waitEnd
    waits := x.waits.map (shiftWait b g)
    blk := { x.blk with waits := x.blk.waits.map (shiftWait b g) }
    aligned := x.aligned.map fun a => (a.1, rebase b g a.2)
    events := x.events.map fun e => { e with at_ := rebase b g e.at_ }
    lastIssue := x.lastIssue.map fun i => (rebase b g i.1, i.2) }

/-- The trigger cycle that a vault atomic on its way carries (09_window R241). -/
def shiftOperand (b g : Nat) : Operand → Operand
  | .watomApply w => .watomApply { w with trigAt := rebase b g w.trigAt }
  | .remoteWatomApply w => .remoteWatomApply { w with trigAt := rebase b g w.trigAt }
  | .remoteWatomReply w v => .remoteWatomReply { w with trigAt := rebase b g w.trigAt } v
  | o => o

def shiftInstr (b g : Nat) : Instr → Instr
  | .operationLanding o (.relCheck a) =>
    .operationLanding o (.relCheck (if a.port = 154 then { a with addr := rebase b g a.addr } else a))
  | i => i

/-- An event held over a stop.  Its order among equals is a name or number, below 2^32, or the trigger cycle. -/
def shiftEv (b g : Nat) (e : Ev) : Ev :=
  let e := ownEv (shiftOwner b g) e
  { e with
    sub := if e.sub < 2 ^ 32 then e.sub else rebase b g e.sub
    instr := shiftInstr b g e.instr, arg := shiftOperand b g e.arg }

/-- CYCLE breakpoints moved by d. -/
def shiftBreaks (d : Word) (bps : Tab Breakpoint) : Tab Breakpoint :=
  bps.map fun e => (e.1, if e.2.kind = 1 then { e.2 with value := e.2.value + d } else e.2)

/-- Move everything that a context's gangs and tiles hold, and its CYCLE breakpoints, from base b to the resume cycle g
(R386, 21_marker R466). -/
def shiftCtx (s : State) (c b g : Nat) : State :=
  let s := (ctxGangs s c).foldl (fun s n => modGang s n (shiftGang b g)) s
  let s := forTiles s (heldTiles s c) fun s t => modSlab s t (shiftSlab b g)
  modCtx s c fun k =>
    { k with bps := shiftBreaks (rebaseWord b g 0) k.bps, runShift := rebaseWord b g k.runShift }

/-- The counts that a gang and a slab hold move by d: their island's count has been set forward (19_tile R431). -/
def countGang (d : Word) (x : Gang) : Gang :=
  { x with
    origin := x.origin + d, waits := x.waits.map (shiftWait 0 d.toNat)
    blk := { x.blk with waits := x.blk.waits.map (shiftWait 0 d.toNat) } }

def countSlab (d : Word) (sl : Slab) : Slab :=
  { sl with
    prog := { sl.prog with t0 := rebaseCount 0 d.toNat sl.prog.t0 }
    pend := sl.pend.map fun p => { p with t0 := p.t0.map (rebaseCount 0 d.toNat) } }

/-- The counts of a context's gangs and tiles, moved by d. -/
def countCtx (s : State) (c : Nat) (d : Word) : State :=
  forTiles ((ctxGangs s c).foldl (fun s n => modGang s n (countGang d)) s) (heldTiles s c) fun s t => modSlab s t (countSlab d)

/-- A stopped context with all its absolute cycles by the count of its island, as its image holds them (R382, R386). -/
def inCounts (s : State) (c : Nat) : State :=
  let a := ctxAhead s c
  if a = 0 then s
  else
    modCtx (shiftCtx (countCtx s c (0 - BitVec.ofNat 64 a)) c 0 a) c fun k =>
      { k with cycBase := k.cycBase + a, frozenAt := k.frozenAt + a, replayQ := k.replayQ.map (shiftEv 0 a) }

/-- The counts of some reticles are set forward to L, and what is told in them with them (19_tile R431). -/
def setForward (s : State) (rs : List Nat) (l : Nat) : State :=
  let d (t : TileName) : Word := if rs.contains (reticleOf t) then BitVec.ofNat 64 (l - islandCyc s t) else 0
  { s with
    ahead := rs.foldl (fun a r => tabPut a r (l - s.now)) s.ahead
    gangs := s.gangs.map fun e => (e.1, countGang (d e.1) e.2)
    slabs := s.slabs.map fun e => (e.1, countSlab (d e.1) e.2)
    ctxs := s.ctxs.map fun e => (e.1, { e.2 with
      bps := shiftBreaks (d ((ctxGangs s e.1).headD 0)) e.2.bps
      boundary := e.2.boundary.map fun b => { b with
        gangs := b.gangs.map fun x => (x.1, countGang (d x.1) x.2), slabs := b.slabs.map fun x => (x.1, countSlab (d x.1) x.2) } }) }

/-! ### Resume from a quiet point (R368) -/

/-- A gang as a quiet point leaves it: what R368 keeps, load values for the rest. -/
def quietGang (g : Gang) : Gang :=
  { g with s := g.s.filter fun e => e.1 < 16, e := [], p := 0, main := [], hand := [], blk := .empty }

/-- b.opa and b.p (12_barrier R290). -/
def barPorts (t : Tab TV) : Tab TV := t.filter fun e => e.1 = 1704 || e.1 = 161

/-- A slab as a quiet point leaves it. -/
def quietSlab (sl : Slab) : Slab :=
  { Slab.fresh with
    ports := barPorts sl.ports, hports := barPorts sl.hports
    mx := { Mx.fresh with words := sl.mx.words, entries := sl.mx.entries }
    requests := sl.requests, reqCount := sl.reqCount, errlog := sl.errlog, errSeq := sl.errSeq, laneCount := sl.laneCount
    spares := sl.spares, swaps := sl.swaps, cellErr := sl.cellErr, busErr := sl.busErr, pins := sl.pins
    prog := sl.prog, names := sl.names, injW := sl.injW, injD := sl.injD, copySeq := sl.copySeq
    releases := sl.releases, relList := sl.relList, banks := sl.banks, skew := sl.skew, gang := sl.gang, holder := sl.holder }

/-- The scratchpad above the persistent area takes its load value (R368, R383, log 6). -/
def quietPad (s : State) (t : TileName) : State :=
  { s with mem := memClear s.mem (padKey t 0x10000) 0x3F0000 }

def quietTiles (s : State) (g : TileName) : State :=
  forTiles (modSlabs s g quietSlab) (gangTiles s g) quietPad

/-! ### The hard freeze (R376) -/

/-- Held in the replay queue when the context freezes: everything but the work of the device's own engines, which a stop
of the context does not reach. -/
def heldInstr : Instr → Bool
  | .operationLanding _ (.traceRow _) => false
  | .operationLanding _ .throttle => false
  | .operationLanding _ (.hop _ _ _ _ _ _ _) => false
  | .hostRingEntryWrite => false
  | .pageRequestArrival => false
  | .collContributionArrival => false
  | .taskStart => false
  | _ => true

/-- A beat at a router.  Where a beat of a stopped context stands is not saved, only its delivery (10_route R266). -/
def isHop : Instr → Bool
  | .operationLanding _ (.hop _ _ _ _ _ _ _) => true
  | _ => false

/-- The tile that a beat in the fabric goes to (10_route R266). -/
def beatTile : Operand → Option TileName
  | .arrivalDelivery d _ _ _ _ => some d
  | .releaseDelivery d _ _ _ => some d
  | .tokenDelivery d _ _ _ _ => some d
  | .softEventDelivery d _ _ => some d
  | .copyBeatDelivery b => some b.dst
  | .alignmentArrival d _ => some d
  | .routerStaticBeat t _ _ => some t
  | _ => none

/-- The context with which an event is held: a beat in the fabric with the context of its destination, while a gang drives
that tile (R266); every other with its own. -/
def holdCtx (s : State) (e : Ev) : Option Nat :=
  match (beatTile e.arg).bind (gangAt s ·) with
  | some g => some (gangOf s g).ctx
  | none => e.own.map (·.ctx)

def heldBy (s : State) (c : Nat) (e : Ev) : Bool := holdCtx s e = some c && heldInstr e.instr

/-- A beat of a context that runs on is met on the resume cycle itself, for only its destination is frozen (R266); every
other action keeps its remaining cycles (R376). -/
def holdEv (s : State) (c : Nat) (e : Ev) : Ev :=
  let on : Bool := match e.own with
    | some o => o.ctx != c && freezable (ctxOf s o.ctx).st && (ctxOf s o.ctx).edge != some s.now
    | none => false
  { e with at_ := if on then 0 else e.at_ - s.now }

/-- A step of the vault side of a fill: an array read, or the end of its transfer into the staging buffer. -/
def fillSide (s : State) (e : Ev) : Bool :=
  let fill (t : TileName) (n : Nat) : Bool := !(slotOf (slabOf s t) n).flush
  match e.instr with
  | .operationLanding _ (.fillRead _ _ _) => true
  | .operationLanding _ (.busTake t n) => fill t n
  | .operationLanding _ (.busSettle t n _) => fill t n
  | _ => false

/-- The array reads and the transfers of fills in flight are completed before the freeze takes hold (09_window R250). -/
def finishFills (s : State) (c : Nat) : State :=
  let (es, rest) := s.agenda.partition fun e => ofCtx c e && fillSide s e
  es.foldl (fun s e => match e.instr with
    | .operationLanding o (.fillRead t n p) => landFillRead s o t n p
    | .operationLanding _ (.busTake t n) => landBusTake s t n
    | .operationLanding o (.busSettle t n k) => landBusSettle s o t n k
    | _ => s) { s with agenda := rest }

/-- A gang stops where it stands; a gang stopped at a quiet point keeps that form (R375, R376). -/
def freezeGang (s : State) (g : TileName) : State :=
  modGang s g fun gg => if gg.seq = .stopped || gg.seq = .frozen then gg else { gg with saved := gg.seq, seq := .frozen }

/-- Freeze a context on the present edge: gangs stop, and what has not acted goes to the replay queue with its remaining
cycles.  A resume whose cycle g was not reached is undone, with the queue as it stood. -/
def freezeCtx (s : State) (c : Nat) : State :=
  let base (k : Ctx) : Ctx :=
    { k with st := .frozen, edge := none, quiesce := none, stepEdge := none, stopReq := false, waferStop := false }
  match (ctxOf s c).resumeAt with
  | some _ =>
    modCtx { s with agenda := s.agenda.filter fun e => !decide (e.arg = .contextResumeStart c) } c fun k =>
      { base k with resumeAt := none }
  | none =>
    let s := finishFills s c
    let (held, rest) := s.agenda.partition (heldBy s c)
    let q := held.map (holdEv s c)
    let rest := rest.filter fun e => !(ofCtx c e && isHop e.instr)
    let s := (ctxGangs s c).foldl freezeGang { s with agenda := rest, frames := s.frames.filter fun f => f.own.ctx != c }
    modCtx s c fun k => { base k with frozenAt := s.now, cycBase := s.now, replayQ := q }

/-- Drop every event, item and copy of a context (R339, 20_fault R454). -/
def dropCtxWork (s : State) (c : Nat) : State :=
  let s := { s with agenda := s.agenda.filter fun e => !ofCtx c e, frames := s.frames.filter fun f => f.own.ctx != c }
  let s := s.slabs.foldl (fun s e => modSlab s e.1 fun sl =>
    let gone := (sl.stage.filter fun x => x.2.own.ctx = c).map (·.1)
    let runs : Bool := match sl.mx.run with | some r => r.own.ctx = c | none => false
    { sl with
      injW := sl.injW.filter fun x => x.own.ctx != c
      injD := sl.injD.filter fun x => x.own.ctx != c
      copies := sl.copies.filter fun x => x.2.own.ctx != c
      pend := sl.pend.filter fun p => p.own.ctx != c
      stage := sl.stage.filter fun x => x.2.own.ctx != c
      slots := gone.foldl (fun t n => tabMod t n fun w => { w with pend := false }) sl.slots
      mx := if runs then { sl.mx with run := none, busy := false } else sl.mx }) s
  modCtx s c fun k => { k with replayQ := [] }

end Sys2Proof.Machine
end

