-- ==== Sys2Proof/Machine/Pages.lean ====
section
/-! DEFINITION. Pages (17_page R388 to R406): frames, requests and their answers, invalidation, migration, and the resume of a gang from a quiet point. -/

namespace Sys2Proof.Machine

/-! ### Frames (R388, R391) -/

/-- The run of frames that a valid table entry names: a leaf's page, 512 frames of one of 2 MiB, or a table. -/
def pteRun (w : Word) : TileName × Nat × Nat :=
  (pteHome w, pteFrame w, if pteLeaf w && pteSize w = 2 then 512 else 1)

/-- The frames that a context's tables use: the root's, those of tables with an entry, those that entries name. -/
def ctxRuns (k : Ctx) : List (TileName × Nat × Nat) :=
  (k.root.1, k.root.2, 1) :: k.ptes.map (fun e => (e.1 / 512 / 2 ^ 17, e.1 / 512 % 2 ^ 17, 1)) ++
    (k.ptes.filter fun e => pteV e.2).map fun e => pteRun e.2

/-- The frames of a home that some context uses. -/
def usedRuns (s : State) (home : TileName) : List (Nat × Nat) :=
  (s.ctxs.filter fun c => c.2.st != .free).flatMap fun c =>
    (ctxRuns c.2).filterMap fun r => if r.1 = home then some r.2 else none

/-- The lowest free run of n frames, aligned to n. -/
def freeRun (s : State) (home : TileName) (n : Nat) : Option Nat :=
  let used := usedRuns s home
  ((List.range (94208 / n)).find? fun j => used.all fun u => !rangesMeet (j * n) n u.1 u.2).map (· * n)

/-- The page that holds a VPN: first VPN and number of 4 KiB frames (R391). -/
def pageSpan (k : Ctx) (vpn : Nat) (l : Leaf) : Nat × Nat :=
  if l.level = 1 then (vpn / 512 * 512, 512)
  else if pteSize (tabGetD 0 k.ptes l.key) = 1 then (vpn / 16 * 16, 16)
  else (vpn, 1)

/-- Put a home and a frame into an entry, keeping the rest. -/
def ptePlace (w : Word) (home : TileName) (frame : Nat) : Word :=
  putBits (putBits w 20 16 (BitVec.ofNat 64 home)) 0 17 (BitVec.ofNat 64 frame)

/-- The entries of a page of n frames name new frames; a key is that of its entry, or of one of its 16 (R404 step 3). -/
def placePage (k : Ctx) (key n : Nat) (home : TileName) (frame : Nat) : Ctx :=
  if n = 16 then
    { k with ptes := (List.range 16).foldl (fun t i => tabMod t (key - key % 16 + i) fun w => ptePlace w home (frame + i)) k.ptes }
  else { k with ptes := tabMod k.ptes key fun w => ptePlace w home frame }

/-! ### Requests (R397 to R400) -/

/-- The request with a number in a slab's table. -/
def findReq (sl : Slab) (num : Nat) : Option (Nat × PageReq) := sl.requests.find? fun e => e.2.num = num

/-- A request leaves its table with the PAGE event of its answer (R398, R399). -/
def answerReq (s : State) (t : TileName) (i : Nat) (r : PageReq) (code : BitVec 16) : State :=
  let s := modSlab s t fun sl => { sl with requests := tabDel sl.requests i }
  postEventAt s t t (eventWord 1 (BitVec.ofNat 16 r.num) (code.setWidth 40))

def stale (s : State) : State := { s with staleAns := s.staleAns + 1 }

/-- The page is homed at a tile. -/
def homedAt (k : Ctx) (vpn : Nat) (t : TileName) : Bool :=
  match walk k vpn with | some l => l.home = t | none => false

/-- A slab's pinned translations of the pages from v0 on name what a walk finds there now (R399, R404 step 3). -/
def followPins (s : State) (c : Nat) (t : TileName) (v0 n : Nat) : State :=
  if holderOf s t != some c then s
  else modSlab s t fun sl =>
    { sl with pins := sl.pins.map fun e => (e.1, e.2.map fun p =>
        if v0 ≤ p.vpn && p.vpn < v0 + n then (match walk (ctxOf s c) p.vpn with
          | some l => { p with home := l.home, frame := l.frame }
          | none => p) else p) }

/-- A request is answered ANSWERED: its slab's pinned translations of the page name its frames first (R399). -/
def answerHomed (s : State) (c : Nat) (t : TileName) (i : Nat) (r : PageReq) : State :=
  let (v0, n) := match walk (ctxOf s c) r.vpn with
    | some l => pageSpan (ctxOf s c) r.vpn l
    | none => (r.vpn, 1)
  answerReq (followPins s c t v0 n) t i r 0

/-- PAGE_REQUEST_ARRIVAL (R398): the service controller answers a request whose page is already homed at its slab, and
posts the others to the host. -/
def execPageRequestArrival (s : State) : Host.Outcome State Fault Refusal :=
  match s.arg with
  | .pageRequestArrival c gen t num vpn =>
    if (ctxOf s c).gen != gen then .next s
    else
      match findReq (slabOf s t) num with
      | none => .next s
      | some (i, r) =>
        if r.st != .issued then .next s
        else if homedAt (ctxOf s c) vpn t then .next (answerHomed s c t i r)
        else
          let s := modSlab s t fun sl => { sl with requests := tabPut sl.requests i { r with st := .hostPending } }
          .next (tell s (.pageRequest (hostPort s) c gen num vpn t))
  | _ => .fault .noOperand

/-- The outstanding requests of a context, of tiles whose gang has ended too. -/
def requestsOf (s : State) (c : Nat) : List (TileName × Nat × PageReq) :=
  s.slabs.flatMap fun e => (e.2.requests.filter fun r => r.2.ctx = c).map fun r => (e.1, r.1, r.2)

/-- The request that an answer names: of the current generation, outstanding, a HOST-PENDING one first, then of the lowest tile
(R398, R400; log 63). -/
def namedReq (s : State) (c gen num : Nat) : Option (TileName × Nat × PageReq) :=
  if (ctxOf s c).gen != gen then none
  else
    let rs := (requestsOf s c).filter fun r => r.2.2.num = num
    (rs.find? fun r => r.2.2.st = .hostPending).or rs.head?

/-- The request that a migration to a slab answers: of the current generation, of that slab and for a page of those moved
(R399, R404 step 5; log 63). -/
def movedReq (s : State) (c gen num : Nat) (t : TileName) (v0 n : Nat) : Option (Nat × PageReq) :=
  if (ctxOf s c).gen != gen then none
  else (slabOf s t).requests.find? fun e => e.2.ctx = c && e.2.num = num && v0 ≤ e.2.vpn && e.2.vpn < v0 + n

/-- Requests not yet answered go to the host again (R386, R406). -/
def repostRequests (s : State) (c : Nat) : State :=
  (requestsOf s c).foldl (fun s r =>
    let s := modSlab s r.1 fun sl => { sl with requests := tabPut sl.requests r.2.1 { r.2.2 with st := .hostPending } }
    tell s (.pageRequest (hostPort s) c (ctxOf s c).gen r.2.2.num r.2.2.vpn r.1)) s

/-! ### Resume of a gang from a quiet point (05_sequencer R122, R123) -/

/-- A stopped gang resumes: its next bundle issues on the next cycle, the origin of a new segment, or its kept waits begin
(R129). -/
def resumeStopped (s : State) (g : TileName) : State :=
  let ws := (gangOf s g).waits
  let s := quietTiles (modGang s g fun gg => { quietGang gg with seq := .issuing, stopKinds := 0, waits := [] }) g
  if ws.isEmpty then postBundle (segmentNext s g) g (s.now + 1) else enterWaits s g ws

/-- The same on the present cycle. -/
def resumeStoppedNow (s : State) (g : TileName) : State :=
  { (resumeStopped { s with now := s.now - 1 } g) with now := s.now }

/-! ### Invalidation (R402, R403) -/

def Inval.holds (i : Inval) (v : Nat) : Bool := i.vpn ≤ v && v < i.vpn + i.count

/-- The slab that a migration leaves its pins: its translations are re-pointed (R404 step 3). -/
def Inval.skips (i : Inval) (t : TileName) : Bool := match i.migrate with | some (u, _, _) => t = u | none => false

/-- A slab's map unit releases the pins of the range and clears RES and DIRTY of the slots that hold its pages. -/
def invalClear (s : State) (c : Nat) (i : Inval) (t : TileName) : State :=
  if i.skips t then s
  else
    let s := (slabOf s t).pins.foldl (fun s e => if e.2.any fun p => i.holds p.vpn then releasePins s c t e.1 fun p => i.holds p.vpn else s) s
    let slots := (List.range 1008).map (· + 16) |>.filter fun n =>
      tagValid (tagWord s t n) && i.holds (tagVpn (tagWord s t n))
    slots.foldl (fun s n => cleanSlot s t n) s

/-- The pages of each region of a slab whose pins an invalidation releases. -/
def invalPages (s : State) (i : Inval) (t : TileName) : List (TileName × Nat × List Nat) :=
  if i.skips t then []
  else ((slabOf s t).pins.map fun e => (t, e.1, (e.2.map (·.vpn)).filter i.holds)).filter fun w => !w.2.2.isEmpty

/-- The map units then walk those pages again and pin the new leaves into the same regions; one that was FAULTED stays so, and one
that is UNMAPPED gives up its pins alone (06_region R163). -/
def invalWalk (s : State) (c : Nat) (ws : List (TileName × Nat × List Nat)) : State :=
  ws.foldl (fun s (t, r, vs) =>
    let state := rgnState s t r
    if state = 0 then s else
    let cause := ((rgnWord s t r 0).extractLsb' 40 8).toNat
    let (s', ok) := walkRegion s c t r (vs.filter fun v => (pinFor s t r v).isNone)
    if ok && state = 3 then rgnPutState s' t r 3 cause else s') s

/-- The slabs of a list act for an invalidation; before a migration they walk only after it (R404): the pages left to walk. -/
def invalAct (s : State) (c : Nat) (i : Inval) (ts : List TileName) : State × List (TileName × Nat × List Nat) :=
  let ws := ts.flatMap (invalPages s i)
  let s := forTiles s ts fun s t => invalClear s c i t
  if i.migrate.isSome then (s, ws) else (invalWalk s c ws, [])

/-- The slabs of a gang act for the invalidations of a list, which keep what is left to walk. -/
def invalActs (s : State) (c : Nat) (is : List Inval) (ts : List TileName) : State :=
  is.foldl (fun s i =>
    let (s, ws) := invalAct s c i ts
    modCtx s c fun k => { k with invals := k.invals.map fun j => if j = i then { j with walks := j.walks ++ ws } else j }) s

/-- The slabs that hold a context's state with no gang to drive them: they act at once (log 136). -/
def idleTiles (s : State) (c : Nat) : List TileName := (heldTiles s c).filter fun t => (gangAt s t).isNone

/-- The gangs of a context that hold a pin in the range on a slab that the invalidation reaches. -/
def invalGangs (s : State) (c : Nat) (i : Inval) : List TileName :=
  (ctxGangs s c).filter fun g => (gangTiles s g).any fun t =>
    !i.skips t && (slabOf s t).pins.any fun e => e.2.any fun p => i.holds p.vpn

/-! ### Migration (R404) -/

/-- Steps 2 to 5: the completion code, 2 when there is no page or no free frames. -/
def migratePage (s : State) (c vpn : Nat) (t : TileName) (req gen : Nat) : State × Nat :=
  match walk (ctxOf s c) vpn with
  | none => (s, 2)
  | some l =>
    let (v0, n) := pageSpan (ctxOf s c) vpn l
    let f0 := l.frame - (vpn - v0)
    let moved : Option State :=
      if l.home = t then some s
      else
        match freeRun s t n with
        | none => none
        | some f =>
          let old := vaultKey l.home f0 0
          let new := vaultKey t f 0
          let s := { s with vault := memFill (memClear s.vault new (n * 4096)) new (memSlice s.vault old (n * 4096)) }
          let s := modCtx s c fun k =>
            { placePage k l.key n t f with
              undo := k.undo.map fun e => if old ≤ e.1 && e.1 < old + n * 4096 then (e.1 - old + new, e.2) else e }
          some s
    match moved with
    | none => (s, 2)
    | some s =>
      let s := followPins s c t v0 n
      if req = 0xFFFF then (s, 0)
      else
        match movedReq s c gen req t v0 n with
        | some (i, r) => if r.st = .hostPending then (answerHomed s c t i r, 0) else (s, 0)
        | none => (stale s, 0)

/-- Resume every gang that waited for a migration, after the map units have walked again. -/
def resumeAcked (s : State) (i : Inval) : State :=
  i.acked.foldl (fun s g =>
    if (gangOf s g).seq = .stopped && (gangOf s g).stopKinds = 4 then postBeats (resumeStopped s g) g else s) s

/-- The host may now write the leaves of a range: those that hold pins are open to it (R401, R403, log 136). -/
def openRange (s : State) (c : Nat) (i : Inval) : State :=
  let keys := (heldTiles s c).flatMap fun t => (slabOf s t).pins.flatMap fun e => (e.2.filter fun p => i.holds p.vpn).map (·.key)
  modCtx s c fun k => { k with openLeaves := (k.openLeaves ++ keys).eraseDups }

/-- The last gang has acted: the command completes (R402, R404). -/
def invalDone (s : State) (c : Nat) (i : Inval) : State :=
  match i.migrate with
  | none => answer (openRange s c i) c 0 0
  | some (t, req, gen) =>
    let (s, code) := migratePage s c i.vpn t req gen
    resumeAcked (answer (invalWalk s c i.walks) c code 0) i

/-- The invalidations that wait for a gang. -/
def invalsOf (s : State) (c : Nat) (g : TileName) : List Inval :=
  (ctxOf s c).invals.filter fun i => i.gangs.contains g && !i.expired

/-- A gang has acted, or has ended, for every invalidation that waits for it. -/
def ackInvals (s : State) (c : Nat) (g : TileName) (stays : Bool) : State :=
  let is := (ctxOf s c).invals
  let is' := is.map fun i =>
    if i.gangs.contains g && !i.expired then
      { i with gangs := i.gangs.erase g, acked := if stays && i.migrate.isSome then i.acked ++ [g] else i.acked }
    else i
  let (done, left) := is'.partition fun i => i.gangs.isEmpty && !i.expired
  let s := modCtx s c fun k => { k with invals := left }
  done.foldl (fun s i => invalDone s c i) s

/-- The map units of a gang act at its INVAL quiet point; the gang resumes when nothing else holds it (R402). -/
def landInvalStop (s : State) (g : TileName) : State :=
  let gg := gangOf s g
  if gg.seq != .stopped then s
  else
    let c := gg.ctx
    let s := invalActs s c (invalsOf s c g) (gangTiles s g)
    let s := ackInvals s c g true
    let waits := (ctxOf s c).invals.any fun i => i.acked.contains g
    if !waits && (gangOf s g).seq = .stopped && (gangOf s g).stopKinds = 4 then postBeats (resumeStopped s g) g else s

/-- A slab holds a pin of the range. -/
def holdsPin (s : State) (i : Inval) (t : TileName) : Bool := (slabOf s t).pins.any fun e => e.2.any fun p => i.holds p.vpn

/-- Invalidations that timed out act before a resume on every slab that still holds a pin of the range, which pins the new
leaves; latched translations of fills and flushes are replaced (R403). -/
def expiredInvals (s : State) (c : Nat) : State :=
  let (old, left) := (ctxOf s c).invals.partition (·.expired)
  let s := modCtx s c fun k => { k with invals := left }
  old.foldl (fun s i =>
    let s := invalWalk s c i.walks
    (heldTiles s c).foldl (fun s t =>
      let i := { i with migrate := none }
      let s := if holdsPin s i t then
          (let s := (invalAct s c i [t]).1
           closeLeaves s c ((slabOf s t).pins.flatMap fun e => (e.2.filter fun p => i.holds p.vpn).map (·.key)))
        else s
      modSlab s t fun sl =>
        { sl with stage := sl.stage.map fun e =>
            if i.holds e.2.vpn then
              match walk (ctxOf s c) e.2.vpn with
              | some l => (e.1, { e.2 with home := l.home, frame := l.frame })
              | none => e
            else e }) s) s

/-! ### Commands (R366, R401) -/

/-- States in which page commands are accepted (R366). -/
def pageCmdState (st : CtxState) : Bool := st = .running || st = .quiescing || st = .quiesced || st = .frozen

/-- Start an invalidation, or complete it at once when no gang holds a pin. -/
def startInval (s : State) (c vpn n us : Nat) (m : Option (TileName × Nat × Nat)) : State :=
  let i : Inval := ⟨vpn, n, [], [], [], s.now + usCycles s us, m, false, false⟩
  let gs := invalGangs s c i
  let (s, ws) := invalAct s c i (idleTiles s c)
  let i := { i with gangs := gs, walks := ws }
  if i.gangs.isEmpty then invalDone s c i
  else
    let s := modCtx s c fun k => { k with invals := k.invals ++ [i] }
    postEv s i.deadline ordEnd c none .invalTimeout (.invalTimeout c)

/-- PG_INVAL. -/
def execPgInval (s : State) : Host.Outcome State Fault Refusal :=
  match s.arg with
  | .pgInval c vpn n us =>
    if pageCmdState (ctxOf s c).st then .next (startInval s c vpn n us none) else .next (answer s c 1 0)
  | _ => .fault .noOperand

/-- PG_MIGRATE. -/
def execPgMigrate (s : State) : Host.Outcome State Fault Refusal :=
  match s.arg with
  | .pgMigrate c vpn t req gen us =>
    if !pageCmdState (ctxOf s c).st then .next (answer s c 1 0)
    else
      match walk (ctxOf s c) vpn with
      | none => .next (answer s c 2 0)
      | some l =>
        if !namesTile t then .next (answer s c 2 0)
        else
          let (v0, n) := pageSpan (ctxOf s c) vpn l
          .next (startInval s c v0 n us (some (t, req, gen)))
  | _ => .fault .noOperand

/-- PG_ANSWER: code 0 is BADARG; a number that matches no outstanding request of the generation is STALE; one that is
still ISSUED stays so. -/
def execPgAnswer (s : State) : Host.Outcome State Fault Refusal :=
  match s.arg with
  | .pgAnswer c num gen code =>
    if !pageCmdState (ctxOf s c).st then .next (answer s c 1 0)
    else if code = 0 then .next (answer s c 2 0)
    else
      match namedReq s c gen num with
      | some (t, i, r) => .next (answer (if r.st = .hostPending then answerReq s t i r code else s) c 0 0)
      | none => .next (answer (stale s) c 0 0)
  | _ => .fault .noOperand

/-- INVAL_TIMEOUT (R403): the context is hard-frozen with fault class 20 and the command completes with TIMEOUT, at the freeze
edge of one that runs. -/
def execInvalTimeout (s : State) : Host.Outcome State Fault Refusal :=
  match s.arg with
  | .invalTimeout c =>
    let late (i : Inval) : Bool := i.deadline ≤ s.now && !i.expired
    .next (((ctxOf s c).invals.filter late).foldl (fun s i =>
      let runs : Bool := freezable (ctxOf s c).st
      let s := modCtx s c fun k =>
        { k with invals := k.invals.map fun j => if j = i then { j with expired := true, told := !runs } else j }
      if runs then raiseAux s (gangOwner s (i.gangs.headD 0)) 20 0 (BitVec.ofNat 64 (4096 * i.vpn)) 0
      else answer (openRange s c i) c 3 0) s)
  | _ => .fault .noOperand

/-- Some leaf at or below the entry at a level holds pins (R396). -/
def pinnedBelow (k : Ctx) : Nat → Word → Bool
  | 0, e => pteLeaf e && 0 < ptePcnt e
  | level + 1, e =>
    if pteLeaf e then 0 < ptePcnt e
    else pteV e && (k.ptes.filter fun x => x.1 / 512 = tableId (pteHome e) (pteFrame e)).any fun x => pinnedBelow k level x.2

/-- The host may write an entry: nothing pinned stands at or below it, or it is a pinned leaf that an invalidation has opened
(R396, R401). -/
def mayWrite (k : Ctx) (level key : Nat) : Bool :=
  let old := tabGetD 0 k.ptes key
  !pinnedBelow k level old || (pteLeaf old && k.openLeaves.contains key)

/-- The pins that a leaf counts name what a walk finds there now (R399, R402, log 136). -/
def followLeaf (s : State) (c key : Nat) : State :=
  (heldTiles s c).foldl (fun s t => modSlab s t fun sl =>
    { sl with pins := sl.pins.map fun e => (e.1, e.2.map fun p =>
        if p.key = key then (match walk (ctxOf s c) p.vpn with
          | some l => { p with home := l.home, frame := l.frame, w := l.w }
          | none => p) else p) }) s

/-- HOST_LEAF_WRITE (R390, R396): PCNT is the device's; an entry at or above a pinned leaf is not written, but for an open
leaf once, whose pins follow it; nor one whose table no entry above names. -/
def execHostLeafWrite (s : State) : Host.Outcome State Fault Refusal :=
  match s.arg with
  | .hostLeafWrite c level va entry =>
    let vpn := va / 4096
    let k := ctxOf s c
    match pteKey k level vpn with
    | none => .next (tell s (.report 396 va))
    | some key =>
      let old := tabGetD 0 k.ptes key
      if !mayWrite k level key then .next (tell s (.report 396 va))
      else
        let s := modCtx s c fun k => { k with ptes := tabPut k.ptes key (putBits entry 47 12 (old.extractLsb' 47 12 |>.setWidth 64)) }
        .next (followLeaf (closeLeaves s c [key]) c key)
  | _ => .fault .noOperand

end Sys2Proof.Machine
end

