-- ==== Sys2Proof/Machine/Tasks.lean ====
section
/-! DEFINITION. The life of a task on its tiles: placement, start actions, draining, completion (14_kernel R334 to R339, 11_group R277, 15_queue R341, R348), and the graphs and table instances that a completion moves on. -/

namespace Sys2Proof.Machine

/-! ### What stands on a tile -/

/-- The tasks on a tile, with the gang that drives it and that gang's state (R334). -/
def onTile (s : State) (t : TileName) : List (Nat × Task × TileName × Nat) :=
  (s.tasks.filter fun e => e.2.st != .ended).flatMap fun e =>
    (e.2.gangs.filter fun g => g.2.1 != 3 && (gangTilesOf g.1 e.2.width).contains t).map fun g => (e.1, e.2, g.1, g.2.1)

/-- Another task is on a tile. -/
def otherOnTile (s : State) (id : Nat) (t : TileName) : Bool := (onTile s t).any fun e => e.1 != id

/-! ### Graphs and instances that a task moves on (15_queue R350 to R353) -/

def graphVa (g : GraphRun) (node : Nat) : Nat := g.header + 32 + 32 * node

def graphNode (s : State) (g : GraphRun) : Option (BitVec 256) :=
  (gvaNat s g.ctx (graphVa g g.node) 32).map (BitVec.ofNat 256)

def nodeKind (w : BitVec 256) : Nat := (w.extractLsb' 0 8).toNat
def nodeNext (w : BitVec 256) : Nat := (w.extractLsb' 32 32).toNat
def nodeAddr (w : BitVec 256) : Nat := (w.extractLsb' 64 64).toNat
def nodeSucc (w : BitVec 256) (i : Nat) : Nat := (w.extractLsb' (128 + 32 * i) 32).toNat
def nodeTarget (w : BitVec 256) : Nat := (w.extractLsb' 64 32).toNat
def nodeLimit (w : BitVec 256) : Nat := (w.extractLsb' 96 32).toNat
def nodeRing (w : BitVec 256) : Nat := (w.extractLsb' 64 8).toNat
def nodePayload (w : BitVec 256) : Word := w.extractLsb' 128 64

def findGraph (s : State) (id : Nat) : Option GraphRun := s.graphs.find? fun g => g.id = id

def putGraph (s : State) (g : GraphRun) : State :=
  { s with graphs := s.graphs.map fun h => if h.id = g.id then g else h }

/-- A time-table entry's instance has ended. -/
def instanceEnded (s : State) (e : Option Nat) : State :=
  match e with
  | some i => { s with timeTable := tabMod s.timeTable i fun r => { r with active := false } }
  | none => s

/-- A graph leaves the dispatcher. -/
def dropGraph (s : State) (g : GraphRun) : State :=
  instanceEnded { s with graphs := s.graphs.filter (·.id != g.id), cands := s.cands.filter fun c => !(2 ≤ c.source && c.idx = g.id) }
    g.ttEntry

/-- The End node: the launching record's completion entry (R351). -/
def finishGraph (s : State) (g : GraphRun) : State :=
  completionEntry (dropGraph s g) ⟨g.ctx, g.queue, g.launchRecord, g.seqno, g.tag, g.lastCode, g.anyNonzero, g.notify⟩

/-- A graph ends with an error entry and no completion (R352, R363). -/
def failGraph (s : State) (g : GraphRun) (code : Nat) (tag : BitVec 32) : State :=
  errorEntry (dropGraph s g) g.ctx g.queue g.launchRecord code tag

/-- A graph that stands at its End node ends, unless a task it overlapped is still to complete (R353). -/
def settleGraph (s : State) (id : Nat) : State :=
  match findGraph s id with
  | none => s
  | some g =>
    match graphNode s g with
    | some w => if nodeKind w = 5 && g.task.isNone && !g.waiting then finishGraph s g else s
    | none => s

/-- A kernel node's task has completed. -/
def graphTaskDone (s : State) (gid task : Nat) (code : BitVec 8) (flag : Bool) : State :=
  match findGraph s gid with
  | none => s
  | some g =>
    let last : Bool := g.task = some task
    let g' : GraphRun :=
      { g with
        anyNonzero := g.anyNonzero || flag
        lastCode := if last then code else g.lastCode
        task := if last then none else g.task
        node := if last && g.waiting then g.after_ else g.node
        waiting := g.waiting && !last }
    settleGraph (putGraph s g') gid

/-! ### Completion (R334, 15_queue R348) -/

/-- Every gang of a task is ENDED: a quiet point of every kind (16_context R369). -/
def completeTask (s : State) (id : Nat) (t : Task) : State :=
  let code := match t.gangs.find? fun g => g.1 = t.origin with | some g => g.2.2 | none => 0
  let flag := t.gangs.any fun g => g.2.2 != 0
  let s := modCtx (modTask s id fun t => { t with st := .ended }) t.ctx fun k => { k with replayEnd := k.replayReq }
  match t.graph with
  | some g => graphTaskDone s g id code flag
  | none =>
    completionEntry (instanceEnded s t.ttEntry) ⟨t.ctx, t.queue, t.record, t.seqno, t.tag, code, flag, t.notify⟩

/-- A gang leaves its front end: a collective it has begun goes on (R337). -/
def orphanColl (s : State) (c : Nat) (g : TileName) : State :=
  match (gangOf s g).coll with
  | some x => if (gangOf s g).collDone.isNone then modCtx s c fun k => { k with orphans := k.orphans ++ [(g, x)] } else s
  | none => s

/-- A gang of a task is ENDED: its banks are FREE, its slabs act for the invalidations that wait for it, and its front end is
idle unless a successor runs on it. -/
def endGang (s : State) (g : TileName) (id : Nat) : State :=
  match tabGet s.tasks id with
  | none => s
  | some t =>
    let ts := gangTilesOf g t.width
    let s := forTiles s ts fun s u => modSlab s u fun sl => { sl with banks := sl.banks.filter fun e => e.2 != id }
    let gs := t.gangs.map fun e => if e.1 = g then (e.1, 3, e.2.2) else e
    let s := modTask s id fun t => { t with gangs := gs }
    let s :=
      if (gangOf s g).task = id then
        let s := orphanColl s t.ctx g
        let is := invalsOf s t.ctx g
        let s := forTiles { dropBeat s g with gangs := tabDel s.gangs g } ts fun s u => modSlab s u fun sl => { sl with gang := none }
        ackInvals (invalActs s t.ctx is ts) t.ctx g false
      else s
    if gs.all fun e => e.2.1 = 3 then completeTask s id { t with gangs := gs } else s

/-- HALT_DRAIN_COMPLETE (R334, 05_sequencer R133): the cycle after the last landing; operations that started later in the
drain are waited for. -/
def execHaltDrainComplete (s : State) : Host.Outcome State Fault Refusal :=
  match s.arg with
  | .haltDrainComplete g id =>
    match unitOps s g id with
    | [] =>
      if queuedAtom s g id then .next (postEv s (s.now + 1) (ordWait - 1) g s.own .haltDrainComplete s.arg)
      else .next (endGang s g id)
    | e :: es => .next (postEv s (es.foldl (fun m e => max m e.at_) e.at_ + 1) (ordWait - 1) g s.own .haltDrainComplete s.arg)
  | _ => .fault .noOperand

/-! ### Start (R335, R336) -/

/-- The load values of a slab's state (07_vector R176, 08_accumulator R203, R230, 09_window R250, 10_route R254, 12_barrier
R290): what the tile's hardware has met stays, and so do its banks. -/
def loadSlab (holder : Nat × Nat) (sl : Slab) : Slab :=
  { Slab.fresh with
    errlog := sl.errlog, errSeq := sl.errSeq, laneCount := sl.laneCount, spares := sl.spares, swaps := sl.swaps
    cellErr := sl.cellErr, busErr := sl.busErr, banks := sl.banks, skew := sl.skew, gang := sl.gang, holder := some holder }

/-- A context is loaded on a tile with its first task there: the state of the context that held the tile is given up with
its pins, and every register, port, engine and byte takes its load value (DESIGN CHOICE for the scratchpad, log 140). -/
def loadTile (s : State) (c : Nat) (t : TileName) : State :=
  let h := (c, (ctxOf s c).gen)
  if (slabOf s t).holder = some h then s
  else
    let s := match holderOf s t with | some old => dropPins s old t | none => s
    let s := modSlab s t (loadSlab h)
    { s with mem := memClear s.mem (padKey t 0) 0x400000 }

/-- The registers, ports and names of a slab at a task's start; the rest is kept. -/
def startSlab (g : TileName) (names : List Nat) (sl : Slab) : Slab :=
  { sl with
    ports := [], hports := [], vports := [], v := [], k := [], shape := [], shadow := []
    mx := { sl.mx with mp := [] }
    names := names.zipIdx.map fun (n, i) => (i, BitVec.ofNat 16 n)
    gang := some g }

/-- The task holds every bank that no other task on the tile holds (06_region R165). -/
def startBanks (id : Nat) (b : Tab Nat) : Tab Nat :=
  (List.range 31).foldl (fun t i => if (tabGet t (i + 1)).isSome then t else tabPut t (i + 1) id) b

/-- The bytes of a block that lie in bank 0. -/
def bankZeroPart (b : Nat × List Byte) : Nat × List Byte := (b.1, b.2.take (0x20000 - b.1))

def routeBytes (r : Nat × List Word) : Nat × List Byte := (0xC000 + 0x800 * r.1, r.2.flatMap fun w => codeBytes 8 w.toNat)

/-- A declared region that is UNMAPPED takes its KIND and SYNC (06_region R160). -/
def bindRegion (s : State) (t : TileName) (r : Nat × Nat × Nat) : State :=
  if rgnState s t r.1 = 0 then padPutWord s t (rgnAddr r.1 2) (BitVec.ofNat 64 (r.2.1 * 2 ^ 62 + r.2.2 % 2 ^ 49)) else s

/-- The start actions on one tile; the context's routine store is written where no other task of it runs (R330). -/
def startTile (s : State) (id : Nat) (g t : TileName) (o : Object) (k : Kernel) : State :=
  let alone := !otherOnTile s id t
  let t0 := (tileCyc s t).toNat
  let c := match tabGet s.tasks id with | some x => x.ctx | none => 0
  let cx := ctxOf s c
  let s := modSlab (loadTile s c t) t fun sl =>
    let sl := startSlab g k.names { sl with banks := startBanks id sl.banks }
    let sl := if alone then { sl with mx := { sl.mx with words := cx.words, entries := cx.entries } } else sl
    match o.routes.find? fun r => r.1 = 0 with
    | some r => if alone then { sl with prog := ⟨r.2.length, t0, r.2.zipIdx.map fun (w, i) => (i, w), false⟩, pend := none } else sl
    | none => sl
  let s := (o.consts.map bankZeroPart ++ o.routes.map routeBytes).foldl (fun s b =>
    { s with mem := memWriteBytes s.mem (padKey t b.1) b.2 }) s
  k.regions.foldl (fun s r => bindRegion s t r) s

/-- Items that a tile still has to send go on under the program that now runs there (10_route R256). -/
def rekindTiles (s : State) (id : Nat) (g : TileName) (ts : List TileName) (o : Object) : State :=
  if o.routes.any fun r => r.1 = 0 then
    forTiles s ts fun s u => if otherOnTile s id u then s else wakeSends (rekind s u) (gangOwner s g) u
  else s

/-- A gang of a task begins on the present cycle; its predecessor's collective goes on (R337). -/
def startGang (s : State) (id : Nat) (t : Task) (o : Object) (k : Kernel) (g : TileName) : State :=
  let s := forTiles (orphanColl s t.ctx g) (gangTilesOf g t.width) fun s u => startTile s id g u o k
  let gg : Gang :=
    { Gang.fresh t.ctx id t.width with
      seq := .issuing, pc := t.entry, dmem := t.dmem, mbx := t.mbx.zipIdx.map fun (w, i) => (i, w),
      tctl := { Tctl.reset with event := t.event } }
  let s := rekindTiles (beginSegment { s with gangs := tabPut s.gangs g gg } g) id g (gangTilesOf g t.width) o
  let s := match t.ttEntry with
    | some e =>
      if t.event && t.graph.isNone then
        postEvent s g 0x10000 (openEvent 5 (BitVec.ofNat 16 e))
      else s
    | none => s
  postBundle (postBeats s g) g s.now

/-- Every gang of a task issues its first bundle on the present cycle T (R336). -/
def startTask (s : State) (id : Nat) (t : Task) : State :=
  match tabGet (ctxOf s t.ctx).objects t.object with
  | none => s
  | some o =>
    match o.kernels[t.kernel]? with
    | none => s
    | some k =>
      let s := modTask s id fun t => { t with st := .running, gangs := t.gangs.map fun e => (e.1, 1, e.2.2) }
      t.gangs.foldl (fun s e => startGang s id t o k e.1) s

/-- No other task is ISSUING on a front end of the rectangle, and the context runs (R336, 16_context R370). -/
def startable (s : State) (id : Nat) (t : Task) : Bool :=
  let k := ctxOf s t.ctx
  k.st = .running && k.resumeAt.isNone &&
    s.tasks.all fun e => e.1 = id || e.2.gangs.all fun x => x.2.1 != 1 || t.gangs.all fun y => y.1 != x.1

/-- TASK_START (R336): looked at on each cycle from the end of the start actions. -/
def execTaskStart (s : State) : Host.Outcome State Fault Refusal :=
  match s.arg with
  | .taskStart id =>
    match tabGet s.tasks id with
    | none => .next s
    | some t =>
      if t.st != .placed then .next s
      else if startable s id t then .next (startTask s id t)
      else .next (postEv s (s.now + 1) ordWait id s.own .taskStart s.arg)
  | _ => .fault .noOperand

/-! ### Placement (15_queue R341, R346) -/

/-- Where a task comes from: queue, record index, graph, time-table entry with its instance number, re-arm count. -/
structure Launch where
  queue  : Nat
  record : Nat
  graph  : Option Nat
  tt     : Option (Nat × Nat)
  rearm  : Nat
deriving DecidableEq, Repr

/-- Place a record's kernel at an origin: a task in PLACED, whose start actions take an open time (00_scope R485). -/
def placeTask (s : State) (c : Nat) (r : BitVec 512) (k : Kernel) (o : TileName) (l : Launch) : State :=
  let id := s.nextTask
  let base := match tabGet (ctxOf s c).objects (recObject r) with | some o => o.codeBase | none => 0
  let inst := match l.tt with | some x => x.2 | none => 0
  let t : Task :=
    { ctx := c, st := .placed, object := recObject r, kernel := recKernel r, origin := o,
      gangs := (rectGangs k o).map fun g => (g, 0, 0), width := k.gang, dmem := dmemWord k o (recPhase r),
      event := k.event, entry := base + k.entry,
      mbx := (List.range 5).map (recMbx r) ++ [BitVec.ofNat 64 l.record, BitVec.ofNat 64 inst, BitVec.ofNat 64 l.rearm],
      queue := l.queue, record := l.record, seqno := recSeq r, tag := recTag r, notify := recNotify r, graph := l.graph,
      ttEntry := l.tt.map (·.1), undo := k.undo, fes := provisionalFes s ((rectGangs k o).map fun g => (g, k.gang)) }
  let s := { s with nextTask := id + 1, tasks := tabPut s.tasks id t }
  let (d, s) := freeDelay s
  postEv s (s.now + 1 + d) ordWait id (some ⟨c, id, o, false, 0, 0xFF, 0, s.now⟩) .taskStart (.taskStart id)

end Sys2Proof.Machine
end

