-- ==== Sys2Proof/Machine/Dispatcher.lean ====
section
/-! DEFINITION. The dispatcher (15_queue R342 to R354): candidates, the decision, reservations, command graphs, the time-triggered table. -/

namespace Sys2Proof.Machine

/-! ### Checking a record (R342, R352) -/

/-- The successors of a node, none for a reserved KIND or an unaligned address. -/
def nodeSuccs (w : BitVec 256) : Option (List Nat) :=
  match nodeKind w with
  | 1 => if nodeAddr w % 64 = 0 then some [nodeNext w] else none
  | 2 => if nodeAddr w % 4 = 0 then some ((List.range 4).map (nodeSucc w)) else none
  | 3 => some [nodeTarget w, nodeNext w]
  | 4 => some [nodeNext w]
  | 5 => some []
  | _ => none

/-- Every node that can be reached from a list of nodes is valid. -/
def reachOk (s : State) (c hdr n : Nat) : Nat → List Nat → List Nat → Bool
  | 0, todo, _ => todo.isEmpty
  | f + 1, todo, seen =>
    match todo with
    | [] => true
    | i :: rest =>
      if seen.contains i then reachOk s c hdr n f rest seen
      else if n ≤ i then false
      else
        match (gvaNat s c (hdr + 32 + 32 * i) 32).map (BitVec.ofNat 256) with
        | none => false
        | some w =>
          match nodeSuccs w with
          | none => false
          | some xs => reachOk s c hdr n f (xs ++ rest) (i :: seen)

/-- A valid graph header: its queue and start node. -/
def graphHeader (s : State) (c hdr : Nat) : Option (Nat × Nat) :=
  if hdr % 32 != 0 then none
  else
    match (gvaNat s c hdr 32).map (BitVec.ofNat 256) with
    | none => none
    | some h =>
      let n := (h.extractLsb' 0 32).toNat
      if n = 0 || 4096 < n then none
      else if reachOk s c hdr n (5 * n + 1) [(h.extractLsb' 64 32).toNat] [] then
        some ((h.extractLsb' 32 16).toNat, (h.extractLsb' 64 32).toNat)
      else none

/-- The checks of R342 in order: the record, or the code and the TAG if the record can be read.  A kernel node's own
record may not start a graph. -/
def checkRecord (s : State) (c va : Nat) (node : Bool) : Except (Nat × Option (BitVec 32)) (BitVec 512) :=
  match gvaNat s c va 64 with
  | none => .error (6, none)
  | some n =>
    let r := BitVec.ofNat 512 n
    if crc32 ((lineBytes r).take 60) != recCrc r then .error (1, some (recTag r))
    else if recReserved r then .error (2, some (recTag r))
    else if recGraph r then
      (if node || (graphHeader s c (recMbx r 0).toNat).isNone then .error (5, some (recTag r)) else .ok r)
    else
      match recordKernel s c r with
      | none => .error (3, some (recTag r))
      | some k => if (origins k r).isEmpty then .error (4, some (recTag r)) else .ok r

/-- An error entry, with a free TAG for a record that cannot be read (log 17). -/
def retire (s : State) (c q idx : Nat) (e : Nat × Option (BitVec 32)) : State :=
  match e.2 with
  | some t => errorEntry s c q idx e.1 t
  | none =>
    errorEntry s c q idx e.1 ((openBits (BitVec.ofNat 64 idx)).setWidth 32)

/-! ### Candidates (R345, R346) -/

def queuePrio (s : State) (c q : Nat) : Nat := match queueDesc s c q with | some d => qPrio d | none => 0

/-- The decision cycle at or after now. -/
def nextDecision (y : Nat) : Nat := (y + 63) / 64 * 64

def findCand (s : State) (c source idx q : Nat) : Option Cand :=
  s.cands.find? fun x => x.ctx = c && x.source = source && x.idx = idx && x.queue = q

/-- The head of a queue as a candidate; heads that fail a check are retired and the next is looked at (R342). -/
def queueHead (c q : Nat) : Nat → State → State × Option Cand
  | 0, s => (s, none)
  | f + 1, s =>
    match queueDesc s c q with
    | none => (s, none)
    | some d =>
      if !qEn d || qHead d = qTail d then (s, none)
      else
        match findCand s c 0 (qHead d) q with
        | some x => (s, some { x with prio := qPrio d })
        | none =>
          match checkRecord s c (recordVa d (qHead d)) false with
          | .ok r => (s, some ⟨c, q, qPrio d, 0, qHead d, r, s.now, 0, none⟩)
          | .error e => queueHead c q f (advanceHead (retire s c q (qHead d) e) c q)

/-- Records that a queue holds. -/
def queued (s : State) (c q : Nat) : Nat :=
  match queueDesc s c q with | some d => (qTail d + 2 ^ 32 - qHead d) % 2 ^ 32 | none => 0

/-- The dispatcher works for a context (16_context R367). -/
def dispatchable (s : State) (c : Nat) : Bool := (ctxOf s c).st = .running && (ctxOf s c).resumeAt.isNone

/-- A graph's next node is not placed while a replay request waits for its boundary (16_context R369). -/
def candHeld (s : State) (x : Cand) : Bool := !dispatchable s x.ctx || (2 ≤ x.source && (ctxOf s x.ctx).replayReq)

/-- The queue of a candidate is enabled. -/
def queueEnabled (s : State) (x : Cand) : Bool :=
  match queueDesc s x.ctx x.queue with | some d => qEn d | none => false

/-- The heads of every enabled queue of the contexts that run; table and graph candidates, and those of stopped contexts,
stay. -/
def gatherCands (s : State) : State :=
  let cs := (s.ctxs.map (·.1)).filter (dispatchable s)
  let kept := s.cands.filter fun x => x.source != 0 || !dispatchable s x.ctx
  let (s, heads) := cs.foldl (fun acc c =>
    (List.range 1024).foldl (fun (s, hs) q =>
      let (s, h) := queueHead c q (queued s c q) s
      (s, hs ++ h.toList)) acc) (s, [])
  { s with cands := heads ++ kept.map fun x =>
      { x with prio := queuePrio s x.ctx x.queue, rect := if queueEnabled s x then x.rect else none } }

/-! ### Fitting (R345, R347, 14_kernel R337) -/

/-- Name sets agree at every index that both declare. -/
def namesAgree (a b : List Nat) : Bool := (a.zip b).all fun x => x.1 = x.2

def taskKernel (s : State) (t : Task) : Option Kernel :=
  match tabGet (ctxOf s t.ctx).objects t.object with | some o => o.kernels[t.kernel]? | none => none

/-- A tile is free of tasks, or holds only a valid predecessor of an OVERLAP record. -/
def tileFits (s : State) (c : Nat) (k : Kernel) (overlap : Bool) (g t : TileName) : Bool :=
  match onTile s t with
  | [] => true
  | [(_, p, pg, st)] =>
    overlap && p.ctx = c && p.width = k.gang && pg = g && (st = 1 || st = 2) &&
      (match taskKernel s p with | some pk => namesAgree pk.names k.names | none => false)
  | _ => false

def inRect (r : Nat × Nat × Nat × Nat) (t : TileName) : Bool :=
  r.1 ≤ tileCol t && tileCol t < r.1 + r.2.2.1 && r.2.1 ≤ tileRow t && tileRow t < r.2.1 + r.2.2.2

def sameCand (x y : Cand) : Bool := x.ctx = y.ctx && x.source = y.source && x.idx = y.idx && x.queue = y.queue

/-- A tile is reserved against a candidate: by another of equal or higher priority. -/
def reservedFrom (s : State) (x : Cand) (t : TileName) : Bool :=
  s.cands.any fun y => !sameCand x y && x.prio ≤ y.prio && (match y.rect with | some r => inRect r t | none => false)

def rectTiles (k : Kernel) (o : TileName) : List (TileName × TileName) :=
  (rectGangs k o).flatMap fun g => (gangTilesOf g k.gang).map fun t => (g, t)

/-- In reduced service the tiles lie inside one island (19_tile R432). -/
def oneIsland (s : State) (ts : List TileName) : Bool :=
  s.phase != .merging || s.islands.any fun i => ts.all fun t => i.contains (reticleOf t)

/-- In reduced service every gang has usable slabs and a front end of its island to itself (19_tile R432). -/
def reducedFit (s : State) (k : Kernel) (o : TileName) : Bool :=
  s.phase != .merging || (assignFes s ((rectGangs k o).map fun g => (g, k.gang))).isSome

/-- The origin at which a candidate fits. -/
def fitOrigin (s : State) (x : Cand) : Option TileName :=
  if recGraph x.record || x.source = 3 then some 0
  else
    match recordKernel s x.ctx x.record with
    | none => none
    | some k => (origins k x.record).find? fun o =>
        oneIsland s ((rectTiles k o).map (·.2)) && reducedFit s k o && (rectTiles k o).all fun e =>
          !reservedFrom s x e.2 && tileFits s x.ctx k (recOverlap x.record) e.1 e.2

/-- The better of two fitting candidates: priority, then age, then queue number (R346). -/
def candBetter (a b : Cand) : Bool :=
  b.prio < a.prio || (a.prio = b.prio && (a.age < b.age || (a.age = b.age && a.queue < b.queue)))

def bestCand (fs : List (Cand × TileName)) : Option (Cand × TileName) :=
  fs.foldl (fun b x => match b with
    | none => some x
    | some y => if candBetter x.1 y.1 then some x else some y) none

/-! ### Command graphs (R351 to R353) -/

/-- Start a graph for a launch record of a queue; a graph that no longer passes its check when the record is taken is
BADGRAPH. -/
def startGraph (s : State) (c queue : Nat) (r : BitVec 512) (record : Nat) (tt : Option Nat) : State :=
  match graphHeader s c (recMbx r 0).toNat with
  | none => errorEntry (instanceEnded s tt) c queue record 5 (recTag r)
  | some (q, start) =>
    let id := s.nextTask
    let g : GraphRun :=
      { id, ctx := c, header := (recMbx r 0).toNat, queue := q, node := start, counts := [], lastCount := 0, task := none,
        waiting := false, after_ := 0, lastCode := 0, anyNonzero := false, launchRecord := record, ttEntry := tt,
        seqno := recSeq r, tag := recTag r, notify := recNotify r }
    settleGraph { s with nextTask := id + 1, graphs := s.graphs ++ [g] } id

/-- A kernel node's task has been placed: the graph goes on with OVERLAP, or waits. -/
def graphPlaced (s : State) (gid task : Nat) (overlap : Bool) : State :=
  match findGraph s gid with
  | none => s
  | some g =>
    let next := match graphNode s g with | some w => nodeNext w | none => g.node
    putGraph s (if overlap then { g with task := some task, node := next }
      else { g with task := some task, waiting := true, after_ := next })

/-- The candidate of a graph's node: a kernel node's record, or with source 3 a control node, which takes a decision too
(DEDUCED, log 77). -/
def nodeCand (s : State) (g : GraphRun) (source : Nat) (r : BitVec 512) : State :=
  { s with cands := s.cands ++ [⟨g.ctx, g.queue, queuePrio s g.ctx g.queue, source, g.id, r, s.now, 0, none⟩] }

/-- The node at which a graph stands becomes a candidate when it is ready; while the service controller is to take a replay
request, no next node is placed (16_context R369).  A node, condition word or record in an unmapped page is BADGRAPH (R363,
log 141). -/
def stepGraph (s : State) (id : Nat) : State :=
  match findGraph s id with
  | none => s
  | some g =>
    if g.waiting || !dispatchable s g.ctx || (ctxOf s g.ctx).replayReq || s.cands.any fun x => 2 ≤ x.source && x.idx = id then s
    else
      match graphNode s g with
      | none => failGraph s g 5 g.tag
      | some w =>
        match nodeKind w with
        | 1 =>
          (match checkRecord s g.ctx (nodeAddr w) true with
           | .ok r => nodeCand s g 2 r
           | .error (_, none) => failGraph s g 5 g.tag
           | .error e => retire (dropGraph s g) g.ctx g.queue g.launchRecord e)
        | 2 => if g.task.isSome then s else nodeCand s g 3 0
        | 3 => nodeCand s g 3 0
        | 4 => nodeCand s g 3 0
        | 5 => settleGraph s id
        | _ => failGraph s g 5 g.tag

/-- A conditional, re-arm or host-notify node acts on the decision that takes it (R351, R352). -/
def takeNode (s : State) (id : Nat) : State :=
  match findGraph s id with
  | none => s
  | some g =>
      match graphNode s g with
      | none => failGraph s g 5 g.tag
      | some w =>
        match nodeKind w with
        | 2 =>
          (match gvaNat s g.ctx (nodeAddr w) 4 with
           | none => failGraph s g 5 g.tag
           | some v => settleGraph (putGraph s { g with node := nodeSucc w (min v 3) }) id)
        | 3 =>
          let n := tabGetD 0 g.counts g.node
          let up := n < nodeLimit w
          let n' := if up then n + 1 else 0
          settleGraph (putGraph s
            { g with counts := tabPut g.counts g.node n', lastCount := n', node := if up then nodeTarget w else nodeNext w }) id
        | 4 =>
          let s := ringWrite s g.ctx (nodeRing w) (nodePayload w) 0xFFFF 1
          settleGraph (putGraph s { g with node := nodeNext w }) id
        | _ => s

/-! ### The decision (R345 to R347) -/

/-- A candidate is placed, or a control node taken: its source moves on. -/
def placeCand (s : State) (x : Cand) (o : TileName) : State :=
  let s := { s with cands := s.cands.filter fun y => !sameCand x y }
  if x.source = 3 then takeNode s x.idx else
  let s := if x.source = 0 then advanceHead s x.ctx x.queue else s
  let row := if x.source = 1 then tabGet s.timeTable x.idx else none
  let s := match row with
    | some _ => { s with timeTable := tabMod s.timeTable x.idx fun r => { r with inst := r.inst + 1 } }
    | none => s
  let record := if x.source = 0 then x.idx else 0
  if recGraph x.record then startGraph s x.ctx x.queue x.record record (row.map fun _ => x.idx)
  else
    match recordKernel s x.ctx x.record with
    | none => s
    | some k =>
      match (if x.source = 2 then findGraph s x.idx else none) with
      | some g =>
        let id := s.nextTask
        graphPlaced (placeTask s x.ctx x.record k o ⟨g.queue, g.launchRecord, some g.id, none, g.lastCount⟩) g.id id
          (recOverlap x.record)
      | none => placeTask s x.ctx x.record k o ⟨x.queue, record, none, row.map fun r => (x.idx, r.inst), 0⟩

/-- A candidate's reservation: its rectangle at the origin it names, or with ANY = 1 at the first origin free of other
reservations (R347). -/
def reserve (s : State) (x : Cand) : Option (Nat × Nat × Nat × Nat) :=
  match recordKernel s x.ctx x.record with
  | none => none
  | some k =>
    let free (t : TileName) : Bool := s.cands.all fun y => sameCand x y || (match y.rect with | some r => !inRect r t | none => true)
    ((origins k x.record).find? fun o => !recAny x.record || (rectTiles k o).all fun e => free e.2).map fun o =>
      (tileCol o, tileRow o, rectCols k, rectRows k)

/-- Candidates passed over 64 times take reservations, at most 16 at once. -/
def takeReservations (s : State) : State :=
  s.cands.foldl (fun s x =>
    if 64 ≤ x.passes && x.rect.isNone && queueEnabled s x && (s.cands.filter fun y => y.rect.isSome).length < 16 then
      { s with cands := s.cands.map fun y => if sameCand x y then { y with rect := reserve s x } else y }
    else s) s

/-- One decision: the best fitting candidate is placed, and the others that did not fit are passed over; a control node of a
graph places no record, and passes nothing over (R347). -/
def decide64 (s : State) : State :=
  let s := (s.graphs.map (·.id)).foldl stepGraph s
  let s := gatherCands s
  let rows := (s.cands.filter fun x => !candHeld s x).map fun x => (x, fitOrigin s x)
  let fits := rows.filterMap fun e => e.2.map fun o => (e.1, o)
  let s := match bestCand fits with
    | none => s
    | some (x, o) =>
      let late := if x.source = 3 then [] else (rows.filter fun e => e.2.isNone).map (·.1)
      let cs := s.cands.map fun y => if late.any (sameCand y) then { y with passes := min 64 (y.passes + 1) } else y
      placeCand { s with cands := cs } x o
  takeReservations s

/-- DISPATCH_DECISION (R345): on each cycle that is a multiple of 64. -/
def execDispatchDecision (s : State) : Host.Outcome State Fault Refusal :=
  let s := if s.phase = .service || s.phase = .merging then decide64 s else s
  .next (postEv s (s.now + 64) ordInput 0 none .dispatchDecision .none)

/-! ### The time-triggered table (R349, R350) -/

/-- A firing becomes a candidate, once its record passes its checks. -/
def fireEntry (s : State) (i : Nat) (r : TtRow) : State :=
  match checkRecord s r.ctx r.e.record false with
  | .error e => retire s r.ctx r.e.queue 0 e
  | .ok r512 =>
    let x : Cand := ⟨r.ctx, r.e.queue, queuePrio s r.ctx r.e.queue, 1, i, r512, nextDecision s.now, 0, none⟩
    { s with cands := s.cands ++ [x], timeTable := tabMod s.timeTable i fun r => { r with active := true } }

/-- An overrun: the firing is dropped, or held when the policy is DEFER and none is held. -/
def overrun (s : State) (i : Nat) (r : TtRow) : State :=
  { s with timeTable := tabMod s.timeTable i fun x =>
      if r.e.skip || r.held then { x with skips := x.skips + 1 } else { x with held := true } }

/-- An entry at the start of a slot: a held firing whose previous instance has completed, then the slot's own firing. -/
def slotEntry (slot : Nat) (s : State) (i : Nat) : State :=
  match tabGet s.timeTable i with
  | none => s
  | some r =>
    let st := (ctxOf s r.ctx).st
    let runs := st = .running || st = .quiescing
    let s :=
      if r.e.valid && r.held && !r.active && runs then
        fireEntry { s with timeTable := tabMod s.timeTable i fun x => { x with held := false } } i r
      else s
    match tabGet s.timeTable i with
    | none => s
    | some r =>
      if !r.e.valid || ((slot : Int) - r.e.offset) % r.e.period != 0 then s
      else if st = .quiesced || st = .frozen then overrun s i r
      else if !runs then s
      else if r.active then overrun s i r
      else fireEntry s i r

/-- The nanoseconds of the disciplined clock on a cycle: from its last setting, at the frequency it holds since, over the
edges that have come, withheld ones too (R349, 18_link R426, 19_tile R439; log 14). -/
def clockAt (s : State) (y : Nat) : Nat := s.moduleTime + (y - s.timeAt + (s.withheld - s.timeHeld)) * s.timeRate / 2 ^ 30

/-- The nanoseconds of a slot. -/
def slotNanos (s : State) : Nat := 1000 * s.ttGran

/-- The first cycle after the present one on which the clock has reached n nanoseconds. -/
def clockReaches (s : State) (n : Nat) : Nat :=
  max (s.now + 1) (s.timeAt + ((n - s.moduleTime) * 2 ^ 30 + s.timeRate - 1) / s.timeRate - (s.withheld - s.timeHeld))

/-- The next slot begins when the disciplined time reaches its start (R349). -/
def postSlot (s : State) : State :=
  let s := { s with agenda := s.agenda.filter fun e => e.instr != .timeTableFiring }
  postEv s (clockReaches s (s.nextSlot * slotNanos s)) ordInput 0 none .timeTableFiring (.timeTableFiring s.nextSlot)

/-- The slots go on from a clock or a granularity that has been set: the slot that time has reached begins at once if it has
not begun, a slot that has begun does not begin again for a step back of less than a slot (log 14). -/
def setSlots (s : State) : State :=
  let cur := clockAt s s.now / slotNanos s
  let next := if s.nextSlot ≤ cur then cur else if s.nextSlot ≤ cur + 2 then s.nextSlot else cur + 1
  let s := { s with nextSlot := next }
  if s.agenda.any fun e => e.instr = .timeTableFiring then postSlot s else s

/-- The nanoseconds that 2^30 edges of the schedule clock take by the module's clock: within 1 part in 10^7 of the nominal
figure at the clock's present rate (log 14). -/
def edgeNanos (s : State) (k : Nat) : Nat := 2 ^ 30 * 1000 / usCycles s 1 - 89 + Config.clockRate k % 179

/-- The clock takes a time, and a frequency that it holds until the next: its source's, where that is known, else its own
(log 14). -/
def setClockRate (s : State) (nanos : Nat) (rate : Option Nat) : State :=
  setSlots { s with moduleTime := nanos, timeAt := s.now, timeHeld := s.withheld,
                    timeRate := rate.getD (edgeNanos s s.freeCount), freeCount := s.freeCount + 1 }

def setClock (s : State) (nanos : Nat) : State := setClockRate s nanos none

/-- TIME_TABLE_FIRING (R350): the start of a slot. -/
def execTimeTableFiring (s : State) : Host.Outcome State Fault Refusal :=
  match s.arg with
  | .timeTableFiring slot =>
    .next (postSlot { (s.timeTable.map (·.1)).foldl (slotEntry slot) s with nextSlot := slot + 1 })
  | _ => .fault .noOperand

/-- TT_SET (R349): the host writes an entry, and the table's granularity with it or not (log 14); an entry keeps INST and SKIPS,
which only the dispatcher writes; another context's valid entry is refused (log 87). -/
def execTtSet (s : State) : Host.Outcome State Fault Refusal :=
  match s.arg with
  | .ttSet c i e =>
    let st := (ctxOf s c).st
    let old := tabGet s.timeTable i
    if st = .free || st = .dead then .next (answer s c 1 0)
    else if 256 ≤ i || 1024 ≤ e.queue || e.record % 64 != 0 || e.period = 0 || 2 ^ 32 ≤ e.period || 2 ^ 32 ≤ e.offset ||
        (match e.gran with | some n => n = 0 || 65535 < n | none => false) ||
        (match old with | some r => r.e.valid && r.ctx != c | none => false) then .next (answer s c 2 0)
    else
      let row : TtRow := match old with
        | some r => if r.ctx = c then { r with e := e } else ⟨c, e, 0, 0, false, false⟩
        | none => ⟨c, e, 0, 0, false, false⟩
      let s := match e.gran with
        | some n => setSlots { s with ttGran := n, nextSlot := clockAt s s.now / (1000 * n) + 1 }
        | none => s
      .next (answer { s with timeTable := tabPut s.timeTable i row } c 0 0)
  | _ => .fault .noOperand

end Sys2Proof.Machine
end

