-- ==== Sys2Proof/Machine/Image.lean ====
section
/-! DEFINITION. What a replay boundary and a state image keep of a context, and its return (16_context R380 to R387, 17_page R406, 20_fault R454, R455). -/

namespace Sys2Proof.Machine

/-! ### Saving -/

/-- The gangs of a context; a stopped one in its quiet form (16_context R368), none with its counters (21_marker R465). -/
def saveGangs (s : State) (c : Nat) : Tab Gang :=
  (s.gangs.filter fun e => e.2.ctx = c && e.2.seq != .idle).map fun e =>
    (e.1, { (if e.2.seq = .stopped then quietGang e.2 else e.2) with counters := [] })

/-- The form a tile that holds the context's state is saved in: the tile of a stopped gang quiet, of another gang, or of none,
whole (DESIGN CHOICE for a tile whose gang has ended, log 143). -/
def tileForm (s : State) (c : Nat) (t : TileName) : Option Bool :=
  if holderOf s t != some c then none
  else match gangAt s t with | some g => some ((gangOf s g).seq = .stopped) | none => some false

/-- The slabs and scratchpads of a context (R383). -/
def imageSlabs (s : State) (c : Nat) : Tab Slab :=
  s.slabs.filterMap fun e => (tileForm s c e.1).map fun q => (e.1, if q then quietSlab e.2 else e.2)

def imageMem (s : State) (c : Nat) : List Host.Cell :=
  s.mem.filter fun x =>
    match tileForm s c (x.1 / 0x400000) with
    | some q => !q || x.1 % 0x400000 < 0x10000
    | none => false

/-- No other context's state stands on a tile. -/
def notForeign (s : State) (c : Nat) (t : TileName) : Bool :=
  match holderOf s t with | some d => d = c | none => true

/-- The bytes of a queue's descriptor and lists. -/
def queueBytes (s : State) (c q : Nat) : List (Nat × List Byte) :=
  match queueDesc s c q with
  | none => []
  | some d =>
    [(queueVa s c q, 64), (qErrBase d, 4096), (qCplBase d, 4096)].filterMap fun x =>
      (gvaBytes s c x.1 x.2).map fun bs => (x.1, bs)

/-- What stands of a context besides its tiles: tasks, rings, collectives, graphs, table entries, candidates, queues. -/
def saveContext (s : State) (c : Nat) (gangs : Tab Gang) (slabs : Tab Slab) (mem : List Host.Cell) : Boundary :=
  let k := ctxOf s c
  { cut := s.now, gangs, slabs, mem,
    tasks := s.tasks.filter fun e => e.2.ctx = c && e.2.st != .ended,
    rings := k.rings, colls := k.colls, orphans := k.orphans, comms := k.comms, collCount := k.collCount,
    graphs := s.graphs.filter (·.ctx = c), tt := s.timeTable.filter (·.2.ctx = c),
    cands := (s.cands.filter fun x => x.ctx = c && x.source != 0).map fun x => { x with passes := 0, rect := none },
    queues := (List.range 1024).flatMap (queueBytes s c) }

/-- A replay boundary: quiet forms, and the persistent area of every tile that holds the context's state. -/
def takeBoundary (s : State) (c : Nat) : Boundary :=
  let mine (t : TileName) : Bool := holderOf s t = some c
  saveContext s c (saveGangs s c) ((s.slabs.filter fun e => mine e.1).map fun e => (e.1, quietSlab e.2))
    (s.mem.filter fun x => mine (x.1 / 0x400000) && x.1 % 0x400000 < 0x10000)

/-! ### Returning a slab -/

/-- A saved slab on the tile that is there: clocks, lanes, error log and hardware errors are the tile's own. -/
def returnSlab (saved now : Slab) : Slab :=
  { saved with
    skew := now.skew, errlog := now.errlog, errSeq := now.errSeq, laneCount := now.laneCount
    spares := now.spares, swaps := now.swaps, cellErr := now.cellErr, busErr := now.busErr }

/-- Pinned translations of a returned slab name the frames that a walk finds now, and PCNT counts them (17_page R406). -/
def repin (s : State) (c : Nat) (t : TileName) (pins : Tab (List Pin)) : State :=
  let s := modSlab s t fun sl => { sl with pins := [] }
  pins.foldl (fun s e =>
    let (s, ps) := e.2.foldl (fun (s, ps) p =>
      match walk (ctxOf s c) p.vpn with
      | some l => (modCtx s c fun k => addPcnt k l.key true, ps ++ [({ p with key := l.key, home := l.home, frame := l.frame, w := l.w } : Pin)])
      | none => (s, ps)) (s, ([] : List Pin))
    modSlab s t fun sl => { sl with pins := tabPut sl.pins e.1 ps }) s

/-- A tile takes a saved slab; the pins that the context it has held holds there are given up (17_page R395). -/
def returnTile (s : State) (c : Nat) (t : TileName) (saved : Slab) : State :=
  let s := match holderOf s t with | some h => dropPins s h t | none => s
  let s := modSlab s t fun now => returnSlab saved now
  repin s c t saved.pins

/-! ### Rollback (20_fault R454) -/

/-- Every logged line returns to its old bytes, newest first. -/
def unwindUndo (s : State) (c : Nat) : State :=
  let s := (ctxOf s c).undo.foldl (fun s e => { s with vault := memPutLine s.vault e.1 e.2 }) s
  modCtx s c fun k => { k with undo := [] }

/-- The tiles that the gangs of a boundary drive. -/
def boundaryTiles (b : Boundary) : List TileName := b.gangs.flatMap fun e => gangTilesOf e.1 e.2.width

/-- A task of another context stands on a tile that the boundary's gangs need. -/
def boundaryTaken (s : State) (c : Nat) (b : Boundary) : Bool :=
  (boundaryTiles b).any fun t => (onTile s t).any fun x => x.2.1.ctx != c

/-- The tiles that hold a context's state, those of its boundary's gangs, and those it held at its boundary, less those of the
last that hold another's now. -/
def sinceTiles (s : State) (c : Nat) (b : Boundary) : List TileName :=
  (heldTiles s c ++ boundaryTiles b ++ (b.slabs.map (·.1)).filter (notForeign s c)).eraseDups

/-- The counters of a gang, which no rollback restores: those it has at its freeze, if it still runs the task (21_marker
R465). -/
def keepCounters (s : State) (g : TileName) (old : Gang) : Gang :=
  { old with counters := match tabGet s.gangs g with
      | some x =>
        if x.ctx = old.ctx && x.task = old.task then
          countersAt x (if x.seq = .frozen then x.saved else x.seq) (ctxOf s x.ctx).frozenAt
        else []
      | none => [] }

/-- The context returns to its boundary; nothing of it is in flight any more.  A CYCLE breakpoint keeps its place in the run
(21_marker R466). -/
def returnBoundary (s : State) (c : Nat) (b : Boundary) : State :=
  let s := dropCtxWork (unwindUndo s c) c
  let ts := sinceTiles s c b
  let s := ts.foldl (fun s t =>
    let s := returnTile s c t (tabGetD Slab.fresh b.slabs t)
    { s with mem := memFill (memClear s.mem (padKey t 0) 0x10000) (padKey t 0) (memSlice b.mem (padKey t 0) 0x10000) }) s
  let s := ts.foldl (fun s t => modSlab s t fun sl =>
    { sl with gang := (b.gangs.find? fun g => (gangTilesOf g.1 g.2.width).contains t).map (·.1) }) s
  let s := { s with
    gangs := b.gangs.foldl (fun t e => tabPut t e.1 (keepCounters s e.1 e.2)) (s.gangs.filter fun e => e.2.ctx != c)
    tasks := s.tasks.filter fun e => e.2.ctx != c
    graphs := (s.graphs.filter fun g => g.ctx != c) ++ b.graphs
    timeTable := b.tt.foldl (fun t e => tabPut t e.1 e.2) (s.timeTable.filter fun e => e.2.ctx != c)
    cands := (s.cands.filter fun x => x.ctx != c) ++ b.cands }
  let s := b.tasks.foldl (fun s e => putTask s e.1 e.2) s
  let s := b.queues.foldl (fun s q => gvaWrite s c q.1 q.2) s
  let s := modCtx s c fun k =>
    { k with
      colls := b.colls, orphans := b.orphans, comms := b.comms, collCount := b.collCount, cycBase := b.cut
      bps := shiftBreaks (0 - k.runShift) k.bps, runShift := 0
      rings := k.rings.map fun e => match tabGet b.rings e.1 with
        | some h => (e.1, { e.2 with tail := h.tail, drops := h.drops, pending := h.pending, epoch := e.2.epoch + 1 })
        | none => e }
  ringTimers s c

/-! ### State images (16_context R380 to R384) -/

/-- The leaves under a table of a level whose first page is v: their first page and entry (17_page R389, R391). -/
def leavesUnder (k : Ctx) : Nat → Nat → Nat → List (Nat × Word)
  | level, table, v =>
    (k.ptes.filter fun e => e.1 / 512 = table).flatMap fun e =>
      let v' := v + e.1 % 512 * 2 ^ (9 * level)
      if !pteOk e.2 then []
      else if pteLeaf e.2 then
        (match level with
         | 0 => if (smallLeaf k e.1 e.2).isSome then [(v', e.2)] else []
         | 1 => if (bigLeaf e.1 v' e.2).isSome then [(v', e.2)] else []
         | _ => [])
      else match level with
        | 0 => []
        | n + 1 => leavesUnder k n (tableId (pteHome e.2) (pteFrame e.2)) v'

/-- The valid leaves of a context. -/
def ctxLeaves (k : Ctx) : List (Nat × Word) := leavesUnder k 3 (tableId k.root.1 k.root.2) 0

/-- The 4 KiB pages of a context: VPN, home, frame. -/
def ctxPages (k : Ctx) : List (Nat × TileName × Nat) :=
  (ctxLeaves k).flatMap fun e =>
    (List.range (if pteSize e.2 = 2 then 512 else 1)).map fun i => (e.1 + i, pteHome e.2, pteFrame e.2 + i)

/-- The lines of a tile's vault, by frame and line, in which some word has more than one wrong cell (09_window R231). -/
def badLines (sl : Slab) : List (Nat × Nat) :=
  (sl.cellErr.map fun e => (e.1, e.2.1)).eraseDups.filter fun l =>
    (List.range 8).any fun w => 1 < (wrongCells sl l.1 l.2 w).length

/-- The lines of a context's pages that their vaults cannot read: page and line (20_fault R458). -/
def unreadable (s : State) (c : Nat) : List (Nat × Nat) :=
  (ctxPages (ctxOf s c)).flatMap fun p =>
    ((badLines (slabOf s p.2.1)).filter fun l => l.1 = p.2.2).map fun l => (p.1, l.2)

def pageCells (s : State) (p : Nat × TileName × Nat) : Nat × TileName × List Host.Cell :=
  (p.1, p.2.1, memSlice s.vault (vaultKey p.2.1 p.2.2 0) 4096)

/-- The image of a context whose tiles are saved as b; its STATE is that of the context, QUIESCED or else FROZEN (R382). -/
def imageOf (s : State) (c transport : Nat) (signed : Bool) (b : Boundary) : Image :=
  let k := ctxOf s c
  { magic := 0x4D495853, layout := 1, reserved0 := true, inBounds := true, digestOk := true, signed, sigOk := true,
    cols := 96, rows := 66, feature := Config.featureVersion, transport, nkeys := k.nkeys, cycBase := k.cycBase, quiet := k.st = .quiesced,
    ctx := { k with ptes := [], openLeaves := [] }, tiles := b
    leaves := (ctxLeaves k).map fun e => (4096 * e.1, putBits e.2 0 17 0), pages := (ctxPages k).map (pageCells s), last := 8 }

/-- The state image of a context. -/
def makeImage (s : State) (c transport : Nat) (signed : Bool) : Image :=
  let s := inCounts s c
  imageOf s c transport signed (saveContext s c (saveGangs s c) (imageSlabs s c) (imageMem s c))

/-- The gangs, slabs and scratchpads of a context in the frozen form, those of stopped gangs too (20_fault R457). -/
def frozenContext (s : State) (c : Nat) : Boundary :=
  let gangs := (s.gangs.filter fun e => e.2.ctx = c && e.2.seq != .idle).map fun e =>
    (e.1, if e.2.seq = .stopped then { e.2 with seq := .frozen, saved := .stopped, counters := [] } else { e.2 with counters := [] })
  let mine (t : TileName) : Bool := holderOf s t = some c
  saveContext s c gangs (s.slabs.filter fun e => mine e.1) (s.mem.filter fun x => mine (x.1 / 0x400000))

/-- The dump transport key given at CREATE, among the keys that wrap: it stands in no transport slot (20_fault R457). -/
def dumpSlot (k : Ctx) : Nat := 2 ^ 64 + (k.ops.dumpKey.getD 0).toNat

/-- The pages of a dump: a line that cannot be read is zeros; at the third nested fault the dump ends with what it has written
(20_fault R457, R458). -/
def dumpPages (pages : List (Nat × TileName × List Host.Cell)) (bad : List (Nat × Nat)) (limit : Nat) :
    List (Nat × TileName × List Host.Cell) :=
  let kept : List (Nat × TileName × List Host.Cell) := match bad[limit]? with
    | some last => pages.takeWhile fun p => p.1 != last.1
    | none => pages
  kept.map fun p => (p.1, p.2.1, p.2.2.filter fun b => !bad.contains (p.1, b.1 / 64))

/-- Bytes read from an address of a context, those of a line that cannot be read being zeros (20_fault R458). -/
def dumpBytesAt (bad : List (Nat × Nat)) (va : Nat) (bs : List Byte) : List Byte :=
  bs.zipIdx.map fun (b, i) => if bad.contains ((va + i) / 4096, (va + i) % 4096 / 64) then 0 else b

/-- The image of a dump whose context has met n nested faults before it, and meets those of the lines that cannot be read; a dump
that ends early holds no section after the pages, and none at all where it had ended before it began (20_fault R458). -/
def dumpImage (s : State) (c : Nat) (bad : List (Nat × Nat)) : Image :=
  let k := ctxOf s c
  let s := inCounts s c
  let x := imageOf s c (dumpSlot k) true (frozenContext s c)
  let n := (k.faults.filter (·.nested)).length
  let last := if k.trunc then 0 else if 2 - n < bad.length then 5 else 8
  { x with
    quiet := false, pages := if k.trunc then [] else dumpPages x.pages bad (2 - n), last, inBounds := last = 8
    tiles := { x.tiles with queues := x.tiles.queues.map fun q => (q.1, dumpBytesAt bad q.1 q.2) } }

/-! ### Numbers of a restored context -/

/-- A context's own numbers in a restored context: its number, and its tasks and graphs counted on from off. -/
def moveOwner (c off : Nat) (o : Owner) : Owner := { o with ctx := c, task := o.task + off }

def moveItem (c gen : Nat) (x : Item) : Item :=
  { x with
    kind := match x.kind with
      | .ring _ r p => .ring c r p
      | .coll _ m r i => .coll c m r i
      | .pageReq _ _ n v => .pageReq c gen n v
      | k => k }

def moveSlab (c off gen : Nat) (sl : Slab) : Slab :=
  let sl := ownSlab (moveOwner c off) sl
  { sl with
    injW := sl.injW.map (moveItem c gen)
    injD := sl.injD.map (moveItem c gen)
    requests := sl.requests.map fun e => (e.1, { e.2 with ctx := c })
    reqCount := 0
    banks := sl.banks.map fun e => (e.1, e.2 + off)
    holder := some (c, gen) }

def moveEv (c off : Nat) (e : Ev) : Ev :=
  let e := ownEv (moveOwner c off) e
  { e with arg := match e.arg with | .haltDrainComplete g t => .haltDrainComplete g (t + off) | a => a }

def moveTask (c off : Nat) (t : Task) : Task := { t with ctx := c, graph := t.graph.map (· + off) }

def moveGraph (c off : Nat) (g : GraphRun) : GraphRun := { g with id := g.id + off, ctx := c, task := g.task.map (· + off) }

/-! ### Restore (R385) -/

/-- The root table of a context that is created or restored: where the service controller puts it (log 135), in a frame that
is free. -/
def newRoot (s : State) : TileName × Nat :=
  let (h, f) := Config.rootTable s.freeCount
  let used := usedRuns s h
  if namesTile h && f ≤ 94207 && used.all (fun u => !rangesMeet f 1 u.1 u.2) then (h, f) else (0, (freeRun s 0 1).getD 0)

/-- The tables that a walk for a page passes from n levels below the root on: missing ones take free frames of the root's
vault (17_page R406, log 135). -/
def growTables (s : State) (c vpn level : Nat) : Nat → Option State
  | 0 => some s
  | n + 1 =>
    match growTables s c vpn level n with
    | none => none
    | some s =>
      let k := ctxOf s c
      if 3 - n ≤ level || (tableAt k vpn (n + 1)).isSome then some s
      else
        match freeRun s k.root.1 1, pteKey k (3 - n) vpn with
        | some f, some key =>
          some (modCtx s c fun k => { k with ptes := tabPut k.ptes key (ptePlace (BitVec.twoPow 64 63) k.root.1 f) })
        | _, _ => none

/-- A leaf of a restored context takes a free run of its home's vault, with PCNT 0; the entries of a 64 KiB page follow the
first (17_page R406). -/
def placeLeaf (c : Nat) (acc : Option State) (e : Nat × Word) : Option State :=
  let vpn := e.1 / 4096
  let level := if pteSize e.2 = 2 then 1 else 0
  let part := pteSize e.2 = 1 && vpn % 16 != 0
  match acc.bind fun s => growTables s c vpn level 4 with
  | none => none
  | some s =>
    match pteKey (ctxOf s c) level vpn with
    | none => none
    | some key =>
      let head := tabGetD 0 (ctxOf s c).ptes (key - key % 16)
      let f := if part then some (pteFrame head + vpn % 16)
        else freeRun s (pteHome e.2) (if pteSize e.2 = 2 then 512 else if pteSize e.2 = 1 then 16 else 1)
      f.map fun f => modCtx s c fun k =>
        { k with ptes := tabPut k.ptes key (ptePlace (putBits e.2 47 12 0) (pteHome e.2) f) }

/-- A vault operation held in an image names the frame that its page has now (09_window R250). -/
def renewFrame (k : Ctx) (vpn frame : Nat) : Nat := match walk k vpn with | some l => l.frame | none => frame

def renewArg (k : Ctx) : Operand → Operand
  | .watomApply w => .watomApply { w with frame := renewFrame k (w.gva / 4096) w.frame }
  | .remoteWatomApply w => .remoteWatomApply { w with frame := renewFrame k (w.gva / 4096) w.frame }
  | o => o

def renewSlab (k : Ctx) (sl : Slab) : Slab :=
  let item (x : Item) : Item :=
    { x with kind := match x.kind with
        | .watom w => .watom { w with frame := renewFrame k (w.gva / 4096) w.frame }
        | y => y }
  { sl with
    stage := sl.stage.map fun e => (e.1, { e.2 with frame := renewFrame k e.2.vpn e.2.frame })
    injW := sl.injW.map item, injD := sl.injD.map item }

/-- The checks of R385 that need no space. -/
def imageCode (s : State) (x : Image) (transport : Nat) : Nat :=
  let used := s.ctxs.foldl (fun n e => if e.2.st = .free then n else n + e.2.nkeys) 0
  if x.magic != 0x4D495853 || x.layout != 1 || !x.reserved0 || !x.inBounds then 2
  else if !x.digestOk then 3
  else if (x.signed || Config.sigRequired) && !(x.signed && x.sigOk) then 4
  else if x.cols != 96 || x.rows != 66 then 5
  else if Config.featureVersion < x.feature then 6
  else if !Config.unwraps transport x.transport || Config.keySlots < used + x.nkeys then 7
  else 0

/-- Put the saved tiles, tasks and queues of an image in place; counters of a gang are statistics and start again. -/
def placeImage (s : State) (c : Nat) (x : Image) : State :=
  let off := s.nextTask
  let gen := (ctxOf s c).gen
  let b := x.tiles
  let s := b.slabs.foldl (fun s e =>
    let q := b.gangs.any fun g => g.2.seq = .stopped && (gangTilesOf g.1 g.2.width).contains e.1
    let n := if q then 0x10000 else 0x400000
    let s := returnTile s c e.1 (renewSlab (ctxOf s c) (moveSlab c off gen e.2))
    { s with mem := memFill (memClear s.mem (padKey e.1 0) 0x400000) (padKey e.1 0) (memSlice b.mem (padKey e.1 0) n) }) s
  let s := { s with
    nextTask := b.graphs.foldl (fun m g => max m (g.id + off + 1)) (b.tasks.foldl (fun m e => max m (e.1 + off + 1)) (off + 1))
    gangs := b.gangs.foldl (fun t e => tabPut t e.1 { e.2 with ctx := c, task := e.2.task + off, counters := [] }) s.gangs
    graphs := s.graphs ++ b.graphs.map (moveGraph c off)
    timeTable := b.tt.foldl (fun t e => tabPut t e.1 { e.2 with ctx := c }) s.timeTable
    cands := s.cands ++ b.cands.map fun y => { y with ctx := c, idx := if 2 ≤ y.source then y.idx + off else y.idx } }
  ringTimers (b.tasks.foldl (fun s e => putTask s (e.1 + off) (moveTask c off e.2)) s) c

/-- There is room for an image besides its frames: its tiles hold no task and no other context's state, the contexts' undo
shares fit the undo area, and no other context's valid entry stands at an index of the time table (R385 step 7, log 144). -/
def imageFits (s : State) (c : Nat) (x : Image) : Bool :=
  let share := s.ctxs.foldl (fun n e => if e.2.st = .free then n else n + e.2.ops.undoShare.getD 0) (x.ctx.ops.undoShare.getD 0)
  share ≤ 65536 && (x.tiles.slabs.all fun e => (onTile s e.1).isEmpty && (holderOf s e.1).isNone) &&
    x.tiles.tt.all fun e => match tabGet s.timeTable e.1 with | some r => r.ctx = c || !r.e.valid | none => true

/-- Everything of a restored context: new frames, its tiles and numbers, an empty undo log, no boundary; QUIESCED when every gang
record has the quiet form (R367), of which the record that stands for an ended gang is none (log 143). -/
def restoreImage (s : State) (c : Nat) (x : Image) : Option State :=
  let k := x.ctx
  let new : Ctx :=
    { Ctx.free with
      st := if x.tiles.gangs.all fun e => e.2.seq = .stopped then .quiesced else .frozen, gen := ((ctxOf s c).gen + 1) % 2 ^ 32, ops := k.ops, nkeys := k.nkeys
      root := newRoot s, image := k.image, words := k.words, entries := k.entries, wordsUsed := k.wordsUsed, objects := k.objects
      rings := k.rings, comms := k.comms, collCount := k.collCount, colls := k.colls, orphans := k.orphans
      frozenAt := k.frozenAt, cycBase := x.cycBase, replayQ := k.replayQ.map (moveEv c s.nextTask) }
  match x.leaves.foldl (placeLeaf c) (some { modCtx s c (fun _ => new) with freeCount := s.freeCount + 1 }) with
  | none => none
  | some t =>
    if !imageFits s c x then none
    else
      let t := x.pages.foldl (fun s p =>
        match walk (ctxOf s c) p.1 with
        | some l => { s with vault := memFill (memClear s.vault (vaultKey l.home l.frame 0) 4096) (vaultKey l.home l.frame 0) p.2.2 }
        | none => s) t
      let t := modCtx t c fun k => { k with replayQ := k.replayQ.map fun e => { e with arg := renewArg k e.arg } }
      let t := placeImage t c x
      some (countCtx t c (BitVec.ofNat 64 (ctxAhead t c)))

/-- RESTORE (R385). -/
def execRestore (s : State) : Host.Outcome State Fault Refusal :=
  match s.arg with
  | .restore c i transport =>
    if (ctxOf s c).st != .free || 256 ≤ c then .next (answer s c (if 256 ≤ c then 2 else 1) 0)
    else
      match s.images[i]? with
      | none => .next (answer s c 2 0)
      | some x =>
        let code := imageCode s x transport
        if code != 0 then .next (answer s c code 0)
        else match restoreImage s c x with
          | none => .next (answer s c 8 0)
          | some s => .next (answer s c 0 0)
  | _ => .fault .noOperand

/-- EXPORT (R365): the image is added to those in host memory; the state is unchanged. -/
def execExportImage (s : State) : Host.Outcome State Fault Refusal :=
  match s.arg with
  | .exportImage c transport =>
    let st := (ctxOf s c).st
    if !(st = .quiesced || st = .frozen) then .next (answer s c 1 0)
    else .next (answer { s with images := s.images ++ [makeImage s c transport false] } c 0 s.images.length)
  | _ => .fault .noOperand

end Sys2Proof.Machine
end

