-- ==== Sys2Proof/Machine/Replay.lean ====
section
/-! DEFINITION. The service controller's part in stops: resume cycles, the freeze edge and what follows it, uncorrectable errors, replay boundaries and rollback, dumps, the end of a context's tasks (16_context R369 to R376, R386, 20_fault R447 to R459, 14_kernel R339). -/

namespace Sys2Proof.Machine

/-! ### Resume cycles (16_context R386) -/

/-- The first cycle at or after y that agrees with a base modulo 256. -/
def inPhase (base y : Nat) : Nat := y + (base % 256 + 256 - y % 256) % 256

/-- Choose the resume cycle g: at least 64 cycles from now, in the phase of CYCBASE; how far beyond is open (log 10).  The
records of the freeze that the resume ends are its own: a fault from now on is the first of another (20_fault R450). -/
def scheduleResume (s : State) (c : Nat) : State × Nat :=
  let (d, s) := freeDelay s
  let g := inPhase (ctxOf s c).cycBase (s.now + 64 + d)
  let s := modCtx s c fun k =>
    { k with st := if k.st = .quiescing then .quiescing else .running, resumeAt := some g, faults := [],
             droppedFaults := 0, trunc := false, mustDump := false }
  (postEv s g (ordFreeze + 1) c none .contextResumeStart (.contextResumeStart c), g)

/-- A gang goes on at the resume cycle: a frozen one as it stood, a stopped one from its quiet point. -/
def resumeGang (s : State) (g : TileName) : State :=
  let gg := gangOf s g
  let s := if gg.seq = .frozen then modGang s g fun gg => { gg with seq := gg.saved }
    else if gg.seq = .stopped then resumeStoppedNow s g else s
  postBeats s g

/-- What is left to send on a tile of a context goes on, of a gang that has ended too. -/
def tileOwner (s : State) (c : Nat) (t : TileName) : Owner :=
  match gangAt s t with | some g => gangOwner s g | none => ⟨c, 0, t, false, 0, 0xFF, 0, s.now⟩

/-- The injection queues of a context's tiles have their next owned cycles. -/
def restartSends (s : State) (c : Nat) : State :=
  forTiles s (heldTiles s c) fun s t => wakeSends s (tileOwner s c t) t

/-- Tasks in PLACED are looked at again. -/
def restartPlaced (s : State) (c : Nat) : State :=
  (ctxTasks s c).foldl (fun s e =>
    if e.2.st = .placed && !(s.agenda.any fun x => decide (x.arg = .taskStart e.1)) then
      postEv s s.now ordWait e.1 (some ⟨c, e.1, e.2.origin, false, 0, 0xFF, 0, s.now⟩) .taskStart (.taskStart e.1)
    else s) s

/-- The match of a CYCLE breakpoint that is still to come. -/
def hitOf (c i : Nat) (e : Ev) : Bool := decide (e.arg = .breakpointHit c i 0xFFFF)

/-- Armed CYCLE breakpoints stop the context at their cycle (21_marker R466). -/
def restartBreaks (s : State) (c : Nat) : State :=
  (ctxOf s c).bps.foldl (fun s e =>
    let s := { s with agenda := s.agenda.filter fun x => !hitOf c e.1 x }
    if e.2.kind = 1 && e.2.count != 0 then
      postEv s (s.now + (e.2.value - BitVec.ofNat 64 s.now).toNat) ordInput c none .breakpointHit (.breakpointHit c e.1 0xFFFF)
    else s) s

/-- The cycle on which the next replay request is due (20_fault R455); 0 for never. -/
def postReplayDue (s : State) (c : Nat) : State :=
  let k := ctxOf s c
  match k.ops.replayint with
  | some (n + 1) =>
    postEv s (max (s.now + 1) (k.lastBoundary + n + 1)) ordInput c none .replayRequest (.replayRequest c)
  | _ => s

/-- A replay request that a stop interrupted waits for its cut again (20_fault R455). -/
def restartCut (s : State) (c : Nat) : State :=
  if (ctxOf s c).replayReq && !(s.agenda.any fun e => decide (e.arg = .replayBoundaryCut c)) then
    postEv s s.now (ordEnd - 1) c none .replayBoundaryCut (.replayBoundaryCut c)
  else s

/-- An action held over the stop, of the context itself or of a beat that another sent it, acts at g + REMAIN. -/
def releaseEv (c b : Nat) (s : State) (e : Ev) : State :=
  let e := { e with at_ := s.now + e.at_ }
  post s (if ofCtx c e then shiftEv b s.now e else e)

/-- CONTEXT_RESUME_START: on cycle g every absolute cycle is moved by g − CYCBASE, every gang starts, and pending actions
act at g + REMAIN (R377, R386). -/
def execContextResumeStart (s : State) : Host.Outcome State Fault Refusal :=
  match s.arg with
  | .contextResumeStart c =>
    if (ctxOf s c).resumeAt != some s.now then .next s
    else
      let b := (ctxOf s c).cycBase
      let q := (ctxOf s c).replayQ
      let s := shiftCtx (expiredInvals s c) c b s.now
      let s := modCtx s c fun k => { k with resumeAt := none, replayQ := [] }
      let s := (ctxGangs s c).foldl resumeGang s
      let s := q.foldl (releaseEv c b) s
      .next (restartCut (postReplayDue (resendContributions (restartBreaks (restartPlaced (restartSends (repostRequests s c) c) c)
        c) c) c) c)
  | _ => .fault .noOperand

/-! ### The end of a context's tasks (14_kernel R339, 17_page R400) -/

/-- An event of the service controller for a context, with no owner of its own. -/
def servesCtx (c : Nat) (e : Ev) : Bool :=
  match e.arg with
  | .freezeEdge x => x = c
  | .rollback x => x = c
  | .replayRequest x => x = c
  | .replayBoundaryCut x => x = c
  | .quiesceCut x => x = c
  | .quiesceBoundExpiry x => x = c
  | .invalTimeout x => x = c
  | .contextResumeStart x => x = c
  | .dumpWrite x => x = c
  | .sampleTick x => x = c
  | .breakpointHit x _ _ => x = c
  | .stepStopEdge x => x = c
  | .ringCoalesceTimeout x _ _ => x = c
  | _ => false

/-- The rollback at the head of the queue follows; its duration is open (20_fault R456, log 10). -/
def postRollback (s : State) : State :=
  match s.rollQueue with
  | [] => s
  | c :: _ =>
    let (d, s) := freeDelay s
    postEv s (s.now + 1 + d) ordEnd c none .rollback (.rollback c)

/-- A context's rollback is due, in turn after those that are due already (20_fault R454, R456). -/
def queueRollback (s : State) (c : Nat) : State :=
  if s.rollQueue.contains c then s
  else if s.rollQueue.isEmpty then postRollback { s with rollQueue := [c] } else { s with rollQueue := s.rollQueue ++ [c] }

/-- A context's rollback is made, or due no more: the next one follows. -/
def leaveRollback (s : State) (c : Nat) : State :=
  let first : Bool := s.rollQueue.head? = some c
  let s := { s with rollQueue := s.rollQueue.filter (· != c) }
  if first then postRollback s else s

/-- BREAK notices stand in ascending breakpoint index (21_marker R467). -/
def insertBreak (r : FaultRec) : List FaultRec → List FaultRec
  | [] => [r]
  | x :: xs => if r.aux.toNat < x.aux.toNat then r :: x :: xs else x :: insertBreak r xs

/-- The BREAK notices of the hits since the last freeze edge are posted. -/
def tellBreaks (s : State) (c : Nat) : State :=
  let rs := (ctxOf s c).breaks.foldl (fun l r => insertBreak r l) []
  rs.foldl (fun s r => tell s (.brk r)) (modCtx s c fun k => { k with breaks := [] })

/-- A slab that a context leaves: no front end, requests, items, waiting arrivals, releases or pins of it stay (12_barrier
R290, 17_page R395). -/
def Slab.left (sl : Slab) : Slab :=
  { sl with gang := none, holder := none, requests := [], pins := [], relList := [], releases := [], injW := [], injD := [] }

/-- Every task of a context ends at once, with no completion; its front ends are idle, its banks free; the page requests not
answered are named to the host (17_page R400). -/
def endTasks (s : State) (c : Nat) : State :=
  let ids := (ctxTasks s c).map (·.1)
  let s := leaveRollback (tellBreaks s c) c
  let gone := (requestsOf s c).map fun r => (r.1, r.2.2.num)
  let s := dropCtxWork s c
  let s := { s with agenda := s.agenda.filter fun e => !servesCtx c e }
  let s := forTiles s (heldTiles s c) fun s t => modSlab s t Slab.left
  let s := s.slabs.foldl (fun s e => modSlab s e.1 fun sl => { sl with banks := sl.banks.filter fun b => !ids.contains b.2 }) s
  let s := { s with
    gangs := s.gangs.filter fun e => e.2.ctx != c
    tasks := s.tasks.filter fun e => e.2.ctx != c
    graphs := s.graphs.filter fun g => g.ctx != c
    cands := s.cands.filter fun x => x.ctx != c
    timeTable := s.timeTable.map fun e => if e.2.ctx = c then (e.1, { e.2 with active := false, held := false }) else e }
  modCtx s c fun k =>
    { k with st := .dead, edge := none, quiesce := none, replayReq := false, invals := [], stopReq := false, waferStop := false,
             resumeAt := none, stepEdge := none, needRollback := false, colls := [], orphans := [], trace := none, sampler := none,
             cancelled := gone }

/-! ### Dumps (20_fault R457 to R459) -/

/-- The primary record of the standing faults. -/
def primaryOf (k : Ctx) : Option FaultRec := k.faults.find? (·.primary)

/-- A record joins the flash, which keeps the newest 256; the host reads them through the command ring (R459). -/
def addSummary (s : State) (r : FaultRec) : State :=
  let l := s.flash ++ [r]
  tell { s with flash := l.drop (l.length - 256) } (.summaries (l.drop (l.length - 256)))

/-- A summary record: the primary record with AUX replaced. -/
def keepSummary (s : State) (c cause : Nat) : State :=
  match primaryOf (ctxOf s c) with
  | none => s
  | some r => addSummary s { r with aux := BitVec.ofNat 64 cause }

/-- The service controller begins the dump at the head of its queue. -/
def beginDump (s : State) : State :=
  match s.dumpQueue with
  | [] => s
  | c :: _ =>
    let (d, s) := freeDelay s
    let s := modCtx s c fun k => { k with st := .dumping }
    postEv s (s.now + 1 + d) ordEnd c none .dumpWrite (.dumpWrite c)

/-- The cycle t of the fault that a context is dumped for. -/
def faultCycle (s : State) (c : Nat) : Nat := match primaryOf (ctxOf s c) with | some r => r.cyc | none => s.now

/-- A context takes its place among those that wait for their dump: in order of t (R458). -/
def insertDump (s : State) (c : Nat) : List Nat → List Nat
  | [] => [c]
  | x :: xs => if faultCycle s c < faultCycle s x then c :: x :: xs else x :: insertDump s c xs

/-- A context enters FAULTED: it is dumped now, or queued behind other dumps; beyond 255 it is killed with no dump.  One that
is FAULTED or DUMPING already stays so. -/
def enterFaulted (s : State) (c : Nat) : State :=
  if (ctxOf s c).st = .faulted || (ctxOf s c).st = .dumping then s
  else
    let s := leaveRollback (modCtx s c fun k => { k with st := .faulted }) c
    match s.dumpQueue with
    | [] => beginDump { s with dumpQueue := [c] }
    | x :: xs =>
      if 256 ≤ s.dumpQueue.length then
        endTasks (match primaryOf (ctxOf s c) with | some r => addSummary s r | none => s) c
      else { s with dumpQueue := x :: insertDump s c xs }

/-- A dump has ended or was given up: the context is DEAD and the next one begins. -/
def endDump (s : State) (c : Nat) : State :=
  let first : Bool := s.dumpQueue.head? = some c
  let s := endTasks { s with dumpQueue := s.dumpQueue.filter (· != c) } c
  if first then beginDump s else s

/-- Records of a dump: primary first, then ascending CYC. -/
def insertRec (r : FaultRec) : List FaultRec → List FaultRec
  | [] => [r]
  | x :: xs => if r.cyc < x.cyc then r :: x :: xs else x :: insertRec r xs

def dumpRecords (k : Ctx) : List FaultRec :=
  k.faults.filter (·.primary) ++ (k.faults.filter fun r => !r.primary).foldl (fun l r => insertRec r l) []

/-- An uncorrectable memory error freezes every gang of every context on the edge t + 64 (R449). -/
def waferFreeze (s : State) : State :=
  s.ctxs.foldl (fun s x =>
    if freezable x.2.st then setEdge (modCtx s x.1 fun k => { k with waferStop := true }) x.1 (s.now + 64) else s) s

/-- The lines that a dump cannot read are nested faults of its context, and uncorrectable memory errors (R449, R458). -/
def dumpFaults (s : State) (c : Nat) (bad : List (Nat × Nat)) : State :=
  let g := (ctxGangs s c).headD 0
  let s := bad.foldl (fun s l =>
    raiseAux s ⟨c, (gangOf s g).task, g, false, 0, 0xFF, 0, s.now⟩ 15 1 (BitVec.ofNat 64 (4096 * l.1 + 64 * l.2)) 0) s
  if bad.isEmpty then s else waferFreeze s

/-- DUMP_WRITE (R457): the image goes to the host's dump buffer, if it is there and holds it and its key unwraps; else the
dump is given up (R459). -/
def execDumpWrite (s : State) : Host.Outcome State Fault Refusal :=
  match s.arg with
  | .dumpWrite c =>
    let k := ctxOf s c
    if k.st != .dumping then .next s
    else
      let n := Config.dumpSize s.freeCount
      let s := { s with freeCount := s.freeCount + 1 }
      let room := k.ops.dumpBytes.getD 0
      if room = 0 || room < n then .next (endDump (keepSummary s c 2) c)
      else if !Config.dumpKeyOk (k.ops.dumpKey.getD 0) then .next (endDump (keepSummary s c 3) c)
      else
        let bad := unreadable s c
        let i := s.images.length
        let s := dumpFaults { s with images := s.images ++ [dumpImage s c bad] } c bad
        let k := ctxOf s c
        .next (endDump (tell s (.dump c (dumpRecords k) k.trunc k.droppedFaults i)) c)
  | _ => .fault .noOperand

/-- DUMP_ABORT (R459): a fault in the dump path. -/
def execDumpAbort (s : State) : Host.Outcome State Fault Refusal :=
  match s.arg with
  | .dumpAbort c cause =>
    if (ctxOf s c).st != .dumping then .next s else .next (endDump (keepSummary s c cause.toNat) c)
  | _ => .fault .noOperand

/-! ### Rollback (R454, R456) -/

/-- A class-15 fault of the service controller's own, at the present cycle, after which the context is dumped; its record is
told, be it the first of its freeze or not (R452, R456). -/
def replayFault (s : State) (c cause : Nat) : State :=
  let g := (ctxGangs s c).headD 0
  let had : Bool := !(ctxOf s c).faults.isEmpty
  let s := raiseAux s ⟨c, (gangOf s g).task, g, false, 0, 0xFF, 0, s.now⟩ 15 cause 0 0
  let s := if had then (match (ctxOf s c).faults.getLast? with | some r => tell s (.fault r) | none => s) else s
  enterFaulted s c

/-- Roll a stopped context back to its boundary and resume it; without a boundary, or on a fifth replay, it is dumped.  Where a
task of another context stands on a tile that the boundary needs, the rollback waits for its end (DEDUCED, log 84). -/
def rollbackNow (s : State) (c : Nat) : State :=
  let k := ctxOf s c
  match k.boundary with
  | none => replayFault s c 6
  | some b =>
    if 4 ≤ k.replays then replayFault s c 7
    else
      if boundaryTaken s c b then queueRollback s c else
      let s := returnBoundary s c b
      let s := modCtx s c fun k =>
        { k with replays := k.replays + 1, rollbacks := k.rollbacks + 1, needRollback := false, replayReq := false, replayEnd := false }
      (scheduleResume (tell s (.rollback c b.cut)) c).1

/-- The service controller resumes contexts: not in a module that has left service, whose contexts stay QUIESCED or FROZEN
(19_tile R437). -/
def inService (s : State) : Bool := s.phase != .outOfService

/-- ROLLBACK (R454): after a wafer freeze the affected context returns to its boundary; then the next one that is due
(R456). -/
def execRollback (s : State) : Host.Outcome State Fault Refusal :=
  match s.arg with
  | .rollback c =>
    let s := leaveRollback s c
    .next (if atRest (ctxOf s c).st && (ctxOf s c).needRollback && inService s then rollbackNow s c else s)
  | _ => .fault .noOperand

/-! ### The freeze edge (16_context R376, 20_fault R447, R449, R450) -/

/-- The edge of a step over a wafer freeze: the step spans its n cycles from the new resume cycle, less those that had passed
before the freeze (21_marker R468). -/
def stepOver (k : Ctx) (now g e : Nat) : Nat := g + (e - (k.resumeAt.getD now))

/-- What follows the edge of a context that froze as it stood in k: its primary fault, then a debugger's or the host's
stop, then a wafer freeze. -/
def afterFreeze (s : State) (c : Nat) (k : Ctx) : State :=
  match primaryOf k with
  | some r =>
    let s := tell s (.fault r)
    if k.mustDump then enterFaulted s c
    else if r.cls = 15 then queueRollback s c
    else if r.cls = 17 || r.cls = 18 || r.cls = 20 then s
    else if (k.ops.hold.getD 0).getLsbD r.cls then s
    else enterFaulted s c
  | none =>
    if k.needRollback then queueRollback s c
    else if k.waferStop && !k.stopReq && inService s then
      let f := s.now
      let s := modCtx s c fun x => { x with st := k.st, quiesce := k.quiesce }
      let (s, g) := scheduleResume s c
      match k.stepEdge with
      | some e =>
        let e' := stepOver k f g e
        postEv (modCtx s c fun x => { x with stepEdge := some e' }) e' (ordFreeze - 1) c none .stepStopEdge (.stepStopEdge c)
      | none => s
    else s

/-- The invalidations of a context that have timed out are answered TIMEOUT, and the host may write their leaves (17_page
R403). -/
def tellTimeouts (s : State) (c : Nat) : State :=
  let is := (ctxOf s c).invals.filter fun i => i.expired && !i.told
  let s := is.foldl (fun s i => answer (openRange s c i) c 3 0) s
  modCtx s c fun k => { k with invals := k.invals.map fun i => if i.expired then { i with told := true } else i }

/-- FREEZE_EDGE: the context freezes, if this is the edge that stands; one that stands still already is dumped, if a fatal fault
has met it since (R447, R451). -/
def execFreezeEdge (s : State) : Host.Outcome State Fault Refusal :=
  match s.arg with
  | .freezeEdge c =>
    let k := ctxOf s c
    if k.edge = some s.now && freezable k.st then .next (afterFreeze (tellTimeouts (tellBreaks (freezeCtx s c) c) c) c k)
    else if atRest k.st && k.mustDump then .next (enterFaulted s c)
    else .next s
  | _ => .fault .noOperand

/-- Who a memory error on a tile is charged to: the gang of the context that owns the storage, by its slab 0, with the place of
the tile in it (R452, R453). -/
def errorOwner (s : State) (e : MemError) (c : Nat) : Owner × Nat :=
  let g := match gangAt s e.tile with
    | some g => if (gangOf s g).ctx = c then g else e.tile
    | none => e.tile
  (⟨c, (gangOf s g).task, g, false, e.pc, e.slot, e.trig, s.now⟩, if g = e.tile then 0 else (gangTiles s g).idxOf e.tile)

/-- UNCORRECTABLE_ERROR_DETECT (R453, R454): an error in storage that no context owns is only counted; else every running
context freezes on the edge t + 64.  The affected one rolls back then, or at its next RESUME when it is already stopped; an
error in what it would replay from dumps it (R456).  One that has not started, or is DEAD, has nothing to return to (log 150).
Cause 0 is a single-bit soft error, corrected and counted. -/
def execUncorrectableErrorDetect (s : State) : Host.Outcome State Fault Refusal :=
  match s.arg with
  | .uncorrectableErrorDetect e =>
    if e.cause = 0 then .next { s with softErrors := s.softErrors + 1 }
    else
      match e.ctx with
      | none => .next { s with memErrors := s.memErrors + 1 }
      | some c =>
        let st := (ctxOf s c).st
        if st = .free then .next { s with memErrors := s.memErrors + 1 }
        else
          let (own, k) := errorOwner s e c
          let s := raiseAux s own 15 e.cause.toNat e.aux k
          let replays : Bool := freezable st || atRest st
          let s := modCtx s c fun k => { k with needRollback := k.needRollback || replays }
          .next (waferFreeze s)
  | _ => .fault .noOperand

/-! ### Replay boundaries and the consistent cut (16_context R372, R373, 20_fault R455) -/

/-- On a link, or on its way to an engine of the device. -/
def onLink (i : Instr) : Bool :=
  i = .arrivalDelivery || i = .releaseDelivery || i = .tokenDelivery || i = .softEventDelivery || i = .copyBeatDelivery ||
    i = .remoteWatomApply || i = .remoteWatomReply || i = .remoteAccessArrival || i = .routerStaticBeat ||
    i = .alignmentArrival || i = .hostRingEntryWrite || i = .pageRequestArrival || i = .collContributionArrival ||
    i = .pinReleaseComplete

/-- Every gang of a context is stopped, by a test on stopped gangs; a task in PLACED has not begun. -/
def allStopped (s : State) (c : Nat) (p : Gang → Bool) : Bool :=
  (ctxTasks s c).all fun e => e.2.gangs.all fun g =>
    g.2.1 = 0 || g.2.1 = 3 || (g.2.1 = 1 && (gangOf s g.1).task = e.1 && (gangOf s g.1).seq = .stopped && p (gangOf s g.1))

/-- A tile whose gang has ended sends nothing more: its copies and releases are gone, and no item of it may leave now or on a
later cycle (R371, R373). -/
def sentOut (s : State) (t : TileName) : Bool :=
  let sl := slabOf s t
  sl.releases.isEmpty && (sl.copies.all fun e => e.2.nb ≤ e.2.next) &&
    (sl.injW ++ sl.injD).all fun x => decide (x.eligible ≤ s.now) && !mayLeave s t x

/-- Nothing of a context is on a link or comes onto one from a tile that no gang drives, and the ports have no frame of its
job unacknowledged (R373, 18_link R427). -/
def linksQuiet (s : State) (c : Nat) : Bool :=
  (s.agenda.all fun e => !(ofCtx c e && onLink e.instr)) && ((idleTiles s c).all fun t => sentOut s t) &&
    s.ports.all fun p => p.2.unacked.all fun f => f.2.job != (ctxOf s c).ops.job

/-- REPLAY_REQUEST (R455): due when REPLAYINT cycles have passed since the boundary, or when the undo entries in some vault
reach half the .undo count of a running kernel. -/
def execReplayRequest (s : State) : Host.Outcome State Fault Refusal :=
  match s.arg with
  | .replayRequest c =>
    let k := ctxOf s c
    let time : Bool := match k.ops.replayint with | some (n + 1) => k.lastBoundary + n + 1 ≤ s.now | _ => false
    let half : Bool := k.undo.any fun u => undoHalf s c (u.1 / 2 ^ 29)
    if freezable k.st && !k.replayReq && (time || half) then
      .next (postEv (modCtx s c fun k => { k with replayReq := true, replayEnd := false }) s.now (ordEnd - 1) c none .replayBoundaryCut
        (.replayBoundaryCut c))
    else .next s
  | _ => .fault .noOperand

/-- The lane swaps that are due on some tiles (09_window R246); a record of a tile that no context holds has context 0. -/
def swapTiles (s : State) (ts : List TileName) : State :=
  forTiles s ts fun s t => laneSwaps s ((holderOf s t).getD 0) t

/-- The boundary is taken: quiet forms and persistent areas saved, undo entries discarded, lane swaps made. -/
def cutBoundary (s : State) (c : Nat) : State :=
  let s := { s with tasks := s.tasks.filter fun e => !(e.2.ctx = c && e.2.st = .ended) }
  let b := takeBoundary s c
  let s := modCtx s c fun k =>
    { k with boundary := some b, undo := [], replays := 0, lastBoundary := s.now, replayReq := false, replayEnd := false, cycBase := s.now,
             runShift := 0 }
  swapTiles s (heldTiles s c)

/-- Every gang is stopped as a quiesce asks, at quiet points of a named kind (16_context R369, R370). -/
def quiesceStopped (s : State) (c : Nat) (m : BitVec 3) : Bool := allStopped s c fun g => g.stopKinds &&& m != 0

/-- The context has reached a quiet point since the request: a gang stands at one, a task has ended, or a graph stands between
two nodes.  With no task at all the request waits for one (R455, 16_context R369, 22_programs R471, log 119). -/
def atReplayPoint (s : State) (c : Nat) : Bool :=
  (ctxOf s c).replayEnd || ((ctxGangs s c).any fun g => (gangOf s g).seq = .stopped) ||
    s.cands.any fun x => x.ctx = c && 2 ≤ x.source

/-- REPLAY_BOUNDARY_CUT (R455): on the first cycle on which the cut is consistent, unless the context is to freeze; it then
resumes, unless it stands as its quiesce asks. -/
def execReplayBoundaryCut (s : State) : Host.Outcome State Fault Refusal :=
  match s.arg with
  | .replayBoundaryCut c =>
    let k := ctxOf s c
    if !k.replayReq || !freezable k.st then .next s
    else if k.resumeAt.isNone && k.edge.isNone && atReplayPoint s c && allStopped s c (fun g => g.stopKinds.getLsbD 1) &&
        linksQuiet s c then
      let s := cutBoundary s c
      let stays : Bool := match k.quiesce with | some (m, _) => quiesceStopped s c m | none => false
      .next (if stays then s else (scheduleResume s c).1)
    else .next (postEv s (s.now + 1) (ordEnd - 1) c none .replayBoundaryCut s.arg)
  | _ => .fault .noOperand

/-- Any state but FREE and DEAD. -/
def resident (st : CtxState) : Bool := st != .free && st != .dead

/-- QUIESCED or FROZEN. -/
def stopped (st : CtxState) : Bool := st = .quiesced || st = .frozen

/-- The module is quiesced: every resident context is QUIESCED or FROZEN (19_tile R437). -/
def allParked (s : State) : Bool := s.ctxs.all fun e => !resident e.2.st || stopped e.2.st

/-- A remap that is due starts when the module is quiesced (19_tile R437); the map is the service controller's choice
(log 20). -/
def remapIfDue (s : State) : State :=
  if s.remapDue && allParked s && s.binding.isSome then
    match Config.bindingChoice s.freeCount with
    | some m => postEv { s with freeCount := s.freeCount + 1 } s.now (ordEnd + 2) 0 none .remap (.remap m)
    | none => leaveService { s with freeCount := s.freeCount + 1 } 437
  else s

/-- QUIESCE_CUT (16_context R373): on the first cycle on which the cut is consistent the context enters QUIESCED, unless a
freeze edge stands, which it then meets (R365, R367, R375). DESIGN CHOICE (log 159): lanes are swapped here once every
context is parked (09_window R246). -/
def execQuiesceCut (s : State) : Host.Outcome State Fault Refusal :=
  match s.arg with
  | .quiesceCut c =>
    let k := ctxOf s c
    match k.st, k.quiesce with
    | .quiescing, some (m, _) =>
      if k.resumeAt.isNone && k.edge.isNone && quiesceStopped s c m && linksQuiet s c then
        let s := modCtx s c fun k =>
          { k with st := .quiesced, quiesce := none, stopReq := false, stepEdge := none, cycBase := s.now }
        .next (remapIfDue (if allParked s then swapTiles s (s.slabs.map (·.1)) else s))
      else .next (postEv s (s.now + 1) ordEnd c none .quiesceCut s.arg)
    | _, _ => .next s
  | _ => .fault .noOperand

/-- QUIESCE_BOUND_EXPIRY (16_context R375). -/
def execQuiesceBoundExpiry (s : State) : Host.Outcome State Fault Refusal :=
  match s.arg with
  | .quiesceBoundExpiry c =>
    let k := ctxOf s c
    match k.quiesce with
    | some (_, dl) =>
      if k.st = .quiescing && dl ≤ s.now then
        let (d, s) := freeDelay (modCtx s c fun k => { k with stopReq := true })
        .next (setEdge s c (s.now + 64 + d))
      else .next s
    | none => .next s
  | _ => .fault .noOperand

end Sys2Proof.Machine
end

