-- ==== Sys2Proof/Machine/Commands.lean ====
section
/-! DEFINITION. The host's commands on a context's life, its breakpoints, steps, trace and sampler (16_context R364 to R376, 21_marker R461 to R468). -/

namespace Sys2Proof.Machine

/-- A command accepted in some states of its context, and refused in the others with BADSTATE (R365, R366). -/
def command (s : State) (c : Nat) (ok : CtxState → Bool) (f : State → State) : State :=
  if ok (ctxOf s c).st then f s else answer s c 1 0

/-- A command that makes a context run needs a phase in which an island issues: MERGING, or SERVICE (19_tile R429, R432; a
module that has left service runs none, R437). -/
def commandRun (s : State) (c : Nat) (ok : CtxState → Bool) (f : State → State) : State :=
  if s.phase = .merging || s.phase = .service then command s c ok f else answer s c 1 0

def done (s : State) (c : Nat) : State := answer s c 0 0
def badArg (s : State) (c : Nat) : State := answer s c 2 0

/-! ### CREATE to RELEASE (R365) -/

/-- Every operand is there and in its range. -/
def createOk (o : CreateOps) : Bool :=
  (match o.keys with | some ks => decide (1 ≤ ks.length) && decide (ks.length ≤ 8) | none => false) &&
    (match o.undoShare with | some n => decide (n ≤ 65536) | none => false) &&
    o.waitdl.isSome && o.replayint.isSome && o.hold.isSome && o.dumpKey.isSome && o.dumpBytes.isSome

/-- CREATE. -/
def execCreate (s : State) : Host.Outcome State Fault Refusal :=
  match s.arg with
  | .create c o =>
    if 256 ≤ c then .next (badArg s c)
    else .next (command s c (· = .free) fun s =>
      if !createOk o then badArg s c
      else done (modCtx { s with freeCount := s.freeCount + 1 } c fun k =>
        { Ctx.free with
          st := .loading, gen := (k.gen + 1) % 2 ^ 32, ops := o, nkeys := (o.keys.getD []).length, root := newRoot s,
          cycBase := s.now }) c)
  | _ => .fault .noOperand

/-- LOADDONE. -/
def execLoaddone (s : State) : Host.Outcome State Fault Refusal :=
  match s.arg with
  | .loaddone c => .next (command s c (· = .loading) fun s => done (modCtx s c fun k => { k with st := .ready }) c)
  | _ => .fault .noOperand

/-- START: the queues are dispatched; boundary 0 is taken (20_fault R454). -/
def execStart (s : State) : Host.Outcome State Fault Refusal :=
  match s.arg with
  | .start c =>
    .next (commandRun s c (fun st => st = .loading || st = .ready) fun s =>
      let b := takeBoundary s c
      let s := modCtx s c fun k =>
        { k with
          st := .running, boundary := some b, undo := [], replays := 0, rollbacks := 0, lastBoundary := s.now, cycBase := s.now,
          faults := [], droppedFaults := 0, trunc := false, mustDump := false }
      done (postReplayDue s c) c)
  | _ => .fault .noOperand

/-- A context enters QUIESCING with a request of each named kind (R370). -/
def beginQuiesce (s : State) (c : Nat) (kinds : BitVec 3) (deadline : Nat) : State :=
  let s := modCtx s c fun k => { k with st := .quiescing, quiesce := some (kinds, deadline) }
  postEv s s.now ordEnd c none .quiesceCut (.quiesceCut c)

/-- QUIESCE. -/
def execQuiesce (s : State) : Host.Outcome State Fault Refusal :=
  match s.arg with
  | .quiesce c kinds us =>
    .next (command s c (· = .running) fun s =>
      if us = 0 || 2 ^ 32 ≤ us then badArg s c
      else
        let dl := s.now + usCycles s us
        let s := postEv (beginQuiesce s c kinds dl) dl ordEnd c none .quiesceBoundExpiry (.quiesceBoundExpiry c)
        done s c)
  | _ => .fault .noOperand

/-- FREEZE: on an edge at least 64 cycles away (R376). -/
def execFreeze (s : State) : Host.Outcome State Fault Refusal :=
  match s.arg with
  | .freeze c =>
    .next (command s c (fun st => st = .running || st = .quiescing) fun s =>
      let (d, s) := freeDelay (modCtx s c fun k => { k with stopReq := true })
      done (setEdge s c (s.now + 64 + d)) c)
  | _ => .fault .noOperand

/-- A stopped context takes a resume cycle, after the rollback that an uncorrectable error has left due (20_fault R456). -/
def resumeCtx (s : State) (c : Nat) : State :=
  if (ctxOf s c).needRollback then rollbackNow s c else (scheduleResume s c).1

/-- RESUME. -/
def execResume (s : State) : Host.Outcome State Fault Refusal :=
  match s.arg with
  | .resume c => .next (commandRun s c stopped fun s => done (resumeCtx s c) c)
  | _ => .fault .noOperand

/-- STEP: a resume on g, and the edge g + n (21_marker R468). -/
def execStepCmd (s : State) : Host.Outcome State Fault Refusal :=
  match s.arg with
  | .stepCmd c n =>
    .next (commandRun s c stopped fun s =>
      if n = 0 || 2 ^ 32 ≤ n then badArg s c
      else
        let s := resumeCtx s c
        match (ctxOf s c).resumeAt with
        | some g =>
          done (postEv (modCtx s c fun k => { k with stepEdge := some (g + n) }) (g + n) (ordFreeze - 1) c none .stepStopEdge
            (.stepStopEdge c)) c
        | none => done s c)
  | _ => .fault .noOperand

/-- STEP_STOP_EDGE: the context freezes on this edge, if it is the one the step set. -/
def execStepStopEdge (s : State) : Host.Outcome State Fault Refusal :=
  match s.arg with
  | .stepStopEdge c =>
    let k := ctxOf s c
    if k.stepEdge = some s.now && freezable k.st then
      .next (setEdge (modCtx s c fun k => { k with stopReq := true, stepEdge := none }) c s.now)
    else .next s
  | _ => .fault .noOperand

/-- KILL: a context that waits for its dump, or is being dumped, leaves the dump queue; the page requests it cancelled are
named to the host (17_page R400). -/
def execKill (s : State) : Host.Outcome State Fault Refusal :=
  match s.arg with
  | .kill c =>
    .next (command s c resident fun s =>
      let s := if s.dumpQueue.contains c then endDump s c else endTasks s c
      done (tell s (.killAck c (ctxOf s c).cancelled)) c)
  | _ => .fault .noOperand

/-- The records that the vaults keep of a context are no later context's of its number (09_window R244, 16_context R364). -/
def forgetErrors (s : State) (c : Nat) : State :=
  s.slabs.foldl (fun s e => modSlab s e.1 fun sl =>
    { sl with errlog := sl.errlog.map fun r => if r.ctx = c then { r with ctx := 256 } else r }) s

/-- RELEASE: everything of the context is given up but its generation. -/
def execRelease (s : State) : Host.Outcome State Fault Refusal :=
  match s.arg with
  | .release c =>
    .next (command s c (· = .dead) fun s =>
      let s := modCtx (forgetErrors s c) c fun k => { Ctx.free with gen := k.gen }
      done { s with timeTable := s.timeTable.filter fun e => e.2.ctx != c } c)
  | _ => .fault .noOperand

/-! ### Breakpoints (21_marker R466, R467) -/

/-- BK_SET: a COUNT of 0 acts as 1; a CYCLE less than 64 cycles away is refused. -/
def execBkSet (s : State) : Host.Outcome State Fault Refusal :=
  match s.arg with
  | .bkSet c i b =>
    .next (command s c resident fun s =>
      if 8 ≤ i || b.kind = 0 || 65535 < b.count || (b.kind = 1 && decide (b.value.toNat < (BitVec.ofNat 64 (ctxCyc s c)).toNat + 64)) then badArg s c
      else
        let s := modCtx s c fun k => { k with bps := tabPut k.bps i { b with count := max 1 b.count } }
        let s := { s with agenda := s.agenda.filter fun e => !hitOf c i e }
        let s := if b.kind = 1 then
            postEv s (s.now + (b.value - BitVec.ofNat 64 (ctxCyc s c)).toNat) ordInput c none .breakpointHit (.breakpointHit c i 0xFFFF) else s
        done s c)
  | _ => .fault .noOperand

/-- BK_CLEAR. -/
def execBkClear (s : State) : Host.Outcome State Fault Refusal :=
  match s.arg with
  | .bkClear c i =>
    .next (command s c resident fun s =>
      if 8 ≤ i then badArg s c else done (modCtx s c fun k => { k with bps := tabDel k.bps i }) c)
  | _ => .fault .noOperand

/-- The BREAK notice of breakpoint i of kind k, in the layout of a fault record (R467); its fields that no rule gives are 0,
its slot 0xFF (log 151). -/
def breakRec (s : State) (c i k edge : Nat) : FaultRec :=
  { cls := 32, cause := k, slot := 0xFF, primary := false, nested := false, handler := false, delivery := false, ctx := c
    tile := 0, gen := (ctxOf s c).gen, pc := 0, trig := 0, cyc := ctxCyc s c, edge := edge + ctxAhead s c, aux := BitVec.ofNat 64 i, gslab := 0, depth := 0
    seq := s.faultSeq }

/-- The stop edge of breakpoint i of kind k, and its BREAK notice, which is posted with the others of that edge. -/
def breakStop (s : State) (c i k edge : Nat) : State :=
  let s := modCtx s c fun x => { x with stopReq := true, breaks := x.breaks ++ [breakRec s c i k edge] }
  setEdge { s with faultSeq := s.faultSeq + 1 } c edge

/-- BREAKPOINT_HIT: the match of a BUNDLE or MARKER breakpoint stops the context 64 cycles later; a CYCLE breakpoint stops
it on its cycle, when that is its COUNT-th match. -/
def execBreakpointHit (s : State) : Host.Outcome State Fault Refusal :=
  match s.arg with
  | .breakpointHit c i _ =>
    let k := ctxOf s c
    if !freezable k.st || k.resumeAt.isSome then .next s
    else
      match tabGet k.bps i with
      | none => .next s
      | some b =>
        if b.kind = 1 then
          (if b.value != BitVec.ofNat 64 (ctxCyc s c) || b.count = 0 then .next s
           else
             let s := modCtx s c fun k => { k with bps := tabPut k.bps i { b with count := b.count - 1 } }
             .next (if b.count = 1 then breakStop s c i 1 s.now else s))
        else .next (breakStop s c i b.kind.toNat (s.now + 64))
  | _ => .fault .noOperand

/-! ### The interlock trace (R463) -/

/-- A power of two from 2^lo to 2^hi. -/
def powerIn (lo hi n : Nat) : Bool := ((List.range (hi + 1)).drop lo).any fun i => n = 2 ^ i

/-- TR_ARM: answers 0 and arms nothing where the trace path is absent. -/
def execTrArm (s : State) : Host.Outcome State Fault Refusal :=
  match s.arg with
  | .trArm c a =>
    .next (command s c resident fun s =>
      if !Config.developmentModule then done s c
      else if a.thr = 0 || 2 ^ 31 ≤ a.thr || !powerIn 8 16 a.tlen then badArg s c
      else done (modCtx s c fun k => { k with trace := some ⟨a, none, a.tlen, 0, 0⟩ }) c)
  | _ => .fault .noOperand

/-- An operation of V is in flight on a tile of a gang: one that a trigger port of V has started. -/
def vectorBusy (s : State) (g : TileName) : Bool :=
  (unitOps s g (gangOf s g).task).any fun e => match e.own with | some o => decide (triggerUnit o.trig = some .v) | none => false

/-- BUSY bits of a traced gang, ORed over its slabs. -/
def traceBusy (s : State) (g : TileName) : BitVec 6 :=
  let any (p : Slab → Bool) : Bool := (gangTiles s g).any fun t => p (slabOf s t)
  let bs := [any (·.mx.busy), any fun sl => !sl.stage.isEmpty, any fun sl => !sl.copies.isEmpty,
    any fun sl => !sl.xtiles.isEmpty, any fun sl => sl.fload.isSome, vectorBusy s g]
  BitVec.ofNat 6 ((bs.zipIdx.map fun (b, i) => if b then 2 ^ i else 0).sum)

/-- One row of a gang at the end of a cycle; a full buffer drops and counts it. -/
def traceGang (c : Nat) (s : State) (g : TileName) : State :=
  match (ctxOf s c).trace with
  | none => s
  | some t =>
    if t.arm.rows ≤ t.rows then modCtx s c fun k => { k with trace := some { t with dropped := t.dropped + 1 } }
    else
      let gg := gangOf s g
      let (pc, fired) := match gg.lastIssue with
        | some (y, pc, f) => if y = s.now then (pc, f) else (0xFFFF, 0)
        | none => (0xFFFF, 0)
      let s := modCtx s c fun k => { k with trace := some { t with rows := t.rows + 1 } }
      tell s (.trace c (islandCyc s g) g pc gg.seq fired (gg.blk.waits ++ gg.waits) gg.blk.exit (traceBusy s g) (tstWord gg))

/-- Schedule the next row; it belongs to no task, so that no stop or rollback takes it away. -/
def postTrace (s : State) (own : Owner) (c t : Nat) : State := post s ⟨t, 860, c, none, .operationLanding own (.traceRow c), .none⟩

/-- The rows of one cycle; a cycle on which the context does not issue is not counted. -/
def landTraceRow (s : State) (own : Owner) (c : Nat) : State :=
  let k := ctxOf s c
  match k.trace with
  | none => s
  | some t =>
    match t.started with
    | none => s
    | some (g0, _) =>
      if t.left = 0 then s
      else if !(freezable k.st && k.resumeAt.isNone) then postTrace s own c (s.now + 1)
      else
        let gs := if t.arm.wide then ctxGangs s c else [g0]
        let s := gs.foldl (traceGang c) s
        let s := modCtx s c fun k => { k with trace := k.trace.map fun t => { t with left := t.left - 1 } }
        if t.left = 1 then s else postTrace s own c (s.now + 1)

/-- The comparison of a MARK, and the trace that its drift record starts (R130, R461, R463). -/
def landMarkTrace (s : State) (own : Owner) (marker : BitVec 16) (expect : BitVec 32) (actual cyc : Word) : State :=
  let c := own.ctx
  let d : Int := (min actual.toNat (2 ^ 32 - 1) : Int) - expect.toNat
  let s' := landMark s own marker expect actual cyc
  match (ctxOf s c).trace with
  | some t =>
    if t.started.isNone && actual.toNat != expect.toNat && decide ((t.arm.thr : Int) ≤ d.natAbs) then
      postTrace (modCtx s' c fun k => { k with trace := some { t with started := some (own.gang, s.now + 1) } }) own c (s.now + 1)
    else s'
  | none => s'

/-! ### The sampler (R464, R465) -/

/-- The first cycle after y that is a multiple of 2^k. -/
def nextSample (k y : Nat) : Nat := (y / 2 ^ k + 1) * 2 ^ k

/-- Place of a sample within its cycle: after the freeze edges, the resumes, the waits that complete and the tasks that start on it,
before its bundles. -/
def ordSample : Nat := 50

/-- The next tick. -/
def postSample (s : State) (c k : Nat) : State :=
  postEv s (nextSample k (ctxCyc s c) - ctxAhead s c) ordSample c none .sampleTick (.sampleTick c)

/-- SMP_SET: none stops the sampler. -/
def execSmpSet (s : State) : Host.Outcome State Fault Refusal :=
  match s.arg with
  | .smpSet c x =>
    .next (command s c resident fun s =>
      let off : State := { s with agenda := s.agenda.filter fun e => !decide (e.arg = .sampleTick c) }
      match x with
      | none => done (modCtx off c fun k => { k with sampler := none }) c
      | some x =>
        if x.k < 10 || 30 < x.k || x.logsize < 4 || 20 < x.logsize then badArg s c
        else done (postSample (modCtx off c fun k => { k with sampler := some ⟨x, x.head, x.head, 0⟩ }) c x.k) c)
  | _ => .fault .noOperand

/-- A gang whose last wait has completed on this cycle, and which issues on the next: it is WAITING on this one (02_bundle R52). -/
def endsWaiting (s : State) (g : TileName) : Bool :=
  let gg := gangOf s g
  gg.waitEnd = s.now + 1 && (gg.seq = .issuing || gg.seq = .handler)

/-- The counters of a gang at the start of the present cycle. -/
def countersNow (s : State) (g : TileName) : List (BitVec 32) :=
  let gg := gangOf s g
  let t := countersAt gg gg.seq s.now
  (List.range 12).map fun i => if i = 1 && endsWaiting s g then tabGetD 0 t 1 - 1 else tabGetD 0 t i

/-- Rows of the sampler's ring that the host has not taken. -/
def sampleUsed (m : SampleSt) : Nat := (m.tail + 2 ^ 32 - m.head % 2 ^ 32) % 2 ^ 32

/-- The row of one gang, or a drop when the ring is full. -/
def sampleGang (c : Nat) (s : State) (g : TileName) : State :=
  match (ctxOf s c).sampler with
  | none => s
  | some m =>
    if 2 ^ m.set.logsize ≤ sampleUsed m then modCtx s c fun k => { k with sampler := some { m with drops := m.drops + 1 } }
    else
      let gg := gangOf s g
      let s := modCtx s c fun k => { k with sampler := some { m with tail := (m.tail + 1) % 2 ^ 32 } }
      tell s (.sample c (islandCyc s g) g (gg.seq = .waiting || endsWaiting s g) m.tail (countersNow s g))

/-- SAMPLE_TICK. -/
def execSampleTick (s : State) : Host.Outcome State Fault Refusal :=
  match s.arg with
  | .sampleTick c =>
    let k := ctxOf s c
    match k.sampler with
    | none => .next s
    | some m =>
      let gs := (ctxGangs s c).filter fun g => match m.set.rect with | some r => inRect r g | none => true
      let s := if k.st = .running && k.resumeAt.isNone then gs.foldl (sampleGang c) s else s
      .next (postSample s c m.set.k)
  | _ => .fault .noOperand

/-! ### MK_READ and WIN_SET (R462, 18_link R414) -/

/-- MK_READ: the oldest records, which are freed. -/
def execMkRead (s : State) : Host.Outcome State Fault Refusal :=
  match s.arg with
  | .mkRead c g n =>
    .next (command s c (· != .free) fun s =>
      let log := tabGetD [] (ctxOf s c).markers g
      let s := modCtx s c fun k => { k with markers := tabPut k.markers g (log.drop n) }
      done (tell s (.markers c (log.take n))) c)
  | _ => .fault .noOperand

/-- WIN_SET. -/
def execWinSet (s : State) : Host.Outcome State Fault Refusal :=
  match s.arg with
  | .winSet c w base en =>
    .next (command s c resident fun s =>
      if 256 ≤ w || base.toNat % 2 ^ 32 != 0 then badArg s c
      else done { s with windows := tabPut s.windows w (base, c, en) } c)
  | _ => .fault .noOperand

end Sys2Proof.Machine
end

