-- ==== Sys2Proof/Machine/Engine.lean ====
section
/-! DEFINITION. The matrix engine's parts (08_accumulator R202 to R210, R218, R220, R226): geometry, operand tiles, banks, the microprogram store, and the walk of a run that the checks of R228 make. -/

namespace Sys2Proof.Machine

/-! ### Geometry (R202, R206) -/

/-- s: cycles of a K step. -/
def kStep (f : Fmt) : Nat := if f.afmt.toNat ≤ 1 && f.bfmt.toNat ≤ 1 then 1 else 4

/-- Cycles of a group. -/
def groupCycles (f : Fmt) : Nat := 32 * kStep f

def kExtent (mp : Tab Word) : Nat := (tabGetD 0 mp 4).toNat % 2 ^ 20
def groupCount (mp : Tab Word) : Nat := (kExtent mp + 31) / 32

/-- Both operands INT8: the accumulator holds INT32 (03_element R74). -/
def intKind (f : Fmt) : Bool := f.afmt.toNat = 1 && f.bfmt.toNat = 1

/-- One integer and one floating operand format, or a reserved code (R228). -/
def mixedFmt (f : Fmt) : Bool :=
  (f.afmt.toNat = 1 && f.bfmt.toNat != 1) || (f.afmt.toNat != 1 && f.bfmt.toNat = 1) ||
    4 ≤ f.afmt.toNat || 4 ≤ f.bfmt.toNat

/-- Access rows of a group tile (R208). -/
def tileRows (f : Nat) : Nat := if f ≤ 1 then 32 else 64

/-! ### Operand descriptors (R207 to R209) -/

def dVec (d : MxDesc) : Bool := d.w1.getLsbD 63
def dRp (d : MxDesc) : Nat := (d.w1.extractLsb' 32 16).toNat
def dBase (d : MxDesc) : Nat := (d.w1.extractLsb' 0 22).toNat
def dVf (d : MxDesc) : Nat := d.w1.toNat % 32
def dRc (d : MxDesc) : Nat := (d.w2.extractLsb' 32 4).toNat
def dTp (d : MxDesc) : Nat := d.w2.toNat % 2 ^ 32

/-- No descriptor loaded yet. -/
def descReset : MxDesc := ⟨0, 0, false⟩

/-- The address of access row q of group g with its bank rotated; an address beyond the scratchpad stays beyond it. -/
def rowAddr (d : MxDesc) (g q : Nat) : Nat :=
  let a := dBase d + g * dTp d + q * dRp d
  a / 0x400000 * 0x400000 + (a / 0x20000 % 32 + g * dRc d) % 32 * 0x20000 + a % 0x20000

/-- The cycle of the group on which row q is read. -/
def rowCycle (f : Fmt) (fmt q : Nat) : Nat := q * groupCycles f / tileRows fmt

/-- Access row and byte of element (e, k) (R208). -/
def elemPlace (o : Bool) (fmt e k : Nat) : Nat × Nat :=
  if fmt ≤ 1 then (if o then (k, e) else (e / 4, 32 * (e % 4) + k))
  else (if o then (2 * k + e / 64, 2 * (e % 64)) else (e / 2, 64 * (e % 2) + 2 * k))

/-- An element of a tile held as rows. -/
def tileElem (rows : Tab (BitVec 1024)) (o : Bool) (fmt e k : Nat) : Nat :=
  let (q, b) := elemPlace o fmt e k
  ((tabGetD 0 rows q) >>> (8 * b)).toNat % 2 ^ fmtBits fmt

/-! ### Gangs (R226) -/

/-- BLOCK mode of a gang of four. -/
def blockMode (w : Nat) (hm : Tab Word) : Bool := w = 4 && ((tabGetD 0 hm 0).extractLsb' 32 2).toNat = 1

/-- The slab whose rows serve slab k. -/
def srcA (w : Nat) (hm : Tab Word) (k : Nat) : Nat := if blockMode w hm then k / 2 * 2 else 0
def srcB (w : Nat) (hm : Tab Word) (k : Nat) : Nat := if blockMode w hm then k % 2 else k

/-- Slab k reads operand A, or B. -/
def readsOpd (w : Nat) (hm : Tab Word) (b : Bool) (k : Nat) : Bool :=
  (List.range w).any fun j => (if b then srcB w hm j else srcA w hm j) = k

/-! ### Shape registers (R211) -/

/-- 1..128; 0 or above 128 acts as 128. -/
def upTo128 (n : Nat) : Nat := if n = 0 || 128 < n then 128 else n

def hmRows (hm : Tab Word) : Nat := upTo128 ((tabGetD 0 hm 0).toNat % 65536)
def hmCols (hm : Tab Word) : Nat := upTo128 ((tabGetD 0 hm 0).extractLsb' 16 16).toNat
def hmDrows (hm : Tab Word) : Nat := upTo128 ((tabGetD 0 hm 1).extractLsb' 32 16).toNat
def hmDrp (hm : Tab Word) : Nat := (tabGetD 0 hm 1).toNat % 65536
def hmFrp (hm : Tab Word) : Nat := let n := (tabGetD 0 hm 2).toNat % 65536; if n = 0 then 16 else n

/-- Bytes of a drained row, and the pitch. -/
def drainLen (fmt : Nat) : Nat := 16 * fmtBits fmt
def drainPitch (hm : Tab Word) (fmt : Nat) : Nat := if hmDrp hm = 0 then drainLen fmt else hmDrp hm
def drainBase (mp : Tab Word) : Nat := (tabGetD 0 mp 5).toNat % 0x400000
def flagBase (mp : Tab Word) : Nat := (tabGetD 0 mp 6).toNat % 0x400000

/-- The output format of a drain: fmt.CFMT, or its own with X (R221). -/
def drainFmt (f : Fmt) (x : Bool) (code : BitVec 4) : Nat := if x then code.toNat else f.cfmt.toNat

/-! ### The microprogram store (R218, R225) -/

/-- The words of the standard routines, in the order of the table; where they lie among 0..511 is this model's choice
(DESIGN CHOICE, log 15). -/
def stdRoutines : List (List Instr) :=
  let a (o : Bool) : Instr := .mlda 0 o 0
  let b (o : Bool) : Instr := .mldb 0 o 1
  let step : Instr := .mstep 0 true false true
  [[a false, b true, step, .mhalt 0],
   [a false, b false, step, .mhalt 0],
   [a true, b true, step, .mhalt 0],
   [.mdrain 0 false true 0, a false, b true, step, .mhalt 0],
   [.mdrain 0 true false 0, .mhalt 0],
   [.mdrain 0 true false 2, .mhalt 0],
   [.mdrain 0 true false 4, .mhalt 0],
   [.mzero 0 false, .mhalt 0],
   [.mflag 0 false, .mhalt 0],
   [.mhad 0 false, .mdrain 0 false false 0, .mhalt 0],
   [.mhad 0 false, .mhalt 0],
   [.mswap 0, .mhalt 0],
   [.msnap 0, .mhalt 0],
   [.mzero 0 false, a false, b true, step, .mhalt 0],
   [.mdrain 0 false false 0, .mwait0 0, .mflag 0 false, .mhalt 0],
   [.mhalt 0]]

/-- Microword i of the store of a slab; a context word never written is 0. -/
def storeWord (m : Mx) (i : Nat) : Word :=
  if i < 512 then ((stdRoutines.flatten[i]?).bind encodeMicro).getD 0 else tabGetD 0 m.words i

/-- Microword i as it stands on cycle y: writes of MXLOAD in flight land by then (R217). -/
def storeWordAt (s : State) (t : TileName) (y i : Nat) : Word :=
  s.agenda.foldl (fun w e => match e.instr with
    | .operationLanding _ (.mxload u false j v) => if u = t && j = i && e.at_ ≤ y then v else w
    | _ => w) (storeWord (slabOf s t).mx i)

/-- The first microword of a routine; an entry never written is empty. -/
def storeEntry (m : Mx) (i : Nat) : Option Nat :=
  if i < 16 then some ((stdRoutines.take i).foldl (fun n r => n + r.length) 0) else tabGet m.entries i

/-! ### Banks -/

def accOf (m : Mx) (acc1 : Bool) : AccBank := if acc1 then m.acc1 else m.acc0
def putAcc (m : Mx) (acc1 : Bool) (b : AccBank) : Mx := if acc1 then { m with acc1 := b } else { m with acc0 := b }
def setBank (m : Mx) (acc1 : Bool) (st : BankState) : Mx := putAcc m acc1 { accOf m acc1 with st := st }

def modMx (s : State) (t : TileName) (f : Mx → Mx) : State := modSlab s t fun sl => { sl with mx := f sl.mx }

/-! ### The walk of a run (R213, R218, R228) -/

/-- What a walk knows of its slab: the microword that starts at a cycle, latched values, what the slab reads, its task's
banks, its V-path accesses. -/
structure WalkEnv where
  word  : Nat → Nat → Word
  fmt   : Fmt
  mp    : Tab Word
  hm    : Tab Word
  readA : Bool
  readB : Bool
  holds : Nat → Bool
  claimed : Nat → Nat → Bool

/-- Where a walk stands: cycle, microword, loop, group, descriptors, front bank, KINDs, the parked bank for the first
microword of a resume, the background operation (bank and last cycle), rows of R228 that hold with an address, V-path
claims, landing cycle. -/
structure Walk where
  u    : Nat
  upc  : Nat
  lc   : Nat
  loopStart : Nat
  gi   : Nat
  a    : MxDesc
  b    : MxDesc
  front : Bool
  kind0 : Bool
  kind1 : Bool
  override : Option Bool
  bg   : Option (Bool × Nat)
  bad  : List (Nat × Nat)
  claims : List (Nat × Nat)
  lands : Option Nat
deriving DecidableEq, Repr

/-- Rows of R228 by their place in the table, with class and cause. -/
def rowHad : Nat := 6
def rowKind : Nat := 7
def rowVreg : Nat := 8
def rowMicro : Nat := 9
def rowRange : Nat := 10
def rowAlign : Nat := 11
def rowProtect : Nat := 12
def rowBank : Nat := 13
def rowClash : Nat := 14
def rowOverlap : Nat := 15
def rowVpath : Nat := 16

def rowFault (r : Nat) : Nat × Nat :=
  match r with
  | 6 => (6, 6)
  | 7 => (6, 19)
  | 8 => (6, 17)
  | 9 => (6, 18)
  | 10 => (8, 4)
  | 11 => (8, 5)
  | 12 => (8, 6)
  | 13 => (8, 7)
  | 14 => (9, 19)
  | 15 => (9, 20)
  | _ => (9, 21)

def Walk.kind (w : Walk) (acc1 : Bool) : Bool := if acc1 then w.kind1 else w.kind0
def Walk.setKind (w : Walk) (acc1 k : Bool) : Walk := if acc1 then { w with kind1 := k } else { w with kind0 := k }
def Walk.note (w : Walk) (c : Bool) (row addr : Nat) : Walk := if c then { w with bad := w.bad ++ [(row, addr)] } else w

/-- A microword starts on a bank that a background operation still reads (R228 OVERLAP). -/
def Walk.startOn (w : Walk) (acc1 : Bool) : Walk :=
  w.note (match w.bg with | some (x, e) => x = acc1 && w.u ≤ e | none => false) rowOverlap 0

/-- The rows one scratchpad or register operand of a group breaks. -/
def opdRows (e : WalkEnv) (d : MxDesc) (fmt g : Nat) (w : Walk) : Walk :=
  if dVec d then w.note (if fmt ≤ 1 then 16 < dVf d else dVf d != 0) rowVreg 0
  else
    let w := w.note (dBase d % 128 != 0 || dRp d % 128 != 0 || dTp d % 128 != 0) rowAlign (dBase d)
    (List.range (tileRows fmt)).foldl (fun w q =>
      let a := rowAddr d g q
      (w.note (0x400000 ≤ a) rowRange a).note (!e.holds (a % 0x400000 / 0x20000)) rowBank a) w

/-- A and B rows read from one bank on one cycle (R210). -/
def clashAt (f : Fmt) (a b : MxDesc) (g : Nat) : Bool :=
  let fa := f.afmt.toNat
  let fb := f.bfmt.toNat
  !dVec a && !dVec b && (List.range (tileRows fa)).any fun q => (List.range (tileRows fb)).any fun r =>
    rowCycle f fa q = rowCycle f fb r && rowAddr a g q / 0x20000 = rowAddr b g r / 0x20000

/-- The checks of one group in one slab. -/
def walkGroup (e : WalkEnv) (w : Walk) : Walk :=
  let w1 := if e.readA then opdRows e w.a e.fmt.afmt.toNat w.gi w else w
  let w2 := if e.readB then opdRows e w.b e.fmt.bfmt.toNat w.gi w1 else w1
  w2.note (e.readA && e.readB && clashAt e.fmt w.a w.b w.gi) rowClash 0

/-- The rows that a drain, in units of 64 bytes, or a flag drain, in units of 16, writes; only a drain row may not cross a
bank. -/
def walkRows (e : WalkEnv) (w : Walk) (base pitch len n unit : Nat) : Walk :=
  let w := w.note (base % unit != 0 || pitch % unit != 0) rowAlign base
  let w := (List.range n).foldl (fun w i =>
    let a := base + i * pitch
    let w := w.note (0x400000 < a + len || (unit = 64 && a / 0x20000 != (a + len - 1) / 0x20000)) rowRange a
    let w := w.note (protectedAddr a) rowProtect a
    w.note (!e.holds (a % 0x400000 / 0x20000)) rowBank a) w
  let w := w.note (e.claimed (w.u + 1) (w.u + n)) rowVpath 0
  { w with claims := w.claims ++ [(w.u + 1, w.u + n)] }

/-- The next microword, after cost cycles. -/
def Walk.next (w : Walk) (cost : Nat) : Walk := { w with u := w.u + cost, upc := w.upc + 1, override := none }

/-- Cost of MWAIT0 and MHALT (R218). -/
def Walk.waitCost (w : Walk) : Nat := match w.bg with | some (_, e) => max 1 (e + 1 - w.u) | none => 1

/-- The microword after the MEND that closes the body at i; past the store when there is none. -/
def afterMend (word : Nat → Word) : Nat → Nat → Nat
  | 0, i => i
  | f + 1, i =>
    if 1023 < i then i else match decodeMicro 0 (word i) with | .mend _ => i + 1 | _ => afterMend word f (i + 1)

/-- The groups an MSTEP adds, one after another. -/
def walkGroups (e : WalkEnv) : Nat → Walk → Walk
  | 0, w => w
  | n + 1, w =>
    let w := walkGroup e w
    walkGroups e n { w with u := w.u + groupCycles e.fmt, gi := w.gi + 1 }

def pairDesc (mp : Tab Word) (pr : BitVec 2) (o : Bool) : MxDesc :=
  ⟨tabGetD 0 mp (2 * pr.toNat), tabGetD 0 mp (2 * pr.toNat + 1), o⟩

/-- An MSTEP costs nothing (R218, R229): no K, or X with no group left. -/
def stepIdle (x : Bool) (gi g : Nat) : Bool := g = 0 || (x && g ≤ gi)

/-- One microword of a walk; none when the run has ended. -/
def walkMicro (e : WalkEnv) (w : Walk) : Option Walk :=
  if 1023 < w.upc then none
  else
    let acc (bk : Bool) : Bool := xor w.front bk
    let first (bk : Bool) : Bool := w.override.getD (acc bk)
    let g := groupCount e.mp
    let k := intKind e.fmt
    match decodeMicro 0 (e.word w.u w.upc) with
    | .mlda _ x pr => some ({ w with a := pairDesc e.mp pr x, gi := 0 }.next 1)
    | .mldb _ x pr => some ({ w with b := pairDesc e.mp pr x }.next 1)
    | .mstep _ x bk _ =>
      if stepIdle x w.gi g then some (w.next 0)
      else
        let w := w.startOn (first bk)
        let w := (w.note (w.kind (first bk) != k) rowKind 0).setKind (first bk) k
        some ((walkGroups e (if x then g - w.gi else 1) w).next 0)
    | .mchk _ bk => some ((w.startOn (first bk)).next 1)
    | .mloop _ n =>
      if w.loopStart != 0 then none
      else
        let lc := if n = 0 then (tabGetD 0 e.mp 7).toNat % 4096 else n.toNat
        if lc = 0 then some { w with u := w.u + 1, upc := afterMend (e.word w.u) 1024 (w.upc + 1), override := none }
        else some ({ w with lc := lc, loopStart := w.upc + 1 }.next 1)
    | .mend _ =>
      if w.loopStart = 0 then none
      else if 1 < w.lc then some { w with u := w.u + 1, upc := w.loopStart, lc := w.lc - 1, override := none }
      else some ({ w with lc := 0, loopStart := 0 }.next 1)
    | .mhad _ bk => some (((w.startOn (acc bk)).note (w.kind (acc bk)) rowHad 0).next 128)
    | .mdrain _ x bk fmt =>
      let fm := drainFmt e.fmt x fmt
      let w := (w.startOn (acc bk)).note (match w.bg with | some (_, b) => w.u ≤ b | none => false) rowOverlap 0
      let w := w.note (x && 6 ≤ fmt.toNat) rowMicro 0
      let w := walkRows e w (drainBase e.mp) (drainPitch e.hm fm) (drainLen fm) (hmDrows e.hm) 64
      some ({ w with bg := some (acc bk, w.u + 128) }.next 1)
    | .mflag _ bk =>
      let w := (w.startOn (acc bk)).note (match w.bg with | some (_, b) => w.u ≤ b | none => false) rowOverlap 0
      let w := walkRows e w (flagBase e.mp) (hmFrp e.hm) 16 128 16
      some ({ w with bg := some (acc bk, w.u + 128) }.next 1)
    | .mzero _ bk => some (((w.startOn (acc bk)).setKind (acc bk) k).next 32)
    | .mswap _ => some ({ w with front := !w.front }.next 1)
    | .msnap _ =>
      let w := (w.startOn w.front).startOn (!w.front)
      some ((w.setKind (!w.front) (w.kind w.front)).next 32)
    | .mwait0 _ => some (w.next w.waitCost)
    | .mhalt _ => some { w with lands := some (w.u + w.waitCost) }
    | _ => some (w.next 1)

/-- The walk to its end: an MHALT gives the landing cycle; a run past the store or a bad loop breaks row MICRO. -/
def walkRun (e : WalkEnv) : Nat → Walk → Walk
  | 0, w => w.note true rowMicro 0
  | f + 1, w =>
    match walkMicro e w with
    | none => w.note true rowMicro 0
    | some w' => if w'.lands.isSome then w' else walkRun e f w'

/-- More microwords than any run has: each body at most 4,095 times, and no body inside a body. -/
def walkFuel : Nat := 2 ^ 23

/-- The earliest row that holds in a walk. -/
def firstRow (w : Walk) : Option (Nat × Nat) :=
  w.bad.foldl (fun b x => match b with | none => some x | some y => if x.1 < y.1 then some x else some y) none

end Sys2Proof.Machine
end

