-- ==== Sys2Proof/Machine/Matrix.lean ====
section
/-! DEFINITION. The instructions of M and the microwords of a routine (08_accumulator R212 to R229). -/

namespace Sys2Proof.Machine

/-- Place within a cycle of a microword's start: after the bundles, so that what it changes is seen on the next cycle
(R205). -/
def ordMicro : Nat := 110

/-- Place of a vector-register row read: before the bundles of the cycle (R209). -/
def ordVecRow : Nat := 31

/-! ### Walking the run of one slab -/

/-- A pending V-path access of a slab, an FLOAD row among them, has its array cycle in a range (R223). -/
def vpathClaimed (s : State) (t : TileName) (lo hi : Nat) : Bool :=
  (s.agenda.any fun e => lo ≤ e.at_ && e.at_ ≤ hi &&
    match e.instr with
    | .operationLanding _ (.vload t' _ ls) => t' = t && !ls.isEmpty
    | .operationLanding _ (.vstore t' ws _) => t' = t && !ws.isEmpty
    | _ => false) ||
  match (slabOf s t).fload with
  | some c => c + 1 ≤ hi && lo ≤ c + 48
  | none => false

/-- The environment of a walk in gang slab k. -/
def walkEnv (s : State) (g : TileName) (t : TileName) (k : Nat) (task : Nat) (f : Fmt) (mp hm : Tab Word)
    (word : Nat → Nat → Word) : WalkEnv :=
  let w := (gangOf s g).width
  ⟨word, f, mp, hm, readsOpd w hm false k, readsOpd w hm true k, holdsBank s task t, vpathClaimed s t⟩

/-- The shape registers of the engine, latched at a trigger. -/
def latchHm (sl : Slab) : Tab Word := (List.range 4).map fun i => (i, shapeOf sl i)

/-- The bound register that hm1.BND names, when bit 19 is set (R211, R213). -/
def latchBound (g : Gang) (hm : Tab Word) : Option Bound :=
  let h := tabGetD 0 hm 1
  if h.getLsbD 19 then some (tabGetD boundReset g.bd (h.extractLsb' 16 3).toNat) else none

/-- The walk of a new call in one slab. -/
def callWalk (s : State) (g t : TileName) (k task entry : Nat) : Walk :=
  let sl := slabOf s t
  let e := walkEnv s g t k task (gangOf s g).fmt sl.mx.mp (latchHm sl) (storeWordAt s t)
  walkRun e walkFuel
    ⟨s.now + 1, entry, 0, 0, 0, descReset, descReset, sl.mx.front, sl.mx.acc0.kind, sl.mx.acc1.kind, none, none, [], [],
      none⟩

/-- The KIND of acc0 and of acc1 when the zeroings and the copy under way have ended (R203, R216). -/
def kindsDue (s : State) (t : TileName) : Bool × Bool :=
  s.agenda.foldl (fun (k0, k1) e => match e.instr with
    | .operationLanding _ (.mxzeroEnd u acc1 k) => if u != t then (k0, k1) else if acc1 then (k0, k) else (k, k1)
    | .operationLanding _ (.mxsnap u f) => if u != t then (k0, k1) else if f then (k1, k1) else (k0, k0)
    | .operationLanding _ (.mxzero u b k) =>
      if u != t then (k0, k1) else (if b.getLsbD 0 then k else k0, if b.getLsbD 1 then k else k1)
    | _ => (k0, k1)) ((slabOf s t).mx.acc0.kind, (slabOf s t).mx.acc1.kind)

/-- The walk of the rest of a run in one slab for a task, from microword pc at cycle u with group gi, under format f. -/
def restWalk (s : State) (g t : TileName) (k task : Nat) (r : MxRun) (f : Fmt) (u pc gi : Nat) (bg : Bool)
    (word : Nat → Nat → Word) : Walk :=
  let sl := slabOf s t
  let e := walkEnv s g t k task f r.mp r.hm word
  walkRun e walkFuel
    ⟨u, pc, r.lc, r.loopStart, gi, r.a, r.b, sl.mx.front, (kindsDue s t).1, (kindsDue s t).2, r.parked,
      if bg then r.bg.map fun x => (x.acc1, x.at_ + 128) else none, [], [], none⟩

/-- The earliest row that holds in any slab, with the lowest slab in which it does: row, slab, address (R228). -/
def worstRow (ws : List Walk) : Option (Nat × Nat × Nat) :=
  ws.zipIdx.foldl (fun b (w, k) =>
    match firstRow w with
    | none => b
    | some (r, a) => match b with
      | none => some (r, k, a)
      | some (r', k', a') => if r < r' then some (r, k, a) else some (r', k', a')) none

/-! ### Microwords in turn -/

/-- Change the run of every slab of a gang. -/
def modRuns (s : State) (g : TileName) (f : MxRun → MxRun) : State :=
  forTiles s (gangTiles s g) fun s t => modMx s t fun m => { m with run := m.run.map f }

/-- The routine of a gang, as slab 0 holds it. -/
def runOf (s : State) (g : TileName) : Option MxRun := (slabOf s g).mx.run

/-- Pass over MSTEPs that cost nothing. -/
def skipIdle (word : Nat → Word) (gi g : Nat) : Nat → Nat → Nat
  | 0, i => i
  | f + 1, i =>
    match decodeMicro 0 (word i) with
    | .mstep _ x _ _ => if stepIdle x gi g then skipIdle word gi g f (i + 1) else i
    | _ => i

/-- The row of an operand that a slab reads. -/
def postRow (s : State) (own : Owner) (t : TileName) (b : Bool) (d : MxDesc) (f : Fmt) (fmt q g0 : Nat) : State :=
  postAct s own (g0 + rowCycle f fmt q) (if dVec d then ordVecRow else ordRead) (.mxrow t b q)

/-- Do f for each operand and each slab that reads it. -/
def forReaders (s : State) (g : TileName) (r : MxRun) (f : State → TileName → Bool → MxDesc → Nat → State) : State :=
  let w := (gangOf s g).width
  (gangTiles s g).zipIdx.foldl (fun s (t, k) =>
    let s := if readsOpd w r.hm false k then f s t false r.a r.fmt.afmt.toNat else s
    if readsOpd w r.hm true k then f s t true r.b r.fmt.bfmt.toNat else s) s

/-- The register rows of the first cycle u of a microword. -/
def startRows (s : State) (g : TileName) (r : MxRun) (ins : Instr) (u : Nat) : State :=
  match ins with
  | .mstep _ _ _ _ => forReaders s g r fun s t b d fmt => if dVec d then postRow s r.own t b d r.fmt fmt 0 u else s
  | _ => s

/-- The microword at upc starts at cycle u; a register row of its first cycle is read before the bundles of that cycle. -/
def startMicro (s : State) (g : TileName) (u upc gi : Nat) : State :=
  match runOf s g with
  | none => s
  | some r =>
    let m := (slabOf s g).mx
    let i := skipIdle (storeWord m) gi (groupCount r.mp) 1024 upc
    let s := modRuns s g fun r => { r with base := upc, upc := i }
    let ins := decodeMicro g (storeWord m i)
    let s := startRows s g r ins u
    postEv s u ordMicro 0 (some r.own) ins .none

/-- The next microword after cost cycles; the parked bank stands for one microword only.  It stays RUNNING when a resumed run's first
word, loaded in place of the parked one, names no bank (DESIGN CHOICE, log 179). -/
def nextMicro (s : State) (g : TileName) (r : MxRun) (cost : Nat) : State :=
  startMicro (modRuns s g fun r => { r with parked := none }) g (s.now + cost) (r.upc + 1) r.gi

/-- The microword at upc is under way from the present cycle on; an MSTEP that goes on with its next group already is (R229,
R230). -/
def underWay (s : State) (g : TileName) (step : Bool) : State :=
  modRuns s g fun r => if step && r.gupc = r.upc then r else { r with gupc := r.upc, since := s.now }

/-- A microword of a gang's running routine. -/
def microStep (g : TileName) (f : State → MxRun → State) (s : State) (step : Bool := false) :
    Host.Outcome State Fault Refusal :=
  match runOf s g with
  | some r => if r.skip then .next s else .next (f (underWay s g step) r)
  | none => .next s

/-- The bank a microword names (R203). -/
def bankOf (s : State) (g : TileName) (bk : Bool) : Bool := xor (slabOf s g).mx.front bk

/-- Set a bank's state in every slab. -/
def setBanks (s : State) (g : TileName) (acc1 : Bool) (st : BankState) : State :=
  forTiles s (gangTiles s g) fun s t => modMx s t fun m => setBank m acc1 st

/-! ### Residency (R220, R227) -/

/-- The lowest window slot of an operand's group tile that is not resident. -/
def missingSlot (s : State) (t : TileName) (d : MxDesc) (fmt g : Nat) : Option Nat :=
  if dVec d then none
  else
    let slots := (List.range (tileRows fmt)).map fun q => rowAddr d g q / 4096
    let bad := slots.filter fun n => 16 ≤ n && n < 1024 && tagValid (tagWord s t n) && !(slotOf (slabOf s t) n).res
    match bad with
    | [] => none
    | x :: xs => some (xs.foldl min x)

/-- The failing slot of gang slab k, A before B: slot, whether it holds B. -/
def residencyFail (s : State) (g t : TileName) (k : Nat) (r : MxRun) : Option (Nat × Bool) :=
  let w := (gangOf s g).width
  match (if readsOpd w r.hm false k then missingSlot s t r.a r.fmt.afmt.toNat r.gi else none) with
  | some n => some (n, false)
  | none =>
    (if readsOpd w r.hm true k then missingSlot s t r.b r.fmt.bfmt.toNat r.gi else none).map fun n => (n, true)

/-- Every slab parks at the present group (R220, R227); the V-path claims of what is skipped fall away. -/
def parkAll (s : State) (g : TileName) (r : MxRun) (acc1 : Bool) : State :=
  let ts := gangTiles s g
  let fails := ts.zipIdx.map fun (t, k) => (t, residencyFail s g t k r)
  let s := fails.foldl (fun s (t, fl) => modMx s t fun m =>
    let m := setBank m acc1 .parked
    { m with
      pgrp := BitVec.ofNat 16 r.gi
      pslot := match fl with | some x => BitVec.ofNat 10 x.1 | none => 0
      popb := match fl with | some x => x.2 | none => false
      pself := fl.isSome
      vclaims := m.vclaims.filter fun c => c.1 ≤ s.now }) s
  let s := modRuns s g fun r => { r with parked := some acc1, skip := true, rowsA := [], rowsB := [] }
  bumpCounter s g 7 ts.length

/-- The check of R220 for the present group fails in some slab. -/
def residencyBad (s : State) (g : TileName) (r : MxRun) : Bool :=
  (gangTiles s g).zipIdx.any fun (t, k) => (residencyFail s g t k r).isSome

/-! ### The microwords (R218) -/

def execMnop (g : TileName) (s : State) : Host.Outcome State Fault Refusal := microStep g (fun s r => nextMicro s g r 1) s

def execMlda (g : TileName) (x : Bool) (pr : BitVec 2) (s : State) : Host.Outcome State Fault Refusal :=
  microStep g (fun s r =>
    nextMicro (modRuns s g fun r => { r with a := pairDesc r.mp pr x, gi := 0 }) g { r with gi := 0 } 1) s

def execMldb (g : TileName) (x : Bool) (pr : BitVec 2) (s : State) : Host.Outcome State Fault Refusal :=
  microStep g (fun s r => nextMicro (modRuns s g fun r => { r with b := pairDesc r.mp pr x }) g r 1) s

/-- MSTEP: one group; with X the same microword goes on with the next group. -/
def execMstep (g : TileName) (x bk chk : Bool) (s : State) : Host.Outcome State Fault Refusal :=
  microStep g (fun s r =>
    let acc1 := r.parked.getD (bankOf s g bk)
    let n := groupCycles r.fmt
    if stepIdle x r.gi (groupCount r.mp) then nextMicro s g r 0
    else if chk && residencyBad s g r then parkAll s g r acc1
    else
      let s := setBanks s g acc1 .running
      let s := forReaders s g r fun s t b d fmt =>
        (List.range (tileRows fmt)).foldl (fun s q =>
          if q = 0 && dVec d then s else postRow s r.own t b d r.fmt fmt q s.now) s
      let s := postAct s r.own (s.now + n - 1) ordEval (.mxgroup g acc1)
      if x && r.gi + 1 < groupCount r.mp then
        let s := forReaders s g r fun s t b d fmt => if dVec d then postRow s r.own t b d r.fmt fmt 0 (s.now + n) else s
        postEv s (s.now + n) ordMicro 1 (some r.own) (.mstep g x bk chk) .none
      else nextMicro s g { r with gi := r.gi + 1 } n) s true

/-- MCHK: a bank that a resume had made RUNNING is IDLE again after it. -/
def execMchk (g : TileName) (bk : Bool) (s : State) : Host.Outcome State Fault Refusal :=
  microStep g (fun s r =>
    let acc1 := r.parked.getD (bankOf s g bk)
    if residencyBad s g r then parkAll s g r acc1
    else nextMicro (if r.parked.isSome then setBanks s g acc1 .idle else s) g r 1) s

def execMloop (g : TileName) (n : BitVec 12) (s : State) : Host.Outcome State Fault Refusal :=
  microStep g (fun s r =>
    let lc := if n = 0 then (tabGetD 0 r.mp 7).toNat % 4096 else n.toNat
    if lc = 0 then startMicro s g (s.now + 1) (afterMend (storeWord (slabOf s g).mx) 1024 (r.upc + 1)) r.gi
    else nextMicro (modRuns s g fun r => { r with lc := lc, loopStart := r.upc + 1 }) g r 1) s

def execMend (g : TileName) (s : State) : Host.Outcome State Fault Refusal :=
  microStep g (fun s r =>
    if 1 < r.lc then startMicro (modRuns s g fun r => { r with lc := r.lc - 1 }) g (s.now + 1) r.loopStart r.gi
    else nextMicro (modRuns s g fun r => { r with lc := 0, loopStart := 0 }) g r 1) s

def execMhad (g : TileName) (bk : Bool) (s : State) : Host.Outcome State Fault Refusal :=
  microStep g (fun s r =>
    let acc1 := bankOf s g bk
    nextMicro (postAct (setBanks s g acc1 .running) r.own (s.now + 127) ordEval (.mxhad g acc1)) g r 128) s

/-- A background operation: 128 rows on the cycles after its microword (R218, R221, R222). -/
def startBackground (s : State) (g : TileName) (r : MxRun) (acc1 flag : Bool) (fmt : BitVec 4) : State :=
  let s := setBanks s g acc1 .draining
  let s := modRuns s g fun x => { x with bg := some ⟨acc1, s.now, r.upc, fmt, flag⟩ }
  (List.range 128).foldl (fun s i => forTiles s (gangTiles s g) fun s t =>
    postAct s r.own (s.now + 1 + i) (ordWrite + 7) (.mxdrainRow t i)) s

def execMdrain (g : TileName) (x bk : Bool) (fmt : BitVec 4) (s : State) : Host.Outcome State Fault Refusal :=
  microStep g (fun s r =>
    nextMicro (startBackground s g r (bankOf s g bk) false (BitVec.ofNat 4 (drainFmt r.fmt x fmt))) g r 1) s

def execMflag (g : TileName) (bk : Bool) (s : State) : Host.Outcome State Fault Refusal :=
  microStep g (fun s r => nextMicro (startBackground s g r (bankOf s g bk) true 0) g r 1) s

def execMzero (g : TileName) (bk : Bool) (s : State) : Host.Outcome State Fault Refusal :=
  microStep g (fun s r =>
    let acc1 := bankOf s g bk
    let s := setBanks s g acc1 .running
    let s := forTiles s (gangTiles s g) fun s t =>
      postAct s r.own (s.now + 31) ordEval (.mxzeroEnd t acc1 (intKind r.fmt))
    nextMicro s g r 32) s

def execMswap (g : TileName) (s : State) : Host.Outcome State Fault Refusal :=
  microStep g (fun s r =>
    nextMicro (forTiles s (gangTiles s g) fun s t => modMx s t fun m => { m with front := !m.front }) g r 1) s

def execMsig (g : TileName) (n : BitVec 12) (s : State) : Host.Outcome State Fault Refusal :=
  microStep g (fun s r =>
    nextMicro (forTiles s (gangTiles s g) fun s t => modMx s t fun m => { m with sig := n.setWidth 8 }) g r 1) s

def execMsnap (g : TileName) (s : State) : Host.Outcome State Fault Refusal :=
  microStep g (fun s r =>
    let f := bankOf s g false
    let s := setBanks (setBanks s g f .draining) g (!f) .running
    let s := forTiles s (gangTiles s g) fun s t => postAct s r.own (s.now + 31) ordEval (.mxsnap t f)
    nextMicro s g r 32) s

/-- max(1, b − u + 1), b the last cycle of the background operation (R218). -/
def waitCost (s : State) (r : MxRun) : Nat :=
  match r.bg with
  | some b => max 1 (b.at_ + 128 + 1 - s.now)
  | none => 1

def execMwait0 (g : TileName) (s : State) : Host.Outcome State Fault Refusal :=
  microStep g (fun s r => nextMicro s g r (waitCost s r)) s

/-- MHALT: nothing more of the routine starts; it lands when the call fixed (R213). -/
def execMhalt (g : TileName) (s : State) : Host.Outcome State Fault Refusal :=
  microStep g (fun s _ => modRuns s g fun r => { r with skip := true, parked := none }) s

/-! ### The instructions (R212 to R217, R228) -/

/-- A trigger of M. -/
def mxStep (s : State) (g : BitVec 5) (port : Nat) (src : BitVec 9) (f : Issue → State → Owner → List TileName → State) :
    Host.Outcome State Fault Refusal :=
  slotStep s g port fun is s =>
    let ts := gangTiles s is.gang
    untagged s is ts src fun s => f is s (issueOwner s is) ts

/-- The lowest slab whose engine meets a condition. -/
def mxWhere (s : State) (ts : List TileName) (p : Mx → Bool) : Option Nat :=
  (ts.zipIdx.find? fun (t, _) => p (slabOf s t).mx).map (·.2)

/-- The landing of a call, a resume or an MXZERO. -/
def postRoutine (s : State) (own : Owner) (at_ : Nat) : State :=
  postEv s at_ ordLand 0 (some own) .routineLanding (.routineLanding own.gang)

/-- MXCALL (R213, R226, R228). DESIGN CHOICE (log 158): slab 0's routine index runs in every slab; RIDX is each slab's own. -/
def execMxcall (g : BitVec 5) (src : BitVec 9) (s : State) : Host.Outcome State Fault Refusal :=
  mxStep s g 608 src fun is s own ts =>
    let idx (t : TileName) : Nat := (readScalar s is t src).val.toNat % 64
    let gg := gangOf s is.gang
    match mxWhere s ts (·.busy) with
    | some k => raiseAux s own 9 16 0 k
    | none =>
      match mxWhere s ts mxParked with
      | some k => raiseAux s own 9 17 0 k
      | none =>
        match ts.zipIdx.find? fun (t, _) => (storeEntry (slabOf s t).mx (idx t)).isNone with
        | some (_, k) => raiseAux s own 6 16 0 k
        | none =>
          if mixedFmt gg.fmt then raise s own 6 1
          else
            let entry (t : TileName) : Nat := (storeEntry (slabOf s t).mx (idx t)).getD 0
            let ws := ts.zipIdx.map fun (t, k) => callWalk s is.gang t k gg.task (entry t)
            match worstRow ws with
            | some (r, k, a) => raiseAux s own (rowFault r).1 (rowFault r).2 (BitVec.ofNat 64 a) k
            | none =>
              let land := ((ws.headD ⟨0, 0, 0, 0, 0, descReset, descReset, false, false, false, none, none, [], [], none⟩).lands).getD 0
              let s := (ts.zip ws).foldl (fun s (t, w) => modSlab s t fun sl =>
                let hm := latchHm sl
                { sl with mx := { sl.mx with
                    ridx := BitVec.ofNat 6 (idx t), busy := true
                    vclaims := (sl.mx.vclaims.filter fun c => s.now ≤ c.2) ++ w.claims
                    run := some ⟨own, entry t, entry t, entry t, s.now + 1, land, 0, 0, 0, gg.fmt, sl.mx.mp, hm, latchBound gg hm, descReset, descReset,
                      [], [], none, none, false, []⟩ } }) s
              postRoutine (startMicro s is.gang (s.now + 1) (entry is.gang) 0) own land

/-- MXRESUME (R214). -/
def execMxresume (g : BitVec 5) (src : BitVec 9) (s : State) : Host.Outcome State Fault Refusal :=
  mxStep s g 610 src fun is s own ts =>
    let gg := gangOf s is.gang
    match mxWhere s ts (·.busy) with
    | some k => raiseAux s own 9 16 0 k
    | none =>
      match mxWhere s ts (fun m => !mxParked m), runOf s is.gang with
      | some k, _ => raiseAux s own 9 18 0 k
      | none, none => raise s own 9 18
      | none, some r =>
        if mixedFmt gg.fmt then raise s own 6 1
        else
          let ws := ts.zipIdx.map fun (t, k) =>
            restWalk s is.gang t k own.task ((slabOf s t).mx.run.getD r) gg.fmt (s.now + 1) r.upc r.gi false (storeWordAt s t)
          match worstRow ws with
          | some (x, k, a) => raiseAux s own (rowFault x).1 (rowFault x).2 (BitVec.ofNat 64 a) k
          | none =>
            let land := match ws.head? with | some w => w.lands.getD 0 | none => 0
            let acc1 := r.parked.getD false
            let s := (ts.zip ws).foldl (fun s (t, w) => modMx s t fun m =>
              { setBank m acc1 .running with
                busy := true, pgrp := 0, pslot := 0, popb := false, pself := false
                vclaims := (m.vclaims.filter fun c => s.now ≤ c.2) ++ w.claims
                run := m.run.map fun x =>
                  { x with own := own, gupc := x.upc, since := s.now + 1, land := land, fmt := gg.fmt, skip := false, rowsA := [], rowsB := [], bg := none } }) s
            postRoutine (startMicro s is.gang (s.now + 1) r.upc r.gi) own land

/-- MXSTAT (R215): the named slab's status at the start of c+1. -/
def execMxstat (g : BitVec 5) (src : BitVec 9) (s : State) : Host.Outcome State Fault Refusal :=
  mxStep s g 611 src fun is s own ts =>
    forTiles s ts fun st t =>
      postAct st own (s.now + 1) ordMxstat (.mxstat t (ts[(readScalar s is t src).val.toNat % 4]?))

def landMxstat (s : State) (own : Owner) (t : TileName) (from_ : Option TileName) : State :=
  landSl s own t 152 (.plain (match from_ with | some u => mstWord (slabOf s u).mx | none => 0))

/-- A bank starts an MXZERO; its park, if it is parked, is discarded (R204, R216). -/
def zeroStart (m : Mx) (acc1 : Bool) : Mx :=
  let parked := (accOf m acc1).st = .parked
  let m := setBank m acc1 .running
  if parked then { m with pgrp := 0, pslot := 0, popb := false, pself := false, run := none } else m

/-- MXZERO (R216). -/
def execMxzero (g : BitVec 5) (src : BitVec 9) (s : State) : Host.Outcome State Fault Refusal :=
  mxStep s g 612 src fun is s own ts =>
    match mxWhere s ts (·.busy) with
    | some k => raiseAux s own 9 16 0 k
    | none =>
      let kind := intKind (gangOf s is.gang).fmt
      let s := forTiles s ts fun st t =>
        let w := (readScalar s is t src).val
        let st := modMx st t fun m =>
          let m := if w.getLsbD 0 then zeroStart m false else m
          let m := if w.getLsbD 1 then zeroStart m true else m
          { m with busy := true }
        postLand st own (s.now + 32) (.mxzero t (w.setWidth 2) kind)
      postRoutine s own (s.now + 32)

/-- MXSWAP (R217). -/
def execMxswap (g : BitVec 5) (src : BitVec 9) (s : State) : Host.Outcome State Fault Refusal :=
  mxStep s g 613 src fun _ s own ts =>
    match mxWhere s ts (·.busy) with
    | some k => raiseAux s own 9 16 0 k
    | none => forTiles s ts fun s t => postLand s own (s.now + 1) (.mxswap t)

/-- The pending microword of a gang's routine: its cycle, and whether it goes on with a group of a started one. -/
def pendingMicro (s : State) (own : Owner) : Option (Nat × Bool × Instr) :=
  (s.agenda.find? fun e => e.ord = ordMicro && e.own = some own).map fun e => (e.at_, e.sub = 1, e.instr)

/-- A group of the routine is being summed. -/
def groupOpen (s : State) (g : TileName) : Bool :=
  s.agenda.any fun e => match e.instr with | .operationLanding _ (.mxgroup t _) => t = g | _ => false

/-- GI after the group that is being summed. -/
def nextGroup (s : State) (g : TileName) (r : MxRun) : Nat := if groupOpen s g then r.gi + 1 else r.gi

/-- A store's words with one replaced from cycle y on. -/
def wordsWith (words : Nat → Nat → Word) (idx y : Nat) (v : Word) (u i : Nat) : Word :=
  if y ≤ u && i = idx then v else words u i

/-- A store's words where the microword that is under way goes on on cycle c. -/
def wordsFrom (words : Nat → Nat → Word) (cur : Option (Nat × Instr)) (u i : Nat) : Word :=
  match cur with
  | some (c, ins) => if u = c then (encodeMicro ins).getD 0 else words u i
  | none => words u i

/-- The walks of the rest of a running or parked run of a slab, with the words of its store and with a new one (R217). -/
def wordWalks (s : State) (g t : TileName) (k idx : Nat) (v : Word) : Option (Walk × Walk) :=
  let words := storeWordAt s t
  match (slabOf s t).mx.run with
  | none => none
  | some r =>
    if r.parked.isSome && r.skip then
      let walk := restWalk s g t k (gangOf s g).task r r.fmt (s.now + 2) r.upc r.gi false
      some (walk words, walk (wordsWith words idx 0 v))
    else
      match pendingMicro s r.own with
      | none => none
      | some (u, cont, ins) =>
        let cur := if cont then some (u, ins) else none
        let walk := restWalk s g t k r.own.task r r.fmt u (if cont then r.upc else r.base) (nextGroup s g r) true
        some (walk (wordsFrom words cur), walk (wordsFrom (wordsWith words idx (s.now + 2) v) cur))

/-- A new microword changes the duration of a running or parked run of the gang, or makes a row hold for it (R217). -/
def wordBreaks (s : State) (g t : TileName) (k idx : Nat) (v : Word) : Bool :=
  match wordWalks s g t k idx v with
  | none => false
  | some (old, new) => new.lands != old.lands || new.bad.any fun x => !(old.bad.map (·.1)).contains x.1

/-- The V-path claims of a running run follow the new word (R217, R223). -/
def reclaim (s : State) (g t : TileName) (k idx : Nat) (v : Word) : State :=
  match wordWalks s g t k idx v, (slabOf s t).mx.busy with
  | some (old, new), true =>
    modMx s t fun m => { m with vclaims := m.vclaims.filter (fun c => !old.claims.contains c) ++ new.claims }
  | _, _ => s

/-- MXLOAD (R217). -/
def execMxload (g : BitVec 5) (src : BitVec 9) (s : State) : Host.Outcome State Fault Refusal :=
  mxStep s g 609 src fun is s own ts =>
    let w (t : TileName) : Word := (readScalar s is t src).val
    let v (t : TileName) : Word := (slOpd s is t 614).val
    let entry (t : TileName) : Bool := (w t).getLsbD 16
    match ts.zipIdx.find? fun (t, _) =>
        if entry t then (w t).toNat % 64 < 16 else (w t).toNat % 1024 < 512 with
    | some (_, k) => raiseAux s own 6 20 0 k
    | none =>
      match ts.zipIdx.find? fun (t, _) => !entry t && microReserved (v t) with
      | some (_, k) => raiseAux s own 6 21 0 k
      | none =>
        match ts.zipIdx.find? fun (t, k) => !entry t && wordBreaks s is.gang t k ((w t).toNat % 1024) (v t) with
        | some (_, k) => raiseAux s own 6 24 0 k
        | none => ts.zipIdx.foldl (fun st (t, k) =>
            if entry t then postLand st own (s.now + 2) (.mxload t true ((w t).toNat % 64) (v t &&& 0x3FF))
            else
              let i := (w t).toNat % 1024
              postLand (reclaim st is.gang t k i (v t)) own (s.now + 2) (.mxload t false i (v t))) s

/-- The pending microword of a run becomes another: a register row of its first cycle is read with it (R209, R217). -/
def replaceMicro (s : State) (r : MxRun) (ins : Instr) : State :=
  let g := r.own.gang
  match pendingMicro s r.own with
  | some (u, false, _) =>
    let s := { s with agenda := (s.agenda.filter fun e =>
        !(e.at_ = u && e.ord = ordVecRow && match e.instr with
          | .operationLanding o (.mxrow _ _ _) => decide (o = r.own)
          | _ => false)).map fun e =>
        if e.ord = ordMicro && e.own = some r.own && e.sub = 0 then { e with instr := ins } else e }
    startRows s g r ins u
  | _ => s

/-- The write of the store; a routine that comes to this word on or after this cycle uses it. -/
def landMxload (s : State) (t : TileName) (entry : Bool) (idx : Nat) (v : Word) : State :=
  let s := modMx s t fun m =>
    if entry then { m with entries := tabPut m.entries idx v.toNat } else { m with words := tabPut m.words idx v }
  match (slabOf s t).mx.run with
  | some r =>
    let m := (slabOf s t).mx
    let i := skipIdle (storeWord m) (nextGroup s t r) (groupCount r.mp) 1024 r.base
    let cont := match pendingMicro s r.own with | some (_, c, _) => c | none => true
    if !entry && t = r.own.gang && !cont && r.base ≤ idx && idx ≤ max i r.upc then
      replaceMicro (modRuns s t fun x => { x with upc := i }) { r with upc := i } (decodeMicro t (storeWord m i))
    else s
  | none => s

def landMxswap (s : State) (t : TileName) : State := modMx s t fun m => { m with front := !m.front }

/-- A zeroed bank (R203, R216). -/
def zeroBank (m : Mx) (acc1 kind : Bool) : Mx := putAcc m acc1 ⟨[], [], kind, .idle⟩

def landMxzero (s : State) (t : TileName) (banks : BitVec 2) (kind : Bool) : State :=
  modMx s t fun m =>
    let m := if banks.getLsbD 0 then zeroBank m false kind else m
    if banks.getLsbD 1 then zeroBank m true kind else m

def landMxzeroEnd (s : State) (t : TileName) (acc1 kind : Bool) : State := modMx s t fun m => zeroBank m acc1 kind

def landMxsnap (s : State) (t : TileName) (front1 : Bool) : State :=
  modMx s t fun m => putAcc (setBank m front1 .idle) (!front1) { accOf m front1 with st := .idle }

/-- ROUTINE_LANDING (R213, R229): BUSY clears; a bank that a numeric trap left returns to IDLE; a parked run stays. -/
def execRoutineLanding (s : State) : Host.Outcome State Fault Refusal :=
  match s.arg with
  | .routineLanding g =>
    .next (forTiles s (gangTiles s g) fun s t => modMx s t fun m =>
      let m := match m.run with | some r => r.release.foldl (fun m a => setBank m a .idle) m | none => m
      { m with busy := false, run := match m.run with | some r => if r.parked.isSome then some r else none | none => none })
  | _ => .fault .noOperand

/-! ### What a routine does at its array cycles -/

/-- One access row (R208, R209). -/
def landMxrow (s : State) (t : TileName) (b : Bool) (q : Nat) : State :=
  let sl := slabOf s t
  match sl.mx.run with
  | none => s
  | some r =>
    let d := if b then r.b else r.a
    let row : BitVec 1024 :=
      if dVec d then (tabGetD 0 sl.v (dVf d + q / 2)).extractLsb' (1024 * (q % 2)) 1024
      else BitVec.ofNat 1024 (padRead s t (rowAddr d r.gi q) 128)
    modMx s t fun m => { m with run := some (if b then { r with rowsB := tabPut r.rowsB q row }
                                             else { r with rowsA := tabPut r.rowsA q row }) }

/-- The products of element (i, j) of a group (03_element R72). -/
def groupProducts (r : MxRun) (rowsA rowsB : Tab (BitVec 1024)) (i j : Nat) : List (Num × Bool) :=
  let fa := r.fmt.afmt.toNat
  let fb := r.fmt.bfmt.toNat
  let sc := if intKind r.fmt then 0 else r.fmt.ascl.toInt + r.fmt.bscl.toInt
  (List.range 32).map fun k =>
    if kExtent r.mp ≤ 32 * r.gi + k then (.fin false 0 0, false)
    else mulNum sc (decodeFmt fa (tileElem rowsA r.a.o fa i k)) (decodeFmt fb (tileElem rowsB r.b.o fb j k))

/-- A bank's new elements and LSF bits after an update f of the elements i < rows, j < cols: the bank, and the flags. -/
def updateBank (b : AccBank) (rows cols : Nat) (f : Nat → Nat → BitVec 32 → BitVec 32 × Bool × FlagSet) :
    AccBank × FlagSet :=
  let out := (List.range rows).flatMap fun i => (List.range cols).map fun j =>
    (128 * i + j, f i j (tabGetD 0 b.el (128 * i + j)))
  let el := out.foldl (fun t x => if x.2.1 = 0 then tabDel t x.1 else tabPut t x.1 x.2.1) b.el
  let lsf := out.foldl (fun t x => if x.2.2.1 then tabPut t x.1 true else t) b.lsf
  ({ b with el := el, lsf := lsf }, out.foldl (fun a x => a.or x.2.2.2) .none)

/-- One element of a group: the alignment window, or the saturating integer sum (R72, R74). -/
def groupElem (r : MxRun) (rowsA rowsB : Tab (BitVec 1024)) (i j : Nat) (acc : BitVec 32) :
    BitVec 32 × Bool × FlagSet :=
  let ps := groupProducts r rowsA rowsB i j
  if intKind r.fmt then
    let v := ps.foldl (fun n p => n + scaled 0 p.1) acc.toInt
    let (c, fl) := toIntN 32 0 (ofScaled 0 v)
    (BitVec.ofNat 32 c, false, fl)
  else
    let (c, lost, inv) := windowGroup (16 + 8 * r.fmt.aw.toNat) acc.toNat ps
    (BitVec.ofNat 32 c, lost, if inv then invFlag else .none)

/-- The sum of a group in every slab at the end of its last cycle; a saturating INT8 group under STRICT OVFT adds nothing
in any slab (R74, R229, 11_group R270). -/
def landMxgroup (s : State) (g : TileName) (acc1 : Bool) : State :=
  match runOf s g with
  | none => s
  | some r0 =>
    let ts := gangTiles s g
    let w := (gangOf s g).width
    let rowsOf (b : Bool) (k : Nat) : Tab (BitVec 1024) :=
      match (ts[k]?).bind fun t => (slabOf s t).mx.run with
      | some r => if b then r.rowsB else r.rowsA
      | none => []
    let outs := ts.zipIdx.map fun (t, k) =>
      let m := (slabOf s t).mx
      let r := m.run.getD r0
      let (b, fl) := updateBank (accOf m acc1) (hmRows r.hm) (hmCols r.hm)
        (groupElem r (rowsOf false (srcA w r.hm k)) (rowsOf true (srcB w r.hm k)))
      (t, k, b, fl)
    let fl := outs.foldl (fun a x => a.or x.2.2.2) .none
    let s := if ownerLive s r0.own then setFlags s g fl else s
    let cont := match pendingMicro s r0.own with | some (_, c, _) => c | none => false
    let clear (s : State) : State := modRuns s g fun r => { r with rowsA := [], rowsB := [], gi := r.gi + 1 }
    match outs.find? fun x => intKind r0.fmt && x.2.2.2.cvovf && r0.fmt.strict.getLsbD 0 with
    | some (_, k, _, _) =>
      let s := modRuns s g fun r => { r with skip := true, parked := none, release := [acc1], rowsA := [], rowsB := [] }
      let s := forTiles s ts fun s t => modMx s t fun m => { m with vclaims := m.vclaims.filter fun c => c.1 ≤ s.now }
      raiseAux s r0.own 5 1 (BitVec.ofNat 64 r0.gupc) k
    | none =>
      let s := outs.foldl (fun s (t, _, b, _) => modMx s t fun m =>
        putAcc m acc1 { b with kind := intKind r0.fmt, st := if cont then .running else .idle }) s
      bumpCounter (clear s) g 6 ts.length

/-- Sign of the Sylvester matrix (R78). -/
def sylvester (k j : Nat) : Bool := popNat 7 (k &&& j) % 2 = 1

def negNum : Num → Num
  | .nan => .nan
  | .inf n => .inf (!n)
  | .fin n m e => .fin (!n) m e

/-- The Hadamard pass in every slab (R78). -/
def landMxhad (s : State) (g : TileName) (acc1 : Bool) : State :=
  let ts := gangTiles s g
  let outs := ts.map fun t =>
    let b := accOf (slabOf s t).mx acc1
    let (nb, fl) := updateBank b 128 128 fun i j _ =>
      let terms := (List.range 128).map fun k =>
        let x := decodeFmt 4 (tabGetD 0 b.el (128 * i + k)).toNat
        if sylvester k j then negNum x else x
      let (c, inv) := exactRne terms
      (BitVec.ofNat 32 c, false, if inv then invFlag else .none)
    (t, nb, fl)
  let live := match runOf s g with | some r => ownerLive s r.own | none => false
  let s := if live then setFlags s g (outs.foldl (fun a x => a.or x.2.2) .none) else s
  outs.foldl (fun s (t, b, _) => modMx s t fun m => putAcc m acc1 { b with st := .idle }) s

/-- One element of a drained row: its converted code, the flags of its check, the flags of its conversion, a bound trap,
with which nothing is converted (03_element R77, R79). -/
def drainElem (b : AccBank) (bound : Option Bound) (drnd fmt i j : Nat) : Nat × Bool × FlagSet × Bool :=
  let src := if b.kind then 5 else 4
  let code := (tabGetD 0 b.el (128 * i + j)).toNat
  let (rep, bf, tr) := match bound with | some bd => boundCheck bd (decodeFmt src code) | none => (none, false, false)
  if tr then (0, bf, .none, true)
  else
    let (c, f) := match rep with | some lo => convertFmt 4 fmt drnd lo | none => convertFmt src fmt drnd code
    (c, bf, f, false)

/-- One drained row of a bank: its packed bits, a flagged bound, the flags of its conversions, a bound trap (R79, R221). -/
def drainRow (b : AccBank) (bound : Option Bound) (drnd fmt i : Nat) : Nat × Bool × FlagSet × Bool :=
  let w := fmtBits fmt
  (List.range 128).foldr (fun j (n, bf, fl, tr) =>
    let (c, x, f, t) := drainElem b bound drnd fmt i j
    (n * 2 ^ w + c % 2 ^ w, bf || x, fl.or f, tr || t)) (0, false, .none, false)

/-- The check of every drained row of every slab on cycle u+1.  The bound check comes first: a bound trap stops the drain,
and nothing is converted (03_element R77, R79); else the conversions set their flags, or trap under STRICT (R221, R229).
That all flags of the drain are set on u+1 is this model's reading (log 129), and that a bound trap leaves no numeric trap
beside it (log 130).  The V path stays claimed for the rows of a drain that a trap has stopped (DESIGN CHOICE, log 178). -/
def drainCheck (s : State) (g : TileName) (r : MxRun) (bg : MxBg) : State :=
  let outs := (gangTiles s g).map fun t =>
    let m := (slabOf s t).mx
    let r := m.run.getD r
    (List.range (hmDrows r.hm)).foldl (fun (bf, fl, tr) i =>
      let (_, x, f, t) := drainRow (accOf m bg.acc1) r.bound r.fmt.drnd.toNat bg.fmt.toNat i
      (bf || x, fl.or f, tr || t)) (false, FlagSet.none, false)
  let flags (s : State) (fl : FlagSet) : State := if ownerLive s r.own then setFlags s g fl else s
  let s := flags s ⟨false, false, outs.any (·.1)⟩
  let stop (s : State) : State := modRuns s g fun r => { r with bg := r.bg.map fun b => { b with fmt := 15 } }
  let aux := BitVec.ofNat 64 bg.upc
  match outs.zipIdx.find? fun x => x.1.2.2 with
  | some (_, k) => raiseAux (stop s) r.own 7 0 aux k
  | none =>
    let s := flags s (outs.foldl (fun a x => a.or x.2.1) .none)
    match outs.zipIdx.findSome? fun x => (numericTrap r.fmt x.1.2.1).map fun c => (c, x.2) with
    | some (c, k) => raiseAux (stop s) r.own 5 c aux k
    | none => s

/-- Write a row through the V path: bytes, and DIRTY of its lines. -/
def rowStore (s : State) (t : TileName) (a n v : Nat) : State :=
  markDirty (padWrite s t a n v) t ((List.range ((n + 63) / 64)).map fun i => a + 64 * i)

/-- Row i of a drain or a flag drain (R221, R222); after the last one the bank is IDLE. -/
def landMxdrainRow (s : State) (t : TileName) (i : Nat) : State :=
  match (slabOf s t).mx.run with
  | none => s
  | some r0 =>
    match r0.bg with
    | none => s
    | some b0 =>
      let s := if i = 0 && t = r0.own.gang && !b0.flag then drainCheck s t r0 b0 else s
      let m := (slabOf s t).mx
      let r := m.run.getD r0
      let bg := r.bg.getD b0
      let bank := accOf m bg.acc1
      let s :=
        if bg.flag then
          let bits := (List.range 128).foldl (fun n j => if tabGetD false bank.lsf (128 * i + j) then n + 2 ^ j else n) 0
          let s := rowStore s t (flagBase r.mp + i * hmFrp r.hm) 16 bits
          modMx s t fun m => putAcc m bg.acc1 { accOf m bg.acc1 with
            lsf := (accOf m bg.acc1).lsf.filter fun e => e.1 / 128 != i }
        else if bg.fmt.toNat = 15 || hmDrows r.hm ≤ i then s
        else
          let (n, _, _, _) := drainRow bank r.bound r.fmt.drnd.toNat bg.fmt.toNat i
          rowStore s t (drainBase r.mp + i * drainPitch r.hm bg.fmt.toNat) (drainLen bg.fmt.toNat) n
      if i = 127 then
        modMx s t fun m => { setBank m bg.acc1 .idle with run := m.run.map fun r => { r with bg := none } }
      else s

end Sys2Proof.Machine
end

