-- ==== Sys2Proof/Machine/Ports.lean ====
section
/-! DEFINITION. What the host does through its ports: mailboxes, doorbells, host windows (18_link R411 to R415, 04_scalar R90). -/

namespace Sys2Proof.Machine

/-- Contexts whose tiles are not issuing see a mailbox write at once (R90). -/
def mailboxOpen (st : CtxState) : Bool := st = .loading || st = .ready || st = .quiesced || st = .frozen

/-- HOST_MAILBOX_WRITE (R412): a name that is not slab 0 of a gang with a task is dropped and counted. -/
def execHostMailboxWrite (s : State) : Host.Outcome State Fault Refusal :=
  match s.arg with
  | .hostMailboxWrite t i v =>
    match tabGet s.gangs t with
    | none => .next { s with dropMbx := s.dropMbx + 1 }
    | some gg =>
      if gg.seq = .idle then .next { s with dropMbx := s.dropMbx + 1 }
      else if mailboxOpen (ctxOf s gg.ctx).st then
        .next (modGang s t fun gg => { gg with mbx := tabPut gg.mbx i.toNat v })
      else .next (modGang s t fun gg => { gg with mbxPend := tabPut gg.mbxPend i.toNat v })
  | _ => .fault .noOperand

/-- DOORBELL_WRITE (R413): refused and counted for a STATIC tile and for a tile with no task. -/
def execDoorbellWrite (s : State) : Host.Outcome State Fault Refusal :=
  match s.arg with
  | .doorbellWrite port t v =>
    let drop : State := { s with dropDb := s.dropDb + 1 }
    match gangAt s t with
    | none => .next drop
    | some g =>
      let gg := gangOf s g
      if gg.seq = .idle || !gg.tctl.event then .next drop
      else .next (postEvent s g 0x10000 (eventWord 0 (BitVec.ofNat 16 port) (v.setWidth 40)))
  | _ => .fault .noOperand

/-- The context and the first address of an enabled window. -/
def windowBase (s : State) (w : Nat) : Option (Nat × Nat) :=
  match tabGet s.windows w with
  | some (base, c, true) => some (c, base.toNat)
  | _ => none

/-- A write for a context that no gang of it makes. -/
def hostOwner (s : State) (c : Nat) : Owner := ⟨c, 0, (ctxGangs s c).headD 0, false, 0, 0xFF, 0, s.now⟩

/-- Bytes of a write that lie in one window. -/
def windowPiece (s : State) (w off : Nat) (bs : List Byte) : State :=
  if bs.isEmpty then s
  else
    match windowBase s w with
    | none => { s with dropWin := s.dropWin + 1 }
    | some (c, base) =>
      let (s, ok) := gvaLogged s (hostOwner s c) (base + off) bs
      if ok then s else { s with dropWin := s.dropWin + 1 }

/-- HOST_WINDOW_WRITE (R414): lines of a page that is missing or has W = 0 are dropped and counted; a window that is not
enabled maps no page; bytes past the 4 GiB of a window lie in the next one (R411). -/
def execHostWindowWrite (s : State) : Host.Outcome State Fault Refusal :=
  match s.arg with
  | .hostWindowWrite w off bs =>
    .next (windowPiece (windowPiece s w off (bs.take (2 ^ 32 - off))) (w + 1) 0 (bs.drop (2 ^ 32 - off)))
  | _ => .fault .noOperand

/-- The byte at an offset of BAR2: all ones in a page that is missing or has W = 0 (R411, R414). -/
def windowByte (s : State) (a : Nat) : Byte :=
  match windowBase s (a / 2 ^ 32) with
  | none => 0xFF
  | some (c, base) =>
    let va := base + a % 2 ^ 32
    match walk (ctxOf s c) (va / 4096) with
    | some l => if l.w then memRead s.vault (vaultKey l.home l.frame (va % 4096)) else 0xFF
    | none => 0xFF

/-- HOST_WINDOW_READ (R414). -/
def execHostWindowRead (s : State) : Host.Outcome State Fault Refusal :=
  match s.arg with
  | .hostWindowRead w off n =>
    .next (tell s (.windowRead ((List.range n).map fun i => windowByte s (w * 2 ^ 32 + off + i))))
  | _ => .fault .noOperand

/-! ### The two windows of a host port (R411) -/

/-- What an offset of BAR0 names. -/
inductive BarPlace where
  | ring (offset : Nat)
  | mailbox (tile : TileName) (i : BitVec 3)
  | doorbell (tile : TileName)
deriving DecidableEq, Repr

/-- Command and completion rings from 0, mailbox i of name n at 0x40_0000 + 64n + 8i, doorbell of n at 0x80_0000 + 8n. -/
def barPlace (a : Nat) : Option BarPlace :=
  if a < 0x400000 then some (.ring a)
  else if a < 0x800000 then some (.mailbox ((a - 0x400000) / 64) (BitVec.ofNat 3 ((a - 0x400000) / 8)))
  else if a < 0x880000 then some (.doorbell ((a - 0x800000) / 8))
  else none

/-- The event that an aligned 8-byte host write to BAR0 through a port is; the command rings carry the commands of the host
themselves. -/
def barWrite (port a : Nat) (v : Word) : Option (Instr × Operand) :=
  match barPlace a with
  | some (.mailbox t i) => some (.hostMailboxWrite, .hostMailboxWrite t i v)
  | some (.doorbell t) => some (.doorbellWrite, .doorbellWrite port t v)
  | _ => none

/-- The value that an aligned 8-byte host read of BAR0 returns: a mailbox's, 0 for a tile with no task; a doorbell's is 0
(R412, R413). -/
def barRead (s : State) (a : Nat) : Option Word :=
  match barPlace a with
  | some (.mailbox t i) =>
    some (match tabGet s.gangs t with | some g => if g.seq = .idle then 0 else tabGetD 0 g.mbx i.toNat | none => 0)
  | some (.doorbell _) => some 0
  | _ => none

/-- The event that a host write to an offset of BAR2 is. -/
def windowWrite (a : Nat) (bs : List Byte) : Instr × Operand :=
  (.hostWindowWrite, .hostWindowWrite (a / 2 ^ 32) (a % 2 ^ 32) bs)

end Sys2Proof.Machine
end

