-- ==== Sys2Proof/Machine/Object.lean ====
section
/-! DEFINITION. A code object as the loader reads it, and the checks of its own form (14_kernel R316 to R326, R331, R333). -/

namespace Sys2Proof.Machine

/-! ### Bytes -/

/-- n bytes from an offset, little-endian. -/
def natAt (o : List Byte) (off n : Nat) : Nat := ((o.drop off).take n).foldr (fun b acc => b.toNat + 256 * acc) 0

/-- The first error of a list of checks. -/
def firstError {α : Type} (xs : List (Option α)) : Option α := xs.findSome? id

/-- A refusal: code, section, record (R328). -/
abbrev LoadErr := Nat × Nat × Nat

/-! ### Header and sections (R316 to R319) -/

structure Sect where
  kind : Nat
  link : Nat
  off  : Nat
  size : Nat
  info : Nat
deriving DecidableEq, Repr

def hdrMuast (o : List Byte) : Bool := natAt o 12 4 % 2 = 1
def hdrCodePref (o : List Byte) : Nat := natAt o 16 4
def hdrNbundle (o : List Byte) : Nat := natAt o 20 4
def hdrDataPref (o : List Byte) : Nat := natAt o 24 8
def hdrDataSize (o : List Byte) : Nat := natAt o 32 8

def sectAt (o : List Byte) (i : Nat) : Sect :=
  let b := natAt o 40 4 + 32 * i
  ⟨natAt o b 4, natAt o (b + 4) 4, natAt o (b + 8) 8, natAt o (b + 16) 8, natAt o (b + 24) 4⟩

/-- The sections with their numbers. -/
def sects (o : List Byte) : List (Nat × Sect) := (List.range (natAt o 10 2)).map fun i => (i, sectAt o i)

def sectsOf (o : List Byte) (kind : Nat) : List (Nat × Sect) := (sects o).filter fun e => e.2.kind = kind

def contents (o : List Byte) (x : Sect) : List Byte := (o.drop x.off).take x.size

/-- The records of n bytes of a section, with their numbers. -/
def records (o : List Byte) (x : Sect) (n : Nat) : List (Nat × List Byte) :=
  (List.range (x.size / n)).map fun i => (i, (o.drop (x.off + n * i)).take n)

/-- Kernel descriptors. -/
def kernelRecs (o : List Byte) : List (Nat × Nat × List Byte) :=
  (sectsOf o 11).flatMap fun e => (records o e.2 32).map fun r => (e.1, r)

/-- The CRC of an object: its own four bytes read as 0. -/
def objectCrc (o : List Byte) : Nat := (crc32 (o.take 60 ++ [0, 0, 0, 0] ++ o.drop 64)).toNat

def headerOk (o : List Byte) : Bool :=
  let n := natAt o 10 2
  let so := natAt o 40 4
  64 ≤ o.length && natAt o 0 4 = 0x4F5A4C47 && natAt o 4 2 = 1 && natAt o 60 4 = objectCrc o &&
    natAt o 12 4 < 2 && natAt o 44 16 = 0 && 1 ≤ n && n ≤ 1024 && so % 8 = 0 && so + 32 * n ≤ o.length &&
    hdrDataPref o % 4096 = 0 && 1 ≤ natAt o 6 2 && natAt o 6 2 ≤ natAt o 8 2

/-- A section that the object may not have, or has in another size: CODE is one section of NBUNDLE bundles, of an object
with no portable form, and the last DATA section ends DATASIZE bytes of DATA. -/
def sectFits (o : List Byte) (e : Nat × Sect) : Bool :=
  match e.2.kind with
  | 1 => !hdrMuast o && e.2.size = 32 * hdrNbundle o && ((sectsOf o 1).head?.map (·.1)) = some e.1
  | 12 => decide ((((sectsOf o 12).filter fun x => x.1 ≤ e.1).map fun x => x.2.size).sum ≤ hdrDataSize o) &&
      (((sectsOf o 12).any fun x => e.1 < x.1) || ((sectsOf o 12).map fun x => x.2.size).sum = hdrDataSize o)
  | 13 => hdrMuast o
  | 14 => hdrMuast o
  | _ => true

/-- A body is there, and DATA when DATASIZE is not 0. -/
def bodyOk (o : List Byte) : Bool :=
  !(sectsOf o (if hdrMuast o then 13 else 1)).isEmpty && (hdrDataSize o = 0 || !(sectsOf o 12).isEmpty)

/-- A section's type, link, reserved word and bounds. -/
def sectOk (o : List Byte) (i : Nat) (x : Sect) : Bool :=
  let perKernel := x.kind = 9 || x.kind = 10 || x.kind = 15
  1 ≤ x.kind && x.kind ≤ 15 && natAt o (natAt o 40 4 + 32 * i + 28) 4 = 0 && x.off + x.size ≤ o.length &&
    (if perKernel then decide (x.link < (kernelRecs o).length) else x.link = 0)

/-- Bytes of a record of each type; 1 for plain contents. -/
def recordSize (kind : Nat) : Nat :=
  match kind with
  | 1 => 32
  | 3 => 8
  | 4 => 24
  | 5 => 24
  | 7 => 8
  | 8 => 8
  | 9 => 2
  | 10 => 8
  | 11 => 32
  | 13 => 8
  | 14 => 8
  | 15 => 16
  | _ => 1

/-- Codes and reserved fields of a record. -/
def recordOk (kind : Nat) (r : List Byte) : Bool :=
  match kind with
  | 4 => natAt r 12 4 = 0
  | 5 => natAt r 4 1 ≤ 4 && natAt r 5 1 ≤ 1 && natAt r 20 4 = 0
  | 8 => !microReserved (BitVec.ofNat 64 (natAt r 0 8))
  | 10 => natAt r 0 8 < 2 ^ 35
  | 11 => (natAt r 8 1 = 1 || natAt r 8 1 = 2 || natAt r 8 1 = 4) && natAt r 9 1 ≤ 1 && 1 ≤ natAt r 10 1 && natAt r 10 1 ≤ 4 &&
      natAt r 11 1 = 0 && natAt r 28 4 = 0
  | 13 => natAt r 0 8 / 2 ^ 48 % 32 = 0
  | 15 => natAt r 0 8 < 2 ^ 10 && natAt r 0 1 < 64 && natAt r 8 8 < 2 ^ 49
  | _ => true

def recordError (o : List Byte) (e : Nat × Sect) : Option LoadErr :=
  let n := recordSize e.2.kind
  if !sectOk o e.1 e.2 || !sectFits o e || e.2.size % n != 0 then some (1, e.1, 0)
  else if n = 1 then none
  else (records o e.2 n).findSome? fun r => if recordOk e.2.kind r.2 then none else some (1, e.1, r.1)

/-- Step 2 of R329: the header, then the sections in order, then what is missing. -/
def formatError (o : List Byte) : Option LoadErr :=
  if !headerOk o then some (1, 0, 0)
  else
    match (sects o).findSome? (recordError o) with
    | some e => some e
    | none => if bodyOk o then none else some (1, 0, 0)

/-! ### Symbols (R322) -/

structure Symb where
  name : List Byte
  kind : Nat
  global : Bool
  sect : Nat
  value : Nat
  got  : Option Nat
deriving DecidableEq, Repr

def strAt (o : List Byte) (off : Nat) : List Byte :=
  match sectsOf o 6 with
  | [] => []
  | e :: _ => ((contents o e.2).drop off).takeWhile (· != 0)

def symbOf (o : List Byte) (r : List Byte) : Symb :=
  let g := natAt r 16 4
  ⟨strAt o (natAt r 0 4), natAt r 4 1, natAt r 5 1 = 1, natAt r 6 2, natAt r 8 8, if g = 0xFFFFFFFF then none else some g⟩

/-- Section, number and symbol. -/
def symbols (o : List Byte) : List (Nat × Nat × Symb) :=
  (sectsOf o 5).flatMap fun e => (records o e.2 24).map fun r => (e.1, r.1, symbOf o r.2)

def symbAt (o : List Byte) (i : Nat) : Option Symb := ((symbols o)[i]?).map fun x => x.2.2

/-- The S of a global of an object already loaded into the context. -/
def globalS (k : Ctx) (name : List Byte) : Option Nat :=
  k.objects.findSome? fun e => (e.2.globals.find? fun g => g.1 = name).map fun g => g.2.1.toNat

/-- S after placement, none where nothing defines it. -/
def symbS (o : List Byte) (k : Ctx) (codeBase dataBase : Nat) (y : Symb) : Option Nat :=
  match y.kind with
  | 1 => some (codeBase + y.value)
  | 2 => some (dataBase + y.value)
  | 3 => some ((sectAt o y.sect).info + y.value)
  | 4 => some y.value
  | _ => globalS k y.name

/-! ### The portable form (R331, R333) -/

/-- The result port of the operation of a trigger port (02_bundle R42 to R47). -/
def resultPort (n : Nat) : Option Nat :=
  let within (a b : Nat) : Bool := a ≤ n && n ≤ b
  if within 141 143 || within 174 176 then some 129
  else if within 144 146 || within 177 179 then some 130
  else if within 159 165 || n = 167 || within 186 191 then some 131
  else if within 130 191 then some 128
  else if n = 269 || n = 270 then some 136
  else if within 276 279 then some 137
  else if within 323 330 || within 335 338 || n = 343 || n = 344 || within 349 356 || n = 361 || n = 366 then some 138
  else if within 453 458 then some 144
  else if within 459 469 || n = 480 || within 486 488 || n = 499 then some 142
  else if within 470 479 || within 493 497 then some 147
  else if n = 481 then some 143
  else if within 482 485 then some 149
  else if n = 489 then some 145
  else if n = 491 then some 146
  else if n = 498 then some 148
  else if n = 578 then some 150
  else if n = 594 then some 151
  else if n = 611 then some 152
  else if n = 645 then some 154
  else if within 646 648 then some 153
  else if n = 674 || n = 675 then some 155
  else if n = 687 then some 160
  else if n = 708 then some 161
  else if n = 723 then some 162
  else if n = 726 then some 163
  else none

/-- The port of the operation's result in the domain: a global load, an ordered load or an atomic that goes to another tile
delivers to l0.x (R44). -/
def domainPort (n : Nat) : Option Nat :=
  if (335 ≤ n && n ≤ 338) || n = 343 || n = 344 || (349 ≤ n && n ≤ 356) then some 139 else none

/-- The unit's first and second operand ports, and the third to fifth that a PRE gives. -/
def operandPorts (n : Nat) : List Nat :=
  if n < 192 then [128, 129]
  else if n < 320 then [256, 257]
  else if n < 384 then [320, 321, 322]
  else if n < 576 then [448, 449, 450, 451, 452]
  else if n < 592 then [576]
  else if n < 600 then [592]
  else if n < 640 then [614]
  else if n < 672 then [640, 641]
  else if n < 680 then [672, 673]
  else if n < 704 then [684]
  else if n < 720 then [704]
  else [720, 721]

/-- OP names MOVE, PRE or a trigger, exit or wait port, with the numbers of I0 and L0. -/
def muastOpOk (n : Nat) : Bool :=
  n = 0 || n = 1023 || n = 268 ||
    (!(194 ≤ n && n < 256) && !(384 ≤ n && n < 448) && ((triggerUnit n).isSome || isExit n) &&
      (match decodeSlot (BitVec.ofNat 24 (n * 512)) with | .ok _ => true | .error _ => false))

def muOp (w : Nat) : Nat := w / 2 ^ 54 % 1024
def muEnd (w : Nat) : Bool := w / 2 ^ 53 % 2 = 1
def muField (w i : Nat) : Nat := w / 2 ^ (16 * i) % 2 ^ 16

/-- The port that an operation triggers: its OP, or a MOVE's destination. -/
def muTrigger (w : Nat) : Nat := if muOp w = 0 then muField w 2 else muOp w

/-- A register that a portable operand may name. -/
def muSourceOk (p : Nat) : Bool :=
  (1 ≤ p && p < 64) || (97 ≤ p && p < 112) || (120 ≤ p && p < 128) || (192 ≤ p && p < 240 && p != 198 && p != 199) ||
    (256 ≤ p && p < 384)

/-- The source class of an operand of operation i of a kernel that begins at entry; none for a refused operand. DESIGN
CHOICE (log 163): bits 13..9 of a kind-3 operand must be 0. -/
def muClass (ops : List Nat) (entry i x : Nat) : Option PClass :=
  let d := x % 2 ^ 14
  match x / 2 ^ 14 with
  | 0 => some .s
  | 1 =>
    if d = 0 || i < entry + d then none
    else if (List.range d).any fun j => muEnd (ops[i - d + j]?.getD 0) then none
    else (resultPort (muOp (ops[i - d]?.getD 0))).map sourceClass
  | 2 => some .s
  | _ => if x % 2 ^ 14 < 512 && muSourceOk (x % 512) then some (sourceClass (x % 512)) else none

/-- An operand is one that R333 allows at a destination port. -/
def muOperandOk (ops : List Nat) (entry i x port : Nat) : Bool :=
  match muClass ops entry i x with
  | none => false
  | some c => x / 2 ^ 14 = 0 || classOk c (destClass port)

/-- Operation i of a portable kernel passes R333. -/
def muastOk (ops : List Nat) (entry i : Nat) : Bool :=
  let w := ops[i]?.getD 0
  let n := muOp w
  let opt := muField w 0
  let opa := muField w 1
  let opc := muField w 2
  let next := muOp (ops[i + 1]?.getD 0)
  muastOpOk n &&
    (if n = 0 then muOperandOk ops entry i opt opc
     else if n = 1023 then
       (((323 ≤ next && next < 384) || (453 ≤ next && next < 500)) && muastOpOk next && i + 1 < ops.length &&
         ([opa, opc, opt].zip ((operandPorts next).drop 2)).all fun e => muOperandOk ops entry i e.1 e.2)
     else
       muOperandOk ops entry i opt n &&
         ([opa, opc].zip (operandPorts n)).all fun e => muOperandOk ops entry i e.1 e.2)

/-- ENTRY and LENGTH of each kernel. -/
def kernelSpans (o : List Byte) : List (Nat × Nat) := (kernelRecs o).map fun r => (natAt r.2.2 0 4, natAt r.2.2 4 4)

/-- The operations of a portable body. -/
def muastOps (o : List Byte) : List Nat :=
  (sectsOf o 13).flatMap fun e => (records o e.2 8).map fun r => natAt r.2 0 8

/-- The kernel of an operation: its ENTRY; an operation of no kernel reaches back to the body's first. -/
def muEntry (o : List Byte) (i : Nat) : Nat :=
  match (kernelSpans o).find? fun k => k.1 ≤ i && i < k.1 + k.2 with
  | some k => k.1
  | none => 0

def muSection (o : List Byte) : Nat := match sectsOf o 13 with | e :: _ => e.1 | [] => 0

/-- Step 4: the first operation that R333 refuses. -/
def muastError (o : List Byte) : Option LoadErr :=
  let ops := muastOps o
  (List.range ops.length).findSome? fun i => if muastOk ops (muEntry o i) i then none else some (13, muSection o, i)

/-! ### The lowering (R331 to R333) -/

/-- The constants of a portable body. DESIGN CHOICE (log 164): an index past the pool names the constant 0. -/
def muConst (o : List Byte) (n : Nat) : Nat :=
  match sectsOf o 14 with
  | e :: _ => natAt (contents o e.2) (8 * n) 8
  | [] => 0

/-- A lowering as the loader takes it: bundles, and where the moves of each operation stand. -/
structure Lowering where
  code  : List (BitVec 256)
  place : List (List (Nat × Nat))
deriving DecidableEq, Repr

def lowering (o : List Byte) : Lowering :=
  let l := Config.lowerMuast ((sectsOf o 13).flatMap fun e => contents o e.2) ((sectsOf o 14).flatMap fun e => contents o e.2)
    Config.featureVersion
  ⟨l.1, l.2⟩

/-- Bundle and slot of move j of operation i; the trigger is move 0, an operand move that is not there stands with it. -/
def Lowering.at_ (l : Lowering) (i j : Nat) : Nat × Nat :=
  let ms := l.place[i]?.getD []
  (ms[j]?).getD (ms.headD (8192, 8))

def Lowering.slot (l : Lowering) (p : Nat × Nat) : BitVec 24 := bundleSlot (l.code[p.1]?.getD 0) p.2

def Lowering.ends (l : Lowering) (b : Nat) : Bool := hdrEnd (bundleHeader (l.code[b]?.getD 0))

/-- The first bundle of an operation, and the END bundle that follows its trigger. -/
def Lowering.first (l : Lowering) (i : Nat) : Nat := min (l.at_ i 0).1 (min (l.at_ i 1).1 (l.at_ i 2).1)

def Lowering.last (l : Lowering) (i : Nat) : Nat :=
  let b := (l.at_ i 0).1
  b + (((List.range l.code.length).drop b).takeWhile fun x => !l.ends x).length

/-- How far the ports of the unit that the lowering chose stand above those of the operation: I1 for I0, L1 for L0. -/
def unitShift (n port : Nat) : Nat := if port = n + 64 && ((130 ≤ n && n < 192) || (323 ≤ n && n ≤ 368)) then 64 else 0

/-- The operand of an operation that is a target (R331): the index of an operation. A MOVE gives an exit its target. -/
def targetField (w : Nat) : Option Nat :=
  let n := muTrigger w
  if n = 258 || n = 260 then some 0
  else if muOp w = 0 then none
  else if n = 266 || n = 267 then some 2
  else if n = 263 || n = 264 then some 1
  else none

/-- A move of the bundle carries a target, which the loader writes into the bundle's immediates (R331). -/
def Lowering.holdsTarget (l : Lowering) (ops : List Nat) (b : Nat) : Bool :=
  ops.zipIdx.any fun (w, i) =>
    match targetField w with
    | some f => muField w f / 2 ^ 14 = 2 && (l.at_ i f).1 = b
    | none => false

/-- The least latency of an access in the domain, of one hop and no seam: 10+2h+4s (R44). -/
def nearestReply : Nat := 12

/-- A move of operand x of operation i takes it from where R331 says: a producer's result port, a constant, a register. -/
def muMoveOk (o : List Byte) (l : Lowering) (ops : List Nat) (i x : Nat) (target : Bool) (p : Nat × Nat) : Bool :=
  let b := l.code[p.1]?.getD 0
  let w := l.slot p
  let src := (slotSource w).toNat
  match x / 2 ^ 14 with
  | 0 => true
  | 1 =>
    let j := i - x % 2 ^ 14
    let rp := (resultPort (muOp (ops[j]?.getD 0))).getD 0
    let up := unitShift (muOp (ops[j]?.getD 0)) (slotPort (l.slot (l.at_ j 0))).toNat
    let own (port : Nat) : Nat := if up = 0 then port else if port < 138 then port + 4 else port + 2
    (l.at_ j 0).1 < p.1 &&
      (src = own rp ||
        (domainPort (muOp (ops[j]?.getD 0))).any fun x => src = own x && decide ((l.at_ j 0).1 + nearestReply ≤ p.1))
  | 2 =>
    if target then src = 384 || src = 385
    else if 256 ≤ src && src < 384 then (BitVec.ofNat 7 src).signExtend 64 = BitVec.ofNat 64 (muConst o (x % 2 ^ 14))
    else 384 ≤ src && src < 388 && !l.holdsTarget ops p.1 &&
      immLong (bundleHeader b) src = BitVec.ofNat 64 (muConst o (x % 2 ^ 14))
  | _ => src = x % 512

/-- The operand of operation i that move j of it carries, and its port: trigger, first operand, second operand; a PRE gives
the third to fifth operand of the next operation. -/
def muMoves (ops : List Nat) (i : Nat) (l : Lowering) : List (Nat × Nat × Nat) :=
  let w := ops[i]?.getD 0
  let n := muOp w
  let opt := muField w 0
  let opa := muField w 1
  let opc := muField w 2
  if n = 0 then [(0, opt, opc)]
  else if n = 1023 then
    let next := muOp (ops[i + 1]?.getD 0)
    let up := unitShift next (slotPort (l.slot (l.at_ (i + 1) 0))).toNat
    (((operandPorts next).drop 2).zip [opa, opc, opt]).zipIdx.map fun (e, j) => (j, e.2, e.1 + up)
  else
    let up := unitShift n (slotPort (l.slot (l.at_ i 0))).toNat
    (0, opt, n + up) :: (((operandPorts n).take 2).zip [opa, opc]).zipIdx.map fun (e, j) => (j + 1, e.2, e.1 + up)

/-- The operation acts at the end of its block. -/
def actsAtEnd (n : Nat) : Bool :=
  isExit n || (263 ≤ n && n ≤ 265) || n = 268 || n = 269 || n = 271 || n = 272 || n = 364 || n = 368 || n = 707 || n = 726

/-- Cycles from a trigger to its result in a result port, where they are the same for every operation of the port and the
result does not wait for a block's end or another tile (R42 to R47). -/
def portLatency (n rp : Nat) : Option Nat :=
  if n = 269 || n = 726 then none
  else match rp with
  | 128 => some 1
  | 129 => some 3
  | 130 => some 18
  | 131 => some 1
  | 136 => some 1
  | 137 => some 1
  | 138 => some 4
  | 142 => some 2
  | 143 => some 3
  | 144 => some 4
  | 145 => some 5
  | 146 => some 12
  | 147 => some 2
  | 148 => some 2
  | 149 => some 8
  | 150 => some 7
  | 151 => some 1
  | 152 => some 1
  | 153 => some 1
  | 154 => some 256
  | 155 => some 1
  | 160 => some 4
  | 161 => some 4
  | 162 => some 4
  | _ => none

/-- The result of operation j stands in its port in bundle b: it has landed and no later one has (R332). -/
def Lowering.holds (l : Lowering) (ops : List Nat) (j b : Nat) : Bool :=
  let trig (k : Nat) : Nat := muTrigger (ops[k]?.getD 0)
  let up (k : Nat) : Nat := unitShift (trig k) (slotPort (l.slot (l.at_ k 0))).toNat
  let t := (l.at_ j 0).1
  match (resultPort (trig j)).bind (portLatency (trig j)) with
  | none => true
  | some lat =>
    t + lat ≤ b && (List.range ops.length).all fun k =>
      let tk := (l.at_ k 0).1
      k = j || resultPort (trig k) != resultPort (trig j) || up k != up j || tk ≤ t || b < tk + lat

/-- The source that reads the register of a destination port. -/
def registerSource (d : Nat) : Option Nat :=
  if 0 < d && d < 120 then some d
  else if 288 ≤ d && d < 296 then some (d - 48)
  else if 600 ≤ d && d < 608 then some (d - 376)
  else none

/-- A register that operation i reads in bundle b holds what the MOVEs before i, and none after it, wrote. -/
def Lowering.readsInOrder (l : Lowering) (ops : List Nat) (i src b : Nat) : Bool :=
  (List.range ops.length).all fun k =>
    let w := ops[k]?.getD 0
    muOp w != 0 || registerSource (muField w 2) != some src || k = i ||
      (if k < i then decide ((l.at_ k 0).1 < b) else decide (b ≤ (l.at_ k 0).1))

/-- No bundle ends from a to b − 1. -/
def Lowering.runsOn (l : Lowering) (a b : Nat) : Bool := (List.range (b - a)).all fun k => !l.ends (a + k)

/-- The operand that operation i latches at a port in bundle p stays latched up to its trigger in bundle t. -/
def Lowering.latched (l : Lowering) (ops : List Nat) (i port p t : Nat) : Bool :=
  (List.range ops.length).all fun k =>
    k = i || (muMoves ops k l).all fun (j, x, q) =>
      q != port || (x / 2 ^ 14 = 0 && j != 0) || decide ((l.at_ k j).1 < p) || decide (t < (l.at_ k j).1)

/-- The array cycles of an operation's accesses to a scratchpad, from its trigger to the first and the last of them, and
the turn within them, plain reads at 5 after all writes (06_region R138, R139, 07_vector R191, R193). -/
def arrayCycles (n : Nat) : Option (Nat × Nat × Nat) :=
  let within (a b : Nat) : Bool := a ≤ n && n ≤ b
  if within 323 330 || within 335 338 || n = 343 || n = 344 then some (2, 2, 5)
  else if within 331 334 || within 339 342 || n = 345 || n = 346 || within 349 356 then some (2, 2, 0)
  else if n = 723 then some (2, 2, 2)
  else if n = 489 || n = 491 then some (3, 3, 5)
  else if n = 490 then some (3, 3, 4)
  else if n = 492 then some (10, 10, 3)
  else if n = 577 then some (1, 48, 5)
  else none

/-- The accesses of operation k, which stands before operation i, act before those of i, unless both only read (R332). -/
def Lowering.actsInOrder (l : Lowering) (ops : List Nat) (k i : Nat) : Bool :=
  let trig (x : Nat) : Nat := muTrigger (ops[x]?.getD 0)
  let second (x : Nat) : Nat := if unitShift (trig x) (slotPort (l.slot (l.at_ x 0))).toNat = 0 then 0 else 1
  match arrayCycles (trig k), arrayCycles (trig i) with
  | some (_, last, u), some (first, _, v) =>
    (u = 5 && v = 5) ||
      decide (8 * ((l.at_ k 0).1 + last) + u + (if u = 0 then second k else 0) <
        8 * ((l.at_ i 0).1 + first) + v + (if v = 0 then second i else 0))
  | _, _ => true

/-- The operation uses the formats or a bound register, at its trigger or in an operand (03_element R70, R76). -/
def usesFormats (w : Nat) : Bool :=
  let n := muTrigger w
  let reads (x : Nat) : Bool := x / 2 ^ 14 = 3 && (x % 512 = 193 || (216 ≤ x % 512 && x % 512 < 224))
  (453 ≤ n && n < 500) || n = 578 || (608 ≤ n && n ≤ 613) || (List.range 3).any fun f => reads (muField w f)

/-- An operation that uses the formats and bounds does so no earlier than those that FMTSET or BNDSET before it set
(03_element R70: four cycles after the trigger). -/
def Lowering.formatsSet (l : Lowering) (ops : List Nat) (k i : Nat) : Bool :=
  let n := muTrigger (ops[k]?.getD 0)
  !(n = 274 || n = 275) || !usesFormats (ops[i]?.getD 0) || decide ((l.at_ k 0).1 + 4 ≤ l.first i)

/-- The bundles fire no move but those of the operations, and exchange no shape registers (R332). -/
def Lowering.noOther (l : Lowering) (ops : List Nat) : Bool :=
  l.code.zipIdx.all fun (b, n) => (List.range 4).all (fun k => !hdrSwap (bundleHeader b) k) && hdrLvl (bundleHeader b) = 0 &&
    (bundleSlots b).zipIdx.all fun (w, sl) =>
    neverFires w || slotPort w = 0 ||
      (List.range ops.length).any fun i => (muMoves ops i l).any fun (j, _, _) => l.at_ i j = (n, sl)

/-- The lowering keeps operation i: every move of it stands at its port with its operand, which is its producer's result or
the register in list order and stays latched up to the trigger, and not before the operation in front of it; it stays in its block with what acts at the block's end, and the block ends behind it
(R332). -/
def Lowering.keeps (l : Lowering) (o : List Byte) (ops : List Nat) (i : Nat) : Bool :=
  let n := muOp (ops[i]?.getD 0)
  let pre := muOp (ops[i - 1]?.getD 0)
  let blockStart := i - (((List.range i).reverse).takeWhile fun j => !muEnd (ops[j]?.getD 0)).length
  let waits := (List.range (i + 1 - blockStart)).any fun k => actsAtEnd (muTrigger (ops[blockStart + k]?.getD 0))
  let b := (l.at_ i 0).1
  let t := if n = 1023 then (l.at_ (i + 1) 0).1 else b
  b < l.code.length && (i = 0 || n = 1023 || pre = 1023 || (l.at_ (i - 1) 0).1 ≤ b) &&
    ((List.range i).all fun k => l.actsInOrder ops k i && l.formatsSet ops k i) &&
    ((muMoves ops i l).all fun (j, x, port) =>
      let p := l.at_ i j
      p.1 < l.code.length && p.2 < 8 && p.1 ≤ t &&
        (x / 2 ^ 14 = 0 && j != 0 || (slotGuard (l.slot p) = 0 && hdrFlag (bundleHeader (l.code[p.1]?.getD 0)) p.2 = 0 &&
          (slotPort (l.slot p)).toNat = port && muMoveOk o l ops i x (targetField (ops[i]?.getD 0) = some j) p &&
          (x / 2 ^ 14 != 1 || l.holds ops (i - x % 2 ^ 14) p.1) && (x / 2 ^ 14 != 3 || l.readsInOrder ops i (x % 512) p.1) &&
          (n = 0 || (j = 0 && n != 1023) || l.latched ops i port p.1 t)))) &&
    (if muEnd (ops[i]?.getD 0) then l.last i < (if i + 1 < ops.length then l.first (i + 1) else l.code.length)
     else !waits || l.runsOn b (if i + 1 < ops.length then (l.at_ (i + 1) 0).1 else l.code.length))

/-- The native bundles of the object and the span of each kernel in them, or the operation that does not lower; a body may
take the image's 8,192 bundles (R330, R333). -/
def nativeBody (o : List Byte) : Except LoadErr (List (BitVec 256) × List (Nat × Nat)) :=
  if hdrMuast o then
    let l := lowering o
    let ops := muastOps o
    match (List.range ops.length).find? fun i => !(l.noOther ops && l.keeps o ops i && l.last i < 8192) with
    | some i => .error (13, muSection o, i)
    | none => .ok (l.code, (kernelSpans o).map fun k => (l.first k.1, l.last (k.1 + k.2 - 1) + 1 - l.first k.1))
  else
    .ok ((sectsOf o 1).flatMap fun e => (records o e.2 32).map fun r => BitVec.ofNat 256 (natAt r.2 0 32), kernelSpans o)

end Sys2Proof.Machine
end

