-- ==== Sys2Proof/Machine/Loader.lean ====
section
/-! DEFINITION. The loader: placement, relocations, the checks in their order, and what a load leaves in its context (14_kernel R323 to R330, R338). -/

namespace Sys2Proof.Machine

/-! ### Placement (R330) -/

/-- Room that the loader has found: handle, code base, data base, routine starts by section. -/
structure Placing where
  handle   : Nat
  codeBase : Nat
  dataBase : Nat
  routines : List (Nat × Nat)
deriving DecidableEq, Repr

/-- The lowest free run of n places in lo..hi−1, beside the runs in use. -/
def lowestRun (used : List (Nat × Nat)) (lo hi n : Nat) : Option Nat :=
  ((List.range (hi - lo)).map (lo + ·)).find? fun a => a + n ≤ hi && used.all fun u => !rangesMeet a n u.1 u.2

def codeRuns (k : Ctx) : List (Nat × Nat) := k.objects.map fun e => (e.2.codeBase, e.2.nbundle)
def dataRuns (k : Ctx) : List (Nat × Nat) := k.objects.map fun e => (e.2.dataBase, e.2.dataSize)

def codeBaseFor (k : Ctx) (pref n : Nat) : Option Nat :=
  if pref + n ≤ 8192 && (codeRuns k).all fun u => !rangesMeet pref n u.1 u.2 then some pref
  else lowestRun (codeRuns k) 0 8192 n

/-- A range holds no object's DATA and each of its pages is mapped. -/
def dataFits (k : Ctx) (a n : Nat) : Bool :=
  (dataRuns k).all (fun u => u.2 = 0 || !rangesMeet a n u.1 u.2) &&
    (List.range ((n + 4095) / 4096)).all fun i => (walk k (a / 4096 + i)).isSome

/-- The mapped 4 KiB pages of a context, the lowest that fits. -/
def dataBaseFor (k : Ctx) (pref n : Nat) : Option Nat :=
  if n = 0 || dataFits k pref n then some pref
  else
    let cs := (ctxPages k).filterMap fun p => if dataFits k (4096 * p.1) n then some (4096 * p.1) else none
    match cs with
    | [] => none
    | c :: rest => some (rest.foldl min c)

/-- A start for each routine section, in order. -/
def routineStarts : List (Nat × Nat) → List (Nat × Nat) → Except Nat (List (Nat × Nat))
  | _, [] => .ok []
  | used, (sec, n) :: rest =>
    match lowestRun used 512 1024 n with
    | none => .error sec
    | some a => (routineStarts ((a, n) :: used) rest).map ((sec, a) :: ·)

def lowestHandle (k : Ctx) : Option Nat :=
  ((List.range 65535).map (· + 1)).find? fun h => (tabGet k.objects h).isNone

/-- Step 6 of R329: the lowest section that finds no room decides. -/
def placeObject (k : Ctx) (o : List Byte) (nb : Nat) : Except LoadErr Placing :=
  let sec (kind : Nat) : Nat := match sectsOf o kind with | e :: _ => e.1 | [] => 0
  let code := codeBaseFor k (hdrCodePref o) nb
  let data := dataBaseFor k (hdrDataPref o) (hdrDataSize o)
  let rs := routineStarts k.wordsUsed ((sectsOf o 8).map fun e => (e.1, e.2.size / 8))
  match lowestHandle k, code, data, rs with
  | some h, some c, some d, .ok r => .ok ⟨h, c, d, r⟩
  | none, _, _, _ => .error (6, 0, 0)
  | _, _, _, _ =>
    let full := (if code.isNone then [sec (if hdrMuast o then 13 else 1)] else []) ++ (if data.isNone then [sec 12] else []) ++
      (match rs with | .error x => [x] | .ok _ => [])
    .error (6, full.foldl min (full.headD 0), 0)

/-! ### Names taken (step 5) -/

def dupSymbols (o : List Byte) (k : Ctx) (sec : Nat) : Option LoadErr :=
  (symbols o).findSome? fun y =>
    if y.1 = sec && y.2.2.global && y.2.2.kind != 0 && (globalS k y.2.2.name).isSome then some (5, sec, y.2.1) else none

def dupError (o : List Byte) (k : Ctx) : Option LoadErr :=
  (sects o).findSome? fun e =>
    if e.2.kind = 5 then dupSymbols o k e.1
    else if e.2.kind = 8 then
      (let taken := k.objects.any fun x => x.2.routines.contains e.2.info
       let earlier := (sectsOf o 8).any fun x => x.1 < e.1 && x.2.info = e.2.info
       if taken || earlier then some (5, e.1, 0) else none)
    else none

/-! ### Relocations (R325 to R327) -/

/-- An object under way: its bundles, the contents of its sections, the fields patched so far. -/
structure LoadAcc where
  code  : List (BitVec 256)
  data  : Tab (List Byte)
  fields : List (Nat × Nat × Nat)
deriving DecidableEq, Repr

structure Reloc where
  sect : Nat
  kind : Nat
  slot : Nat
  off  : Nat
  sym  : Nat
  addend : Int
deriving DecidableEq, Repr

def relocOf (r : List Byte) : Reloc :=
  ⟨natAt r 0 2, natAt r 2 1, natAt r 3 1, natAt r 4 4, natAt r 8 4, (BitVec.ofNat 64 (natAt r 16 8)).toInt⟩

/-- Write bytes into a section's contents. -/
def patchBytes (l : List Byte) (off : Nat) (bs : List Byte) : List Byte := l.take off ++ bs ++ l.drop (off + bs.length)

/-- The slot source that a type needs. -/
def relocSource (kind src : Nat) : Bool :=
  match kind with
  | 2 => src = 384 || src = 385
  | 3 => src = 386
  | 4 => src = 387
  | 5 => src = 385
  | 6 => src = 385
  | _ => 256 ≤ src && src < 384

/-- The fields and values that a type patches: 0 IMMHI, 1 IMMLO, 2 + i the source of slot i. -/
def relocFields (kind slot : Nat) (v : Int) : List (Nat × Nat) :=
  let hi (x : Int) : Nat := (x % 2 ^ 20).toNat
  let lo : Nat := (v % 2 ^ 12).toNat
  match kind with
  | 3 => [(0, hi v)]
  | 4 => [(1, lo)]
  | 7 => [(2 + slot, (v % 128).toNat)]
  | _ => [(0, hi ((v + 0x800) / 4096)), (1, lo)]

/-- v lies in the range of its type. -/
def relocRange (kind src : Nat) (v sa : Int) : Bool :=
  match kind with
  | 2 => if src = 384 then -2 ^ 31 ≤ v && v < 2 ^ 31 else 0 ≤ v && v < 2 ^ 32
  | 3 => -2 ^ 31 ≤ sa && sa ≤ 0x7FFFF7FF
  | 5 => 0 ≤ v && v ≤ 8191
  | 6 => 0 ≤ v && v ≤ 0x3FFFFF
  | 7 => -64 ≤ v && v ≤ 63
  | _ => true

def patchField (b : BitVec 256) (f v : Nat) : BitVec 256 :=
  let put (lo n : Nat) : BitVec 256 :=
    (b &&& ~~~((BitVec.ofNat 256 (2 ^ n - 1)) <<< lo)) ||| (BitVec.ofNat 256 v <<< lo)
  if f = 0 then put 12 20 else if f = 1 then put 0 12 else put (64 + 24 * (f - 2)) 7

/-- Patch one bundle, if no earlier record gave one of the fields another value. -/
def patchBundle (acc : LoadAcc) (i : Nat) (fs : List (Nat × Nat)) : Option LoadAcc :=
  if fs.any fun f => acc.fields.any fun x => x.1 = i && x.2.1 = f.1 && x.2.2 != f.2 then none
  else
    some { acc with
      code := acc.code.zipIdx.map fun (b, j) => if j = i then fs.foldl (fun b f => patchField b f.1 f.2) b else b
      fields := fs.map (fun f => (i, f.1, f.2)) ++ acc.fields }

/-- The offset table's address and section. -/
def gotSect (o : List Byte) : Option (Nat × Sect) := (sectsOf o 3).head?

/-- One record: ABS64 patches contents, the others a bundle; else the code of its refusal. -/
def applyReloc (o : List Byte) (k : Ctx) (p : Placing) (acc : LoadAcc) (r : Reloc) : Except Nat LoadAcc :=
  match symbAt o r.sym, (sects o)[r.sect]? with
  | some y, some (_, x) =>
    match symbS o k p.codeBase p.dataBase y with
    | none => .error 4
    | some v0 =>
      let sa : Int := v0 + r.addend
      if r.kind = 1 then
        (if !(x.kind = 2 || x.kind = 12 || x.kind = 3) || r.off % 8 != 0 || x.size < r.off + 8 then .error 1
         else
           let bs := patchBytes (tabGetD [] acc.data r.sect) r.off (codeBytes 8 (sa % 2 ^ 64).toNat)
           .ok { acc with data := tabPut acc.data r.sect bs })
      else if r.kind = 0 || 7 < r.kind || x.kind != 1 || acc.code.length ≤ r.off || 7 < r.slot then .error 1
      else
        let src := (slotSource (bundleSlot (acc.code[r.off]?.getD 0) r.slot)).toNat
        if !relocSource r.kind src then .error 1
        else
          let v : Option Int :=
            if r.kind = 6 then
              (match gotSect o, y.got with | some g, some n => some (g.2.info + 8 * n + r.addend) | _, _ => none)
            else if r.kind = 3 then some ((sa + 0x800) / 4096)
            else some sa
          match v with
          | none => .error 4
          | some v =>
            if !relocRange r.kind src v sa then .error 3
            else match patchBundle acc r.off (relocFields r.kind r.slot v) with
              | some a => .ok a
              | none => .error 1
  | _, _ => .error 1

/-- Every record in order. -/
def applyRelocs (o : List Byte) (k : Ctx) (p : Placing) (acc : LoadAcc) : Except LoadErr LoadAcc :=
  ((sectsOf o 4).flatMap fun e => (records o e.2 24).map fun r => (e.1, r.1, relocOf r.2)).foldlM (fun acc r =>
    match applyReloc o k p acc r.2.2 with
    | .ok a => .ok a
    | .error c => .error (c, r.1, r.2.1)) acc

/-- The first bundle that would raise the illegal-bundle trap; 16 bundles of a block without END are one (02_bundle R53). -/
def badBundle : List (BitVec 256) → Nat → Nat → Option Nat
  | [], _, _ => none
  | b :: rest, i, run =>
    let e := hdrEnd (bundleHeader b)
    if (bundleOffender b).isSome || (run = 15 && !e) then some i else badBundle rest (i + 1) (if e then 0 else run + 1)

/-- The contents of the sections that the loader patches, with the offset table's slots written (R323). -/
def startData (o : List Byte) (k : Ctx) (p : Placing) : Tab (List Byte) :=
  let t := (sects o).foldl (fun t e => tabPut t e.1 (contents o e.2)) []
  match gotSect o with
  | none => t
  | some g =>
    (symbols o).foldl (fun t y =>
      match y.2.2.got, symbS o k p.codeBase p.dataBase y.2.2 with
      | some n, some v => tabPut t g.1 (patchBytes (tabGetD [] t g.1) (8 * n) (codeBytes 8 v))
      | _, _ => t) t

/-! ### Steps 7 to 14 (R329) -/

/-- Step 7. -/
def undefError (o : List Byte) (k : Ctx) : Option LoadErr :=
  (symbols o).findSome? fun y => if y.2.2.kind = 0 && (globalS k y.2.2.name).isNone then some (4, y.1, y.2.1) else none

/-- The value of a literal source of a slot (02_bundle R30, R36). -/
def literalOf (b : BitVec 256) (w : BitVec 24) : Option Word :=
  let n := (slotSource w).toNat
  if 256 ≤ n && n < 384 then some ((BitVec.ofNat 7 n).signExtend 64)
  else if 384 ≤ n && n < 388 then some (immLong (bundleHeader b) n)
  else none

/-- The bundles of the block that begins at an index. -/
def firstBlock (code : List (BitVec 256)) (i : Nat) : List (BitVec 256) :=
  let l := (code.drop i).take 16
  let n := (l.takeWhile fun b => !hdrEnd (bundleHeader b)).length
  l.take (n + 1)

/-- A slot of a kernel's first block fires: no loop level is active and every predicate that no earlier bundle wrote is 0
(04_scalar R81, 02_bundle R29, R31). -/
def firesFirst (before : List (BitVec 256)) (b : BitVec 256) (i : Nat) (w : BitVec 24) : Bool :=
  let k := (slotGuard w).toNat
  flagHolds none (hdrFlag (bundleHeader b) i) &&
    (k = 0 || (16 < k && before.all fun x => (bundleSlots x).all fun y => (slotPort y).toNat != 96 + (k - 16)))

/-- A kernel's first block fires a BANKWAIT whose literal mask names the banks. -/
def waitsBanks (code : List (BitVec 256)) (entry : Nat) (mask : Word) : Bool :=
  let bs := firstBlock code entry
  bs.zipIdx.any fun (b, j) => (bundleSlots b).zipIdx.any fun (w, i) =>
    ((slotPort w).toNat = 368 || (slotPort w).toNat = 432) && firesFirst (bs.take j) b i w &&
      (match literalOf b w with | some v => mask &&& v = mask | none => false)

/-- The banks 1 to 31 that a range meets. -/
def bankMask (a n : Nat) : Word :=
  BitVec.ofNat 64 ((((List.range 32).drop 1).filter fun j => rangesMeet a n (j * 0x20000) 0x20000).map (2 ^ ·)).sum

/-- The banks from 1 on that the constant blocks of an object meet: one BANKWAIT names them all (R338). -/
def constMask (o : List Byte) : Word :=
  (sectsOf o 2).foldl (fun m e => m ||| bankMask e.2.info e.2.size) 0

/-- Step 9 (R323, R338). -/
def constError (o : List Byte) (code : List (BitVec 256)) (entries : List Nat) : Option LoadErr :=
  (sects o).findSome? fun e =>
    let bad (b : Bool) : Option LoadErr := if b then some (7, e.1, 0) else none
    let meets (a n : Nat) : Bool := ((sectsOf o 2) ++ (sectsOf o 3)).any fun x => x.1 < e.1 && rangesMeet a n x.2.info x.2.size
    if e.2.kind = 3 then
      bad (e.2.info % 64 != 0 || e.2.info < 0x5000 || 0xC000 ≤ e.2.info || 0xC000 < e.2.info + e.2.size || meets e.2.info e.2.size ||
        (sectsOf o 3).head? != some e || (symbols o).any fun y => match y.2.2.got with | some n => e.2.size < 8 * n + 8 | none => false)
    else if e.2.kind = 2 then
      bad (e.2.info % 64 != 0 || e.2.info < 0x5000 || 0x400000 < e.2.info + e.2.size || meets e.2.info e.2.size ||
        rangesMeet e.2.info e.2.size 0xC000 0x4000 ||
        (bankMask e.2.info e.2.size != 0 && !entries.all fun i => waitsBanks code i (constMask o)))
    else if e.2.kind = 7 then bad ((sectsOf o 7).any fun x => x.1 < e.1 && x.2.info = e.2.info)
    else if e.2.kind = 5 then bad ((gotSect o).isNone && (symbols o).any fun y => y.2.2.got.isSome)
    else none

/-- Step 10. -/
def namesError (o : List Byte) : Option LoadErr :=
  (sectsOf o 9).findSome? fun e =>
    if 128 < e.2.size then some (8, e.1, 64)
    else (records o e.2 2).findSome? fun r => if namesTile (natAt r.2 0 2) then none else some (8, e.1, r.1)

/-- An entry of a switch program with a reserved bit or code (10_route R253, R254). -/
def routeEntryBad (w : Word) : Bool :=
  w.extractLsb' 37 27 != 0 || (List.range 4).any fun d => let x := entryOsrc w d; x = 6 || x = 7 || x = d + 1

/-- Step 11. -/
def routeError (o : List Byte) : Option LoadErr :=
  (sectsOf o 7).findSome? fun e =>
    let p := e.2.size / 8
    if 7 < e.2.info || p % 4 != 0 || 256 < p || p = 0 then some (9, e.1, 0)
    else (records o e.2 8).findSome? fun r => if routeEntryBad (BitVec.ofNat 64 (natAt r.2 0 8)) then some (9, e.1, r.1) else none

/-- The first word of a routine that step 12 refuses: loops are not nested, and an MHALT stands among the words. -/
def routineBad : List Word → Nat → Bool → Bool → Option Nat
  | [], i, _, halted => if halted then none else some (i - 1)
  | w :: rest, i, inLoop, halted =>
    match decodeMicro 0 w with
    | .mloop _ _ => if inLoop then some i else routineBad rest (i + 1) true halted
    | .mend _ => if inLoop then routineBad rest (i + 1) false halted else some i
    | .mdrain _ x _ fmt => if x && (6 ≤ fmt.toNat) then some i else routineBad rest (i + 1) inLoop halted
    | .mhalt _ => routineBad rest (i + 1) inLoop true
    | _ => routineBad rest (i + 1) inLoop halted

def sectWords (o : List Byte) (x : Sect) : List Word := (records o x 8).map fun r => BitVec.ofNat 64 (natAt r.2 0 8)

/-- Step 12. -/
def routineError (o : List Byte) : Option LoadErr :=
  (sectsOf o 8).findSome? fun e =>
    if e.2.info < 16 || 63 < e.2.info then some (10, e.1, 0)
    else (routineBad (sectWords o e.2) 0 false false).map fun i => (10, e.1, i)

/-- The literals that a bundle, or a portable operation, moves to c.qpoint; none for a value that is no literal. -/
def qpointMoves (o : List Byte) (code : List (BitVec 256)) (i : Nat) : List (Option Nat) :=
  if hdrMuast o then
    let w := (muastOps o)[i]?.getD 0
    let x := muField w 0
    if muTrigger w != 268 then []
    else if x / 2 ^ 14 = 2 then [some (muConst o (x % 2 ^ 14))]
    else if x / 2 ^ 14 = 3 && 256 ≤ x % 512 then [some ((BitVec.ofNat 7 x).signExtend 64 : Word).toNat]
    else [none]
  else
    let b := code[i]?.getD 0
    ((bundleSlots b).filter fun w => (slotPort w).toNat = 268 && !neverFires w).map fun w => (literalOf b w).map (·.toNat)

/-- Listed quiet points: section, record, index, kinds. -/
def qpointList (o : List Byte) : List (Nat × Nat × Nat × Nat) :=
  (sectsOf o 10).flatMap fun e => (records o e.2 8).map fun r => (e.1, r.1, natAt r.2 0 4, natAt r.2 4 1 % 8)

/-- Step 13: the first listed entry that its bundle does not bear out, and the first bundle that is not listed; of the two,
the one of the lower section. -/
def qpointError (o : List Byte) (code : List (BitVec 256)) : Option LoadErr :=
  let wrong := (qpointList o).findSome? fun q =>
    let ms := qpointMoves o code q.2.2.1
    if !ms.isEmpty && ms.all fun m => m = some q.2.2.2 then none else some (11, q.1, q.2.1)
  let sec := match sectsOf o (if hdrMuast o then 13 else 1) with | e :: _ => e.1 | [] => 0
  let n := if hdrMuast o then (muastOps o).length else code.length
  let unlisted := (List.range n).findSome? fun i =>
    if (qpointMoves o code i).isEmpty || (qpointList o).any fun q => q.2.2.1 = i then none else some (11, sec, i)
  match wrong with
  | none => unlisted
  | some e => if unlisted.isSome && sec < e.2.1 then unlisted else some e

/-- Step 14. -/
def undoError (o : List Byte) (k : Ctx) : Option LoadErr :=
  (kernelRecs o).findSome? fun r =>
    if k.ops.undoShare.getD 0 < natAt r.2.2 20 4 then some (12, r.1, r.2.1) else none

/-! ### What a load leaves -/

def kernelOf (o : List Byte) (spans : List (Nat × Nat)) (i : Nat) (r : List Byte) : Kernel :=
  let mine (kind : Nat) : List (Nat × Sect) := (sectsOf o kind).filter fun e => e.2.link = i
  let span := spans[i]?.getD (0, 0)
  { entry := span.1, length := span.2, gang := natAt r 8 1, event := natAt r 9 1 = 1
    levels := (List.range (natAt r 10 1)).map fun n => (natAt r (12 + 2 * n) 1, natAt r (13 + 2 * n) 1)
    undo := natAt r 20 4
    names := (mine 9).flatMap fun e => (records o e.2 2).map fun x => natAt x.2 0 2
    qpoints := (mine 10).flatMap fun e => (records o e.2 8).map fun x => (natAt x.2 0 4, natAt x.2 4 1 % 8)
    regions := (mine 15).flatMap fun e => (records o e.2 16).map fun x => (natAt x.2 0 1, natAt x.2 1 1 % 4, natAt x.2 8 8 % 2 ^ 49) }

def objectOf (o : List Byte) (k : Ctx) (p : Placing) (acc : LoadAcc) (spans : List (Nat × Nat)) : Object :=
  let data (e : Nat × Sect) : List Byte := tabGetD [] acc.data e.1
  { given := o, codeBase := p.codeBase, nbundle := acc.code.length, dataBase := p.dataBase, dataSize := hdrDataSize o
    kernels := (kernelRecs o).zipIdx.map fun (r, i) => kernelOf o spans i r.2.2
    consts := (sectsOf o 2 ++ sectsOf o 3).map fun e => (e.2.info, data e)
    routes := (sectsOf o 7).map fun e => (e.2.info, sectWords o e.2)
    routines := (sectsOf o 8).map fun e => e.2.info
    globals := (symbols o).filterMap fun y =>
      if y.2.2.global && y.2.2.kind != 0 then
        (symbS o k p.codeBase p.dataBase y.2.2).map fun v => (y.2.2.name, BitVec.ofNat 64 v, y.2.2.got)
      else none }

/-- The routine words and entries of the object. -/
def routineWords (o : List Byte) (p : Placing) : List (Nat × Word) × List (Nat × Nat) × List (Nat × Nat) :=
  let rs := (sectsOf o 8).zip p.routines
  (rs.flatMap fun x => (sectWords o x.1.2).zipIdx.map fun (w, i) => (x.2.2 + i, w), rs.map fun x => (x.1.2.info, x.2.2),
    rs.map fun x => (x.2.2, x.1.2.size / 8))

/-- Place the object: image, routine store in the context and in the tiles it runs on, DATA through the page table. -/
def commitLoad (s : State) (c : Nat) (o : List Byte) (p : Placing) (acc : LoadAcc) (spans : List (Nat × Nat)) : State :=
  let (ws, es, runs) := routineWords o p
  let obj := objectOf o (ctxOf s c) p acc spans
  let s := modCtx s c fun k =>
    { k with
      image := acc.code.zipIdx.foldl (fun t (b, i) => tabPut t (p.codeBase + i) b) k.image
      words := tabPuts k.words ws, entries := tabPuts k.entries es, wordsUsed := k.wordsUsed ++ runs
      objects := tabPut k.objects p.handle obj }
  let s := (heldTiles s c).foldl (fun s t => modSlab s t fun sl =>
    { sl with mx := { sl.mx with words := tabPuts sl.mx.words ws, entries := tabPuts sl.mx.entries es } }) s
  gvaWrite s c p.dataBase ((sectsOf o 12).flatMap fun e => tabGetD [] acc.data e.1)

/-- The bundle index that a target of operation i becomes (R331): the first bundle of the operation it names, or the END
bundle of its block for the end of a loop. -/
def muTarget (o : List Byte) (l : Lowering) (codeBase i f x : Nat) : Int :=
  let t := muConst o (x % 2 ^ 14)
  codeBase + (if f = 1 && ((muastOps o)[i]?.any fun w => muOp w = 263 || muOp w = 264) then l.last t else l.first t : Nat)

/-- The targets of a portable body turned into bundle indices. Two different targets in one bundle differ whatever the code
base, so step 4 finds them with the base 0. -/
def patchTargets (o : List Byte) (codeBase : Nat) (acc : LoadAcc) : Except LoadErr LoadAcc :=
  let l := lowering o
  let ops := muastOps o
  (List.range ops.length).foldlM (fun acc i =>
    let w := ops[i]?.getD 0
    match targetField w with
    | none => .ok acc
    | some f =>
      let x := muField w f
      if x / 2 ^ 14 != 2 then .ok acc
      else
        let p := l.at_ i f
        match patchBundle acc p.1 (relocFields 5 p.2 (muTarget o l codeBase i f x)) with
        | some a => .ok a
        | none => .error (13, muSection o, i)) acc

/-- The checks of R329 from step 2 on, and the object placed. -/
def loadSteps (s : State) (c : Nat) (o : List Byte) : Except LoadErr (State × Nat) := do
  let k := ctxOf s c
  let need (e : Option LoadErr) : Except LoadErr Unit := match e with | some x => .error x | none => .ok ()
  need (formatError o)
  need (if Config.featureVersion < natAt o 6 2 then some (2, 0, 0) else none)
  need (if hdrMuast o then muastError o else none)
  let body ← nativeBody o
  let _ ← (if hdrMuast o then patchTargets o 0 ⟨body.1, [], []⟩ else .ok ⟨body.1, [], []⟩)
  need (dupError o k)
  let p ← placeObject k o body.1.length
  need (undefError o k)
  let acc ← (if hdrMuast o then patchTargets o p.codeBase ⟨body.1, startData o k p, []⟩ else .ok ⟨body.1, startData o k p, []⟩)
  let acc ← applyRelocs o k p acc
  let codeSec := match sectsOf o (if hdrMuast o then 13 else 1) with | e :: _ => e.1 | [] => 0
  need ((badBundle acc.code 0 0).map fun i => (1, codeSec, i))
  need (constError o acc.code (body.2.map (·.1)))
  need (namesError o)
  need (routeError o)
  need (routineError o)
  need (qpointError o acc.code)
  need (undoError o k)
  return (commitLoad s c o p acc body.2, p.handle)

/-- The outcome word of a refusal (R328). -/
def loadWord (e : LoadErr) : Word := BitVec.ofNat 64 (e.1 + e.2.1 % 2 ^ 16 * 2 ^ 16 + e.2.2 % 2 ^ 32 * 2 ^ 32)

/-- LOAD_OBJECT: the outcome word goes to the host; a refused load changes nothing. -/
def execLoadObject (s : State) : Host.Outcome State Fault Refusal :=
  match s.arg with
  | .loadObject c o =>
    let st := (ctxOf s c).st
    if !(st = .loading || st = .ready || st = .quiesced) then .next (tell s (.load c (loadWord (14, 0, 0))))
    else
      match loadSteps s c o with
      | .error e => .next (tell s (.load c (loadWord e)))
      | .ok (s, h) => .next (tell s (.load c (BitVec.ofNat 64 (h * 2 ^ 32))))
  | _ => .fault .noOperand

end Sys2Proof.Machine
end

