-- ==== Sys2Proof/Machine/Link.lean ====
section
/-! DEFINITION. Links and the pod transport: training, errors, frames, acknowledgement and resending, failover, the 1588 clock (18_link R407 to R420, R426). -/

namespace Sys2Proof.Machine

/-! ### States (R408) -/

def stateCode : LinkState → Nat
  | .down => 0
  | .training => 1
  | .up => 2
  | .failed => 3

/-- The LINK event of a host or scale-out port: its number and its new state; the other payload bits are free (log 17). -/
def linkEvent (s : State) (port : Nat) (st : LinkState) : State :=
  let known := BitVec.ofNat 40 (stateCode st)
  let x := openBits (eventWord 4 (BitVec.ofNat 16 port) known)
  postToEventGangs s none 4 (eventWord 4 (BitVec.ofNat 16 port) ((x.setWidth 40 <<< 3) ||| known))

def linkTries (s : State) (l : LinkId) : Nat :=
  match s.links.find? fun e => e.1 = l with
  | some (_, _, n) => n
  | none => 0

/-- A link's state and failed attempts, with no event. -/
def putLink (s : State) (l : LinkId) (st : LinkState) (n : Nat) : State :=
  { s with links := if s.links.any fun e => e.1 = l then s.links.map fun e => if e.1 = l then (l, st, n) else e
                    else s.links ++ [(l, st, n)] }

/-- A link changes its state. -/
def setLink (s : State) (l : LinkId) (st : LinkState) : State :=
  let s := putLink s l st 0
  match l with
  | .seam _ _ => s
  | .host p => linkEvent s p st
  | .scale p => linkEvent s (64 + p) st

/-- No context runs or quiesces. -/
def moduleQuiet (s : State) : Bool := s.ctxs.all fun e => !freezable e.2.st

/-- Some context runs now: one whose resume cycle is still to come does not. -/
def contextRuns (s : State) : Bool := s.ctxs.any fun e => freezable e.2.st && e.2.resumeAt.isNone

/-- Seam links of the module in service do not change state while any context runs (R410). -/
def seamFixed (s : State) (l : LinkId) : Bool :=
  match l with
  | .seam _ _ => s.phase = .service && contextRuns s
  | _ => false

/-- The end of an attempt, at an open time and with an open outcome (log 10, log 20). -/
def postAttempt (s : State) (l : LinkId) : State :=
  let k := s.freeCount
  let (d, s) := freeDelay s
  postEv s (s.now + 1 + d) ordInput 0 none .linkTraining (.linkTraining l (Config.linkTrains k))

/-! ### Bring-up of seams (R409, 19_tile R430, R431) -/

/-- The seam links: from a tile to its east or south neighbour in another reticle. -/
def seamLinks : List LinkId :=
  (List.range 66).flatMap fun r => (List.range 96).flatMap fun c =>
    (if c % 12 = 11 && c < 95 then [LinkId.seam (mkTile c r) (mkTile (c + 1) r)] else []) ++
      (if r % 11 = 10 && r < 65 then [LinkId.seam (mkTile c r) (mkTile c (r + 1))] else [])

/-- What a seam link's training brings: two islands merge, or the slab on its east or south side is defective. -/
def seamTrained (s : State) (l : LinkId) : State :=
  match l with
  | .seam a b =>
    let s :=
      if linkState s l = .failed then
        (match s.binding with
         | some _ => retireTile s b
         | none => putUnit (leaveLast s [tileUnit s b]) (tileUnit s b) .retired 0)
      else s
    if s.phase = .merging then
      postEv s s.now (ordEnd + 1) 0 none .islandMerge (.islandMerge (reticleOf a) (if linkState s l = .up then reticleOf b else reticleOf a))
    else s
  | _ => s

/-- A scale-out port that is UP again waits 10 microseconds for what it has not had acknowledged (R419). -/
def restartPort (s : State) (l : LinkId) : State :=
  match l with
  | .scale p =>
    let q := tabGetD Port.fresh s.ports p
    if q.unacked.isEmpty then s
    else postEv s (s.now + resendAfter s) ordEnd p none .transportResendTimeout (.transportResendTimeout p q.epoch)
  | _ => s

/-- The self-test of a reticle ends at an open time with an open result (log 10, log 20). -/
def postSelftest (s : State) (r : Nat) : State :=
  let k := s.freeCount
  let (d, s) := freeDelay s
  postEv s (s.now + 1 + d) ordInput r none .selftestResult (.selftestResult r (Config.badSlabs k) (Config.badFrontEnds k))

/-- Every host port is UP or FAILED. -/
def hostSettled (s : State) : Bool :=
  (List.range 4).all fun p => linkState s (.host p) = .up || linkState s (.host p) = .failed

/-- The host link has come up: the reticles test themselves (19_tile R429; log 145). -/
def startSelftests (s : State) : State :=
  if s.phase = .starting && hostSettled s then (List.range 48).foldl postSelftest (setPhase s .selftest) else s

/-- LINK_TRAINING (R408): a link that is DOWN or FAILED enters TRAINING; an attempt that passes ends it UP, and a third that
fails ends it FAILED.  A seam whose attempt ends while contexts run in service settles later (R410). -/
def execLinkTraining (s : State) : Host.Outcome State Fault Refusal :=
  match s.arg with
  | .linkTraining l pass =>
    if seamFixed s l then .next (if linkState s l = .training then postAttempt s l else s)
    else
      match linkState s l with
      | .up => .next s
      | .training =>
        if pass then .next (startSelftests (restartPort (seamTrained (setLink s l .up) l) l))
        else if 2 ≤ linkTries s l then .next (startSelftests (seamTrained (setLink s l .failed) l))
        else .next (postAttempt (putLink s l .training (linkTries s l + 1)) l)
      | _ => .next (postAttempt (setLink s l .training) l)
  | _ => .fault .noOperand

/-- LINK_STOP (R408): only while the module is quiesced. -/
def execLinkStop (s : State) : Host.Outcome State Fault Refusal :=
  match s.arg with
  | .linkStop l => .next (if linkState s l = .up && moduleQuiet s then setLink s l .down else s)
  | _ => .fault .noOperand

/-! ### The pod transport (R418 to R420) -/

/-- Frames go out again from the oldest that is not acknowledged. -/
def resendFrames (s : State) (p : Nat) : State :=
  let s := modPort s p fun q =>
    { q with epoch := q.epoch + 1
             resends := q.unacked.foldl (fun t e => tabPut t e.1.toNat (tabGetD 0 t e.1.toNat + 1)) q.resends }
  let q := tabGetD Port.fresh s.ports p
  let s := q.unacked.foldl (fun s e => tell s (.frame p { e.2 with ackseq := q.recvSeq })) s
  postEv s (s.now + resendAfter s) ordEnd p none .transportResendTimeout (.transportResendTimeout p q.epoch)

/-- Every collective that needs a module completes FAILED (R420). -/
def failModule (s : State) (m : Nat) : State :=
  s.ctxs.foldl (fun s k => (collsBegun s k.1).foldl (fun s e =>
    let rs := tabGetD [] (ctxOf s k.1).comms e.2.comm
    if (otherModules rs).contains m then endCollective s k.1 e.2.comm e.2.inst 3 else s) s) s

/-- A port enters FAILED: its frames move to another UP port that reaches the same module (R420). -/
def failPort (s : State) (p : Nat) : State :=
  let fs := (tabGetD Port.fresh s.ports p).unacked
  let s := setLink (modPort s p fun q => { q with unacked := [], resends := [], epoch := q.epoch + 1 }) (.scale p) .failed
  let m := Config.portPeer p
  match portTo s m with
  | some q => fs.foldl (fun s f => sendFrame s q m f.2.job f.2.payload) s
  | none => failModule s m

/-- Frames before a sequence number are acknowledged. -/
def releaseFrames (s : State) (p : Nat) (ack : BitVec 32) : State :=
  let q := tabGetD Port.fresh s.ports p
  match q.unacked with
  | [] => s
  | (first, _) :: _ =>
    let n := (ack - first).toNat
    if n = 0 || q.unacked.length < n then s
    else
      let left := q.unacked.drop n
      let s := modPort s p fun q => { q with
        unacked := left, epoch := q.epoch + 1, resends := q.resends.filter fun e => left.any fun x => x.1.toNat = e.1 }
      if left.isEmpty then s
      else postEv s (s.now + resendAfter s) ordEnd p none .transportResendTimeout (.transportResendTimeout p (q.epoch + 1))

/-- Every frame from the oldest on is sent again; after 16 resends of one frame the port has failed (R420). -/
def resendOrFail (s : State) (p : Nat) : State :=
  let q := tabGetD Port.fresh s.ports p
  if q.unacked.isEmpty then s else if q.resends.any (16 ≤ ·.2) then failPort s p else resendFrames s p

/-- An ACK or NAK of a port. -/
def control (s : State) (p : Nat) (kind : BitVec 8) (dst : BitVec 8) (job : BitVec 32) : State :=
  let q := tabGetD Port.fresh s.ports p
  tell s (.frame p ⟨kind, BitVec.ofNat 8 Config.moduleIndex, dst, job, q.sendSeq, q.recvSeq, [], true⟩)

/-- The contexts that run a pod job. -/
def jobCtxs (s : State) (job : BitVec 32) : List Nat :=
  (s.ctxs.filter fun e => resident e.2.st && e.2.ops.job = job).map (·.1)

/-- The payloads of a job that a port has accepted. -/
def inboxOf (s : State) (job : BitVec 32) (p : Nat) : List (List Byte) :=
  ((tabGetD Port.fresh s.ports p).inbox.filter fun e => e.1 = job).map (·.2)

/-- The other ports that reach the module of port p: before a failover they have carried what it goes on with (R420). -/
def portsBeside (p : Nat) : List Nat := (List.range 64).filter fun o => o != p && decide (Config.portPeer o = Config.portPeer p)

/-- The payloads of a job that make up a contribution, and the ports that took them: a port's own, or those of the ports to
the same module before them, after a failover has split the contribution (R420; log 18). -/
def joinedPayloads (s : State) (p : Nat) (job : BitVec 32) : List Nat × List (List Byte) :=
  let own := inboxOf s job p
  if (Config.contributionIn own).isSome then ([p], own)
  else (portsBeside p ++ [p], (portsBeside p).flatMap (inboxOf s job) ++ own)

/-- The payloads of a job that have been accepted make up a contribution, if they do (log 18). -/
def takeContribution (s : State) (p : Nat) (job : BitVec 32) : State :=
  let (ps, parts) := joinedPayloads s p job
  match Config.contributionIn parts with
  | some (comm, inst, rank, [op, fmt, root, count], bytes) =>
    let s := ps.foldl (fun s p => modPort s p fun q => { q with inbox := q.inbox.filter fun e => e.1 != job }) s
    (jobCtxs s job).foldl (fun s c => addContribution s c comm (BitVec.ofNat 32 inst) ⟨rank, op, fmt, root, count, bytes⟩) s
  | _ => s

/-- A frame for this module on an UP port (R418): one for another module is not taken. -/
def frameHere (s : State) (p : Nat) (f : Frame) : Bool :=
  linkState s (.scale p) = .up && f.dstmod = Config.moduleCode && f.payload.length ≤ 8192

/-- A frame of an unknown job is dropped and counted (R419). -/
def unknownJob (s : State) (f : Frame) : Bool := (jobCtxs s f.job).isEmpty

def countJob (s : State) : State := { s with dropJob := s.dropJob + 1 }

/-- TRANSPORT_DATA_RECEIVE (R419): accepted in order and with a good CRC, else dropped with a NAK; the payload of an unknown
job is dropped and counted. -/
def execTransportDataReceive (s : State) : Host.Outcome State Fault Refusal :=
  match s.arg with
  | .transportDataReceive p f =>
    let q := tabGetD Port.fresh s.ports p
    if !frameHere s p f then .next s
    else if !f.crcOk then .next (control s p 3 f.srcmod f.job)
    else if f.kind != 1 then .next s
    else if f.seq != q.recvSeq then .next (control (if unknownJob s f then countJob s else s) p 3 f.srcmod f.job)
    else
      let s := modPort s p fun q => { q with recvSeq := q.recvSeq + 1 }
      let s := control s p 2 f.srcmod f.job
      if unknownJob s f then .next (countJob s)
      else
        let s := modPort s p fun q => { q with inbox := q.inbox ++ [(f.job, f.payload)] }
        .next (takeContribution s p f.job)
  | _ => .fault .noOperand

/-- TRANSPORT_ACK_RECEIVE (R419). -/
def execTransportAckReceive (s : State) : Host.Outcome State Fault Refusal :=
  match s.arg with
  | .transportAckReceive p f =>
    .next (if !(frameHere s p f && f.crcOk && f.kind = 2) then s
      else if unknownJob s f then countJob s else releaseFrames s p f.ackseq)
  | _ => .fault .noOperand

/-- TRANSPORT_NAK_RECEIVE (R419). -/
def execTransportNakReceive (s : State) : Host.Outcome State Fault Refusal :=
  match s.arg with
  | .transportNakReceive p f =>
    .next (if !(frameHere s p f && f.crcOk && f.kind = 3) then s
      else if unknownJob s f then countJob s else resendOrFail (releaseFrames s p f.ackseq) p)
  | _ => .fault .noOperand

/-- TRANSPORT_RESEND_TIMEOUT (R419, R420). -/
def execTransportResendTimeout (s : State) : Host.Outcome State Fault Refusal :=
  match s.arg with
  | .transportResendTimeout p e =>
    .next (if (tabGetD Port.fresh s.ports p).epoch = e && linkState s (.scale p) = .up then resendOrFail s p else s)
  | _ => .fault .noOperand

/-! ### Errors (R408, R410) -/

/-- LINK_UNRECOVERABLE_ERROR: an UP link becomes FAILED; a seam link of the module in service only while no context runs
(R410), and its tiles are retired at the next remap. -/
def execLinkUnrecoverableError (s : State) : Host.Outcome State Fault Refusal :=
  match s.arg with
  | .linkUnrecoverableError l =>
    if linkState s l != .up || seamFixed s l then .next s
    else
      match l with
      | .scale p => .next (failPort s p)
      | .host _ => .next (setLink s l .failed)
      | .seam a b => .next (retireTile (retireTile (setLink s l .failed) a) b)
  | _ => .fault .noOperand

/-- SEAM_BEAT_ERROR (R410): an uncorrectable one is the memory error SEAM of the beat's context; from the second on, the link
fails at the horizon, when the wafer has stopped. -/
def execSeamBeatError (s : State) : Host.Outcome State Fault Refusal :=
  match s.arg with
  | .seamBeatError l correctable c =>
    if correctable then .next s
    else
      let n := match s.seamErr.find? fun e => e.1 = l with | some e => e.2 + 1 | none => 1
      let s : State := { s with seamErr := (l, n) :: s.seamErr.filter fun e => e.1 != l }
      let a := match l with | .seam a _ => a | _ => 0
      let s := if 2 ≤ n then
          postEv s (s.now + 64) (ordFreeze + 1) 0 none .linkUnrecoverableError (.linkUnrecoverableError l) else s
      .next (postEv s s.now ordInput 0 none .uncorrectableErrorDetect
        (.uncorrectableErrorDetect ⟨5, c, a, 0, 0xFF, 0, 0⟩))
  | _ => .fault .noOperand

/-! ### Time (R426) -/

/-- The clock takes the time of its source and is locked to it.  While it stays locked its frequency is the source's, over
the edges between two times of the source; the first time leaves it the module's own (log 14). -/
def lockClock (s : State) (nanos : Nat) : State :=
  let edges := s.now - s.timeAt + (s.withheld - s.timeHeld)
  let rate : Option Nat :=
    if s.timeLocked && decide (s.moduleTime < nanos) && edges != 0 then some (max 1 ((nanos - s.moduleTime) * 2 ^ 30 / edges))
    else none
  { setClockRate s nanos rate with timeLocked := true, ptp := none }

/-- A message of a two-step, end-to-end exchange with the grandmaster behind a scale-out port: a Sync begins it; the Follow_Up
with the time that was sent is answered by a delay request; the answer with the time that arrived corrects the clock by half the
difference of the two ways. -/
def ptpExchange (s : State) (p : Nat) : PtpMsg → State
  | .sync q => { s with ptp := some ⟨q, none, clockAt s s.now, none⟩ }
  | .followUp q sent =>
    match s.ptp with
    | some x =>
      if x.seq = q && x.sent.isNone then
        tell { s with ptp := some { x with sent := some sent, asked := some (clockAt s s.now) } } (.delayReq p q)
      else s
    | none => s
  | .delayResp q received =>
    match s.ptp with
    | some ⟨seq, some sent, came, some asked⟩ =>
      if seq = q then
        let off : Int := ((came : Int) - sent - (received - asked)) / 2
        lockClock s ((clockAt s s.now : Int) - off).toNat
      else s
    | _ => s
  | .ptm _ => s

/-- PTP_MESSAGE: a message of the selected source disciplines the clock: of a grandmaster by the exchange, of host port 0 by
Precision Time Measurement (log 14); one of another source does not. -/
def execPtpMessage (s : State) : Host.Outcome State Fault Refusal :=
  match s.arg with
  | .ptpMessage src msg =>
    .next (if s.timeSource != src then s
      else match src, msg with
        | .scalePort p, m => ptpExchange s p m
        | .hostPort, .ptm n => lockClock s n
        | _, _ => s)
  | _ => .fault .noOperand

/-- TIME_SOURCE_LOSS: the clock holds its frequency, and the host is told. -/
def execTimeSourceLoss (s : State) : Host.Outcome State Fault Refusal :=
  .next (if s.timeSource = .freeRunning then s else tell { s with timeLocked := false, ptp := none } .timeLost)

/-- TIME_SOURCE_SELECT. -/
def execTimeSourceSelect (s : State) : Host.Outcome State Fault Refusal :=
  match s.arg with
  | .timeSourceSelect x => .next { s with timeSource := x, timeLocked := false, ptp := none }
  | _ => .fault .noOperand

end Sys2Proof.Machine
end

