-- ==== Sys2Proof/Machine/Tile.lean ====
section
/-! DEFINITION. Bring-up, the binding map and its changes, voltage, heartbeats, bellwethers (01_wafer R14 to R19, 19_tile R429 to R444). -/

namespace Sys2Proof.Machine

/-- The first multiple of n after a cycle. -/
def nextMultiple (n y : Nat) : Nat := (y / n + 1) * n

/-- A cycle that is a multiple of n, at or after y. -/
def roundUp (n y : Nat) : Nat := (y + n - 1) / n * n

/-! ### Power and self-test (R429, R430) -/

/-- POWER_ON: every unit but the RETIRED and the RETIRING is untested, every reticle an island of its own, every link DOWN; the
host link comes up first, and the self-tests follow it. -/
def execPowerOn (s : State) : Host.Outcome State Fault Refusal :=
  if s.phase != .off then .next s
  else
    let s := { setPhase s .starting with
      islands := (List.range 48).map fun r => [r], ahead := [], tested := [], links := [], seamErr := [], powerCycle := s.powerCycle + 1
      units := s.units.filter fun e => e.2.1 = .retired || e.2.1 = .retiring }
    .next (((List.range 4).map LinkId.host ++ (List.range 64).map LinkId.scale).foldl (fun s l =>
      postAttempt (setLink s l .training) l) s)

/-- The physical units of a reticle and whether each passed. -/
def reticleUnits (r : Nat) (badSlabs badFe : List Nat) : List (UnitId × Bool) :=
  ((List.range 11).flatMap fun row => (List.range 13).map fun col =>
      ((⟨false, r, col, row⟩ : UnitId), !badSlabs.contains (13 * row + col))) ++
    ((List.range 12).flatMap fun row => (List.range 13).map fun col =>
      ((⟨true, r, col, row⟩ : UnitId), !badFe.contains (13 * row + col)))

/-- A unit after its self-test: one that fails is RETIRED; a RETIRED one that passes stays so and counts the power cycles in a row
that it has passed, a RETIRING one stays so until a map passes it over (R435, R436, R438). -/
def testedUnit (old : UnitState × Nat) (pass : Bool) : UnitState × Nat :=
  match old.1 with
  | .retired => (.retired, if pass then old.2 + 1 else 0)
  | .retiring => if pass then (.retiring, old.2 + 1) else (.retired, 0)
  | _ => if pass then (.spare, 0) else (.retired, 0)

/-- Some physical row of a reticle has more than one defective slab. -/
def rowLost (s : State) (r : Nat) : Bool :=
  (List.range 11).any fun row => 1 < ((List.range 13).filter fun c => passedOver s ⟨false, r, c, row⟩).length

/-- Every reticle has a result: seams train, and reduced service begins (R432). -/
def enterMerging (s : State) : State :=
  let s := seamLinks.foldl (fun s l => postAttempt (setLink s l .training) l) (setPhase s .merging)
  let s := postEv s (roundUp 64 s.now) ordInput 0 none .dispatchDecision .none
  let s := postEv s (s.now + usCycles s 1000) ordInput 0 none .voltageTrim .none
  postSlot (setClock s (clockAt s s.now))

/-- SELFTEST_RESULT. -/
def execSelftestResult (s : State) : Host.Outcome State Fault Refusal :=
  match s.arg with
  | .selftestResult r bs bf =>
    if s.phase != .selftest || 48 ≤ r || s.tested.contains r then .next s
    else
      let new : List (UnitId × UnitState × Nat) := (reticleUnits r bs bf).map fun u => (u.1, testedUnit (unitOf s u.1) u.2)
      let s := leaveLast s ((new.filter fun e => e.2.1 = .retired && (unitOf s e.1).1 != .retired).map (·.1))
      let s := { s with units := s.units.filter (fun e => e.1.reticle != r) ++ new, tested := s.tested ++ [r] }
      let s := if rowLost s r then tell (tell s (.report 430 r)) (.failing (badUnits s fun u => u.reticle = r)) else s
      .next (if s.tested.length = 48 then enterMerging s else s)
  | _ => .fault .noOperand

/-- POWER_OFF: what the module holds in its own memories is lost; units, flash and the map's generation stay, and nothing
but power-on is taken, on a cycle of count 0 (R431). -/
def execPowerOff (s : State) : Host.Outcome State Fault Refusal :=
  let start := nextMultiple (2 ^ 64) s.now
  let off : State := { State.reset with
    now := start, timeAt := start, agenda := []
    units := s.units, flash := s.flash, bindGen := s.bindGen, powerCycle := s.powerCycle, reinstated := s.reinstated, lastSkips := s.lastSkips, former := s.former, images := s.images, out := s.out
    freeCount := s.freeCount }
  .next ((s.agenda.filter fun e => decide (e.instr = .powerOn)).foldl (fun s e => post s { e with at_ := start }) off)

/-! ### The binding map (R17 to R19, R433, R434) -/

/-- The entries of a map: tiles and front-end reference. -/
def mapEntries (m : BindingMap) : List (List TileName × BitVec 16) :=
  ((List.range 66).flatMap fun r => (List.range 96).map fun c => ([mkTile c r], feRef m (mkTile c r) 1)) ++
    ((List.range 66).flatMap fun r => (List.range 48).map fun i => (gangTilesOf (mkTile (2 * i) r) 2, feRef m (mkTile (2 * i) r) 2)) ++
    ((List.range 33).flatMap fun j => (List.range 48).map fun i =>
      (gangTilesOf (mkTile (2 * i) (2 * j)) 4, feRef m (mkTile (2 * i) (2 * j)) 4))

/-- A unit may be bound. -/
def unitGood (s : State) (u : UnitId) : Bool := (unitOf s u).1 = .spare || (unitOf s u).1 = .bound

/-- An entry names a good front end that drives its slabs, all of them good. -/
def entryGood (s : State) (m : BindingMap) (e : List TileName × BitVec 16) : Bool :=
  let f := feUnit e.2
  e.2.toNat < 2 ^ 14 && f.reticle < 48 && f.col ≤ 12 && f.row ≤ 11 && unitGood s f &&
    e.1.all fun t => feDrives f (slabUnit m t) && unitGood s (slabUnit m t)

/-- R19 and R433: every gang has its front end, and two entries that can run at once name different ones. -/
def mapOk (s : State) (m : BindingMap) : Bool :=
  let es := mapEntries m
  (List.range 528).all (fun i => tabGetD 12 m.skips i ≤ 12) && es.all (entryGood s m) &&
    es.all fun x => es.all fun y => x.1 = y.1 || x.1.any y.1.contains || x.2 != y.2

/-- The bytes of a map (R433). -/
def mapBytes (gen : Nat) (m : BindingMap) : List Byte :=
  codeBytes 4 0x4D425853 ++ codeBytes 2 1 ++ codeBytes 2 0 ++ codeBytes 4 gen ++ codeBytes 52 0 ++
    ((List.range 528).flatMap fun i => codeBytes 1 (tabGetD 12 m.skips i)) ++
    (mapEntries m).flatMap fun e => codeBytes 2 e.2.toNat

/-- The attestation record of a binding map, of 192 bytes (19_tile R434). -/
def attestBytes (gen : Nat) (digest signature : BitVec 512) : List Byte :=
  codeBytes 4 0x41545853 ++ codeBytes 4 gen ++ codeBytes 16 Config.serial.toNat ++ codeBytes 40 0 ++
    codeBytes 64 digest.toNat ++ codeBytes 64 signature.toNat

/-- A reinstated slab keeps its row's spare position as long as it is good and no other slab of the row is passed over, and then
takes no former position back (R438). -/
def keepsSpares (s : State) (m : BindingMap) : Bool :=
  s.reinstated.all fun u => u.frontEnd || !usable s u ||
    skipOf m u.reticle u.row = u.col ||
      (!usable s ⟨false, u.reticle, skipOf m u.reticle u.row, u.row⟩ && !takesBack s u.reticle u.row (skipOf m u.reticle u.row))

/-- The digest and signature of a map's attestation; none when the record does not verify, and the map is not used (R434). -/
def attestMap (gen : Nat) (m : BindingMap) : Option (BitVec 512 × BitVec 512) :=
  let d := Config.sha512 (mapBytes gen m)
  let g := Config.ed25519 d
  if Config.edVerify d g then some (d, g) else none

/-- Units that a map names. -/
def mapUnits (m : BindingMap) : List UnitId :=
  (mapEntries m).flatMap fun e => feUnit e.2 :: e.1.map (slabUnit m)

/-- A map comes into force with its attestation: its units are BOUND, RETIRING ones RETIRED, others that were bound SPARE; a read
through the command ring gives it from now on. -/
def writeMap (s : State) (m : BindingMap) (gen : Nat) (a : BitVec 512 × BitVec 512) : State :=
  let us := mapUnits m
  let move (e : UnitId × UnitState × Nat) : UnitId × UnitState × Nat :=
    if e.2.1 = .retiring then (e.1, .retired, 0)
    else if us.contains e.1 then (e.1, .bound, e.2.2)
    else if e.2.1 = .bound then (e.1, .spare, e.2.2)
    else e
  let old (u : UnitId) : Nat := match s.binding with | some m => skipOf m u.reticle u.row | none => ownSkip s u.reticle u.row
  let s := leavePositions s ((s.units.filter fun e => e.2.1 = .retiring).map (·.1)) old
  let s := { s with binding := some m, bindGen := gen, attested := some a, units := s.units.map move, remapDue := false,
                    lastSkips := some m.skips }
  tell (tell s (.attest gen a.1 a.2)) (.map (mapBytes gen m) (attestBytes gen a.1 a.2))

/-- Contexts that the service controller quiesced resume (R431). -/
def resumeServed (s : State) : State :=
  s.ctxs.foldl (fun s e =>
    if (ctxOf s e.1).svcStop then
      let s := modCtx s e.1 fun k => { k with svcStop := false }
      if (ctxOf s e.1).st = .quiesced then resumeCtx s e.1 else s
    else s) s

/-- BINDING_MAP_WRITE: the map that bring-up ends with. -/
def execBindingMapWrite (s : State) : Host.Outcome State Fault Refusal :=
  match s.arg with
  | .bindingMapWrite m =>
    if s.phase != .binding then .next s
    else if !mapOk s m || !keepsSpares s m then .next (leaveService s 430)
    else
      match attestMap s.bindGen m with
      | none => .next (leaveService s 430)
      | some a =>
        let s := setPhase (writeMap s m s.bindGen a) .service
        .next (resumeServed (postEv s (nextMultiple 4096 (islandCyc s 0) - aheadOf s 0) ordInput 0 none .bellwetherRoundStart .none))
  | _ => .fault .noOperand

/-! ### Islands (R431, R432) -/

/-- The count of a reticle's island. -/
def reticleCyc (s : State) (r : Nat) : Nat := s.now + tabGetD 0 s.ahead r

/-- The next tick of each sampler follows the count of its context (21_marker R464). -/
def retimeSamples (s : State) : State :=
  s.ctxs.foldl (fun s e => match e.2.sampler with
    | some m => postSample { s with agenda := s.agenda.filter fun x => !decide (x.arg = .sampleTick e.1) } e.1 m.set.k
    | none => s) s

/-- The contexts with a gang in some reticles; all of them for the final merge. -/
def mergeCtxs (s : State) (rs : List Nat) (final : Bool) : List Nat :=
  (s.ctxs.filter fun e => freezable e.2.st && (final || (ctxTiles s e.1).any fun t => rs.contains (reticleOf t))).map (·.1)

/-- Every context named has been asked to stop by the service controller. -/
def askQuiesce (s : State) (cs : List Nat) : State :=
  cs.foldl (fun s c =>
    if (ctxOf s c).st = .running then modCtx (beginQuiesce s c 7 (2 ^ 64)) c fun k => { k with svcStop := true } else s) s

/-- The clock is raised to 1.2 GHz, and the service controller writes its map, or finds none (R432). -/
def postBinding (s : State) : State :=
  let k := s.freeCount
  let y := clockAt s s.now
  let (d, s) := freeDelay (setClock (setPhase { s with freeCount := k + 1 } .binding) y)
  match Config.bindingChoice k with
  | some m => postEv s (s.now + 1 + d) ordInput 0 none .bindingMapWrite (.bindingMapWrite m)
  | none => leaveService s 430

/-- ISLAND_MERGE: the contexts of both islands quiesce, both counts are set to the larger of the two, rounded up to a multiple of
4,096, and the contexts resume.  The service controller merges on a multiple of 256 of the clock (log 108), so that a count set
forward keeps its phases.  With one island left, binding follows. -/
def execIslandMerge (s : State) : Host.Outcome State Fault Refusal :=
  match s.arg with
  | .islandMerge a b =>
    if s.phase != .merging then .next s
    else
      let ia := islandOf s a
      let ib := islandOf s b
      let same : Bool := ia = ib
      let all := (ia ++ ib) :: s.islands.filter fun i => i != ia && i != ib
      let final := all.length = 1
      if same then .next s
      else
        let cs := mergeCtxs s (ia ++ ib) final
        if !cs.isEmpty then
          .next (postEv (askQuiesce s cs) (s.now + 1) (ordEnd + 1) 0 none .islandMerge s.arg)
        else if s.now % 256 != 0 then .next (postEv s (nextMultiple 256 s.now) (ordEnd + 1) 0 none .islandMerge s.arg)
        else
          let s := retimeSamples <| setForward { s with islands := all } (ia ++ ib) (roundUp 4096 (max (reticleCyc s a) (reticleCyc s b)))
          .next (if final then postBinding s else resumeServed s)
  | _ => .fault .noOperand

/-! ### Remap and reinstatement (R436 to R438) -/

/-- RETIRING slabs: physical row and column. -/
def retiringSlabs (s : State) : List UnitId :=
  (s.units.filter fun e => e.2.1 = .retiring && !e.1.frontEnd).map (·.1)

/-- The new skip positions: none when a row has lost its spare, which a reinstated slab is only for positions other than its own
former one (R437, R438). -/
def newSkips (s : State) (m : BindingMap) : Option (Tab Nat) :=
  (retiringSlabs s).foldlM (fun t u =>
    let i := 11 * u.reticle + u.row
    let spare : UnitId := ⟨false, u.reticle, tabGetD 12 t i, u.row⟩
    if (unitOf s spare).1 = .spare && !takesBack s u.reticle u.row u.col then some (tabPut t i u.col) else none) m.skips

/-- The context that owns a frame of a tile's vault, and its page there. -/
def frameOwner (s : State) (t : TileName) (frame : Nat) : Option (Nat × Nat) :=
  s.ctxs.findSome? fun e => ((ctxPages e.2).find? fun p => p.2.1 = t && p.2.2 = frame).map fun p => (e.1, p.1)

/-- A tile moves to another slab: its vault is copied; a line that cannot be read faults its owner. -/
def moveTile (s : State) (t : TileName) : State :=
  let s := (badLines (slabOf s t)).foldl (fun s e =>
    match frameOwner s t e.1 with
    | some (c, vpn) =>
      if resident (ctxOf s c).st then
        enterFaulted (raiseAux s ⟨c, 0, t, false, 0, 0xFF, 0, s.now⟩ 15 1 (BitVec.ofNat 64 (4096 * vpn + 64 * e.2)) 0) c
      else s
    | none => s) s
  modSlab s t fun sl => { sl with cellErr := [], busErr := [], laneCount := [], spares := 8, swaps := [] }

def allTiles : List TileName := (List.range 66).flatMap fun r => (List.range 96).map fun c => mkTile c r

/-- REMAP, which needs SERVICE (R429): the lane swaps that are due are made; the skip positions follow from the RETIRING slabs, a
SWAPFAIL of these swaps among them; the front ends are the service controller's choice. -/
def execRemap (s : State) : Host.Outcome State Fault Refusal :=
  match s.arg with
  | .remap choice =>
    match s.binding with
    | none => .next (answer s 0 1 0)
    | some m =>
      if s.phase != .service then .next (answer s 0 1 0)
      else if !allParked s then .next { s with remapDue := true }
      else
        let s := swapTiles s (s.slabs.map (·.1))
        match newSkips s m with
        | none => .next (leaveService s 437)
        | some sk =>
          let m' : BindingMap := { choice with skips := sk }
          match attestMap (s.bindGen + 1) m' with
          | none => .next (leaveService s 437)
          | some a =>
            if !mapOk s m' then .next (leaveService s 437)
            else
            let s := (allTiles.filter fun t => slabUnit m t != slabUnit m' t).foldl moveTile s
            let s := writeMap s m' (s.bindGen + 1) a
            .next (s.links.foldl (fun s e => if e.2.1 = .down then postAttempt (setLink s e.1 .training) e.1 else s) s)
  | _ => .fault .noOperand

/-- The bytes of a repair record that its signature covers (R438; their order is the model's, log 21). -/
def repairBytes (r : RepairRecord) : List Byte :=
  codeBytes 1 (if r.unit.frontEnd then 1 else 0) ++ codeBytes 1 r.unit.reticle ++ codeBytes 1 r.unit.col ++ codeBytes 1 r.unit.row ++
    codeBytes 8 r.first ++ codeBytes 8 r.second ++ codeBytes 8 r.request

/-- A record backs the reinstatement of a unit that has passed the last n power cycles: it names the unit and two of these cycles
that follow each other, and its signature verifies. -/
def repairOk (s : State) (u : UnitId) (n : Nat) (r : RepairRecord) : Bool :=
  r.unit = u && r.first + 1 = r.second && r.second ≤ s.powerCycle && s.powerCycle < r.first + n &&
    Config.edVerify (Config.sha512 (repairBytes r)) r.sig

/-- REINSTATEMENT: a RETIRED unit that passed two power cycles in a row, with a signed record, is SPARE again. -/
def execReinstatement (s : State) : Host.Outcome State Fault Refusal :=
  match s.arg with
  | .reinstatement u r =>
    let x := unitOf s u
    .next (if x.1 = .retired && repairOk s u x.2 r then
        putUnit { s with reinstated := u :: s.reinstated.filter (· != u) } u .spare 0
      else s)
  | _ => .fault .noOperand

/-! ### Voltage and the clock (R25, R439) -/

/-- The next edge is withheld, unless half of the last 4,096 have been: a withheld edge is no cycle, and the slots of the clock go
on without it (R439). -/
def withhold (s : State) : State :=
  let e := s.now + s.withheld
  let recent := s.stretch.filter fun x => e < x + 4096
  if 2048 ≤ recent.length then { s with stretch := recent }
  else
    let s := { s with withheld := s.withheld + 1, stretch := recent ++ [e] }
    if s.agenda.any fun x => x.instr = .timeTableFiring then postSlot s else s

/-- The next edge that throttling withholds: they are spread evenly. -/
def postThrottle (s : State) : State :=
  if s.duty = 0 then s
  else postAct s ⟨256, 0, 0, false, 0, 0xFF, 0, s.now⟩ (s.now + max 1 ((4096 - s.duty) / s.duty)) ordInput .throttle

def landThrottle (s : State) : State := if s.duty = 0 then s else postThrottle (withhold s)

/-- The duty of throttling, the service controller's choice; an island at 660 mV that is short of margin makes it no 0. -/
def setDuty (s : State) (short : Bool) : State :=
  let d := Config.throttleDuty s.freeCount % 2049
  let on := s.duty != 0
  let s := { s with duty := if short then max 1 d else d, freeCount := s.freeCount + 1 }
  if on then s else postThrottle s

/-- One step of an island's regulator; an island at 660 mV that asks for more is reported. -/
def trimIsland (sb : State × Bool) (i : Nat) : State × Bool :=
  let (s, short) := sb
  let v := tabGetD 600 s.volts i
  let ask := Config.trim s.freeCount % 3
  let s := { s with freeCount := s.freeCount + 1 }
  if ask = 0 then ({ s with volts := tabPut s.volts i (max 560 (v - 5)) }, short)
  else if ask = 2 then
    (if 660 ≤ v then (tell s (.report 439 i), true)
     else ({ s with volts := tabPut s.volts i (min 660 (v + 5)) }, short))
  else (s, short)

/-- The module computes: in reduced service, while its map is written, in service. -/
def computes (s : State) : Bool := s.phase = .merging || s.phase = .binding || s.phase = .service

/-- VOLTAGE_TRIM: every millisecond. -/
def execVoltageTrim (s : State) : Host.Outcome State Fault Refusal :=
  if !computes s then .next { s with duty := 0 }
  else
    let (s, short) := (List.range 768).foldl trimIsland (s, false)
    let s := setDuty s short
    .next (postEv s (s.now + usCycles s 1000) ordInput 0 none .voltageTrim .none)

/-- DROOP_ALARM of one of the 768 islands: the next clock edge is withheld. -/
def execDroopAlarm (s : State) : Host.Outcome State Fault Refusal :=
  match s.arg with
  | .droopAlarm i => .next (if i < 768 then withhold s else s)
  | _ => .fault .noOperand

/-! ### Heartbeats (R440, R441) -/

/-- The gang sends heartbeats. -/
def beats (s : State) (g : TileName) : Bool :=
  let gg := gangOf s g
  gg.seq != .idle && gg.seq != .stopped && gg.seq != .frozen && freezable (ctxOf s gg.ctx).st

/-- The trigger cycles of a gang's arrivals and tokens that unclean regions hold back (13_binding R301). -/
def heldSince (s : State) (g : TileName) : List Nat :=
  (((slabOf s g).injW ++ (slabOf s g).injD).filter fun x => x.own.gang = g && heldBack s x).map (·.own.born)

/-- A WAITING gang waits longer than its context's deadline, or an arrival or token of it is held back for longer; a SYS is not
judged, an item held back beside it is (R441, log 115). -/
def waitsLong (s : State) (g : TileName) : Bool :=
  let gg := gangOf s g
  let dl := (ctxOf s gg.ctx).ops.waitdl.getD 0
  let judged : Bool := gg.waits.any fun w => match w with | .sys _ _ => false | _ => true
  gg.seq = .waiting && dl != 0 &&
    ((judged && dl ≤ s.now - gg.waitStart) || (heldSince s g).any fun x => dl ≤ s.now - x)

/-- HEARTBEAT. -/
def execHeartbeat (s : State) : Host.Outcome State Fault Refusal :=
  match s.arg with
  | .heartbeat g =>
    if (tabGet s.gangs g).isNone then .next s
    else
      let s := if beats s g then
          (let s := if waitsLong s g then raise s (gangOwner s g) 19 0 else s
           postEv (modGang s g fun gg => { gg with lastBeat := s.now }) (s.now + beatAllowance) ordEnd g none .heartbeatTimeout
             (.heartbeatTimeout g))
        else s
      .next (postEv s (nextBeat s g) ordInput g none .heartbeat s.arg)
  | _ => .fault .noOperand

/-- HEARTBEAT_TIMEOUT: the front end is RETIRING and the context is hard-frozen with fault class hang. -/
def execHeartbeatTimeout (s : State) : Host.Outcome State Fault Refusal :=
  match s.arg with
  | .heartbeatTimeout g =>
    if (tabGet s.gangs g).isSome && beats s g && (gangOf s g).lastBeat + beatAllowance ≤ s.now then
      .next (raise (retireFrontEnd s g) (gangOwner s g) 18 0)
    else .next s
  | _ => .fault .noOperand

/-! ### Bellwethers (R442 to R444) -/

/-- BELLWETHER_ROUND_START. -/
def execBellwetherRoundStart (s : State) : Host.Outcome State Fault Refusal :=
  if s.phase != .service then .next s
  else
    let s := postEv s (s.now + 1) ordInput 0 none .beaconReceive (.beaconReceive 0 (BitVec.ofNat 64 (islandCyc s 0)) 1)
    .next (postEv s (s.now + 4096) ordInput 0 none .bellwetherRoundStart .none)

/-- The tiles that take a tile as their reference, with the latency of the beacon wire. -/
def beaconTargets (t : TileName) : List (TileName × Nat) :=
  let c := tileCol t
  let r := tileRow t
  (if c < 95 then [(mkTile (c + 1) r, if c % 12 = 11 then 3 else 1)] else []) ++
    (if c = 0 && r < 65 then [(mkTile 0 (r + 1), if r % 11 = 10 then 3 else 1)] else [])

/-- Saturate to −32,768..32,767. -/
def clampDiff (d : Int) : Int := if d < -32768 then -32768 else if 32767 < d then 32767 else d

/-- What a difference does at a tile (R443, R444). -/
def drift (s : State) (t : TileName) (d : Int) : State :=
  let s := if clampDiff d != d then retireTile s t else s
  match gangAt s t with
  | none => modSlab s t fun sl => { sl with skew := sl.skew - clampDiff d }
  | some g =>
    let old := (gangOf s g).tst
    let diff := BitVec.ofInt 16 (clampDiff d)
    let s := modGang s g fun gg => { gg with tst := { gg.tst with drift := true, diff := diff } }
    let seq := (gangOf s g).seq
    if (!old.drift || old.diff != diff) && (seq = .issuing || seq = .handler) then
      raiseAux s (gangOwner s g) 14 1 0 ((gangTiles s g).findIdx (· = t))
    else s

/-- BEACON_RECEIVE.  The beacon acts before a clear of tst that lands on its cycle, so a DRIFT that it sets does not stay then
(DESIGN CHOICE, log 173). -/
def execBeaconReceive (s : State) : Host.Outcome State Fault Refusal :=
  match s.arg with
  | .beaconReceive t b l =>
    if s.phase != .service then .next s
    else
      let y := tileCyc s t
      let d := (y - (b + BitVec.ofNat 64 l)).toInt
      let s := if d = 0 then s else drift s t d
      let b' := y + 1 - BitVec.ofInt 64 d
      .next ((beaconTargets t).foldl (fun s x =>
        postEv s (s.now + 1 + x.2) ordInput x.1 none .beaconReceive (.beaconReceive x.1 b' x.2)) s)
  | _ => .fault .noOperand

end Sys2Proof.Machine
end

