-- ==== Sys2Proof/Machine/Landing.lean ====
section
/-! DEFINITION. OPERATION_LANDING: what each operation in flight does at its landing or array cycle (02_bundle R33, R34), and the check of a release (13_binding R302). -/

namespace Sys2Proof.Machine

/-- A landing in the registers of the front end; dropped when its task has left (14_kernel R337). -/
def landGang (s : State) (own : Owner) (f : Gang → Gang) : State :=
  if ownerLive s own then modGang s own.gang f else s

/-- Every landing but the check of a release. -/
def landAction (s : State) (own : Owner) : Action → State
  | .feRes k v => landFE s own k v
  | .feDiv k op a t => landFE s own k (divResult op a t)
  | .slRes t k v => landSl s own t k v
  | .vRes t k v => landVec s own t k v
  | .tctl v => landGang s own fun g => { g with tctl := tctlPut g.tctl v }
  | .tstclr v => landGang s own fun g => { g with tst := tstClear g.tst v }
  | .evm v => landGang s own fun g => { g with tctl := { g.tctl with evm := v } }
  | .fmt f => landGang s own fun g => { g with fmt := f }
  | .bnd bs => landGang s own fun g => { g with bd := tabPuts g.bd bs }
  | .mark m e a c => landMarkTrace s own m e a c
  | .mem a => landAccess s own a 2 false
  | .reply a v => a.dests.foldl (fun s t => landSl s own t a.port v) s
  | .relCheck _ => s
  | .acquire kind sync => acquireObject s (gangTiles s own.gang) kind sync.toNat
  | .tagWrite t n v => landTagWrite s t n v
  | .tagClear t n => landTagClear s t n
  | .tagLook t p v => landTagLook s own t p v
  | .unmap t r => landUnmap s own t r
  | .query t p r d b => landQuery s own t p r d b
  | .bankRel t m => landBankRel s own t m
  | .mapStart t r d => landMapStart s own t r d
  | .ftouch t r i => landFtouch s own t r i
  | .constRow t a bs => landConstRow s t a bs
  | .vload t p ls => landVload s own t p ls
  | .vstore t ws _ => landVstore s t ws
  | .floadRow t a r => landFloadRow s t a r
  | .feval xs => landFeval s own xs
  | .xclr t => landXclr s t
  | .mxstat t f => landMxstat s own t f
  | .mxload t e i v => landMxload s t e i v
  | .mxswap t => landMxswap s t
  | .mxzero t b k => landMxzero s t b k
  | .mxrow t b q => landMxrow s t b q
  | .mxgroup t b => landMxgroup s t b
  | .mxhad t b => landMxhad s t b
  | .mxzeroEnd t b k => landMxzeroEnd s t b k
  | .mxsnap t f => landMxsnap s t f
  | .mxdrainRow t i => landMxdrainRow s t i
  | .resClear t n => landResClear s t n
  | .winv t n => landWinv s t n
  | .dirtySlot t n => landDirtySlot s t n
  | .dirtyRegion t r => landDirtyRegion s t r
  | .fillRead t n p => landFillRead s own t n p
  | .fillRow t n l => landFillRow s t n l
  | .flushRow t n l => landFlushRow s t n l
  | .flushWrite t n p => landFlushWrite s own t n p
  | .refresh _ => s
  | .routeRow t q => landRouteRow s t q
  | .nameLoad t i n => landNameLoad s t i n
  | .nameQuery t n => landNameQuery s own t n
  | .barWrite t n r => landBarWrite s own t n r
  | .barAdd t n o k => landBarAdd s own t n o k
  | .barHeld t n => landBarHeld s t n
  | .barTest t n => landBarTest s own t n
  | .barCheck t n => landBarCheck s own t n
  | .barBeat b => landBarBeat s b
  | .busTake t n => landBusTake s t n
  | .busSettle t n k => landBusSettle s own t n k
  | .hop t dst i lim since w d => landHop s own t dst i lim since w d
  | .copyRead t k r => landCopyRead s own t k r
  | .invalStop g => landInvalStop s g
  | .traceRow c => landTraceRow s own c
  | .throttle => landThrottle s
  | .tokGet t a => landTokGet s own t a
  | .collRead t d m n => landCollRead s own t d m n

/-! ### The check of a release (13_binding R302) -/

/-- The state after one write of the present cycle, taken alone: what it would dirty. -/
def afterWrite (s : State) (e : Ev) : State :=
  match e.instr, e.arg with
  | .operationLanding own a, _ => landAction s own a
  | .remoteAccessArrival, .remoteAccessArrival r => landAccess s r.own r.acc r.back true
  | .copyBeatDelivery, .copyBeatDelivery b => padStore s b.dst b.addr 64 b.data.toNat
  | .tokenDelivery, .tokenDelivery d _ a sc _ => padStore s d a 8 (tokAdd (padWord s d a) sc).toNat
  | .collContributionArrival, .collContributionArrival c comm rank inst => contributionArrives s c comm rank inst
  | _, _ => s

/-- The access that a check stands for. -/
def checksFor (own : Owner) (a : MemAccess) (e : Ev) : Bool :=
  match e.instr, e.arg with
  | .operationLanding o (.mem b), _ => decide (o = own) && decide (b = a)
  | .remoteAccessArrival, .remoteAccessArrival r => decide (r.own = own) && decide (r.acc = a)
  | .watomApply, .watomApply w => a.port = 154 && decide (w.own = own) && w.trigAt = a.addr
  | .remoteWatomApply, .remoteWatomApply w => a.port = 154 && decide (w.own = own) && w.trigAt = a.addr
  | _, _ => false

/-- The accesses of an operation with their writes stopped, in every slab (11_group R270). -/
def stopAccess (own : Owner) (k : Nat) (e : Ev) : Ev :=
  match e.instr, e.arg with
  | .operationLanding o (.mem b), _ =>
    if o = own then { e with instr := .operationLanding o (.mem { b with stop := some k }) } else e
  | .remoteAccessArrival, .remoteAccessArrival r =>
    if r.own = own then { e with arg := .remoteAccessArrival { r with acc := { r.acc with stop := some k } } } else e
  | _, _ => e

/-- The first slab of a list on which a slot bound to an object is dirty. -/
def boundDirty (s : State) (ts : List TileName) (sync : Nat) : Option Nat :=
  ts.findIdx? fun t => (boundSlots s t 3 sync).any fun n => (slotOf (slabOf s t) n).dirty != 0

/-- The first slab on which a release is stopped: a bound slot is dirty or under a flush, or one of the events would dirty
it. -/
def unflushedSlab (s : State) (ts : List TileName) (sync : Nat) (es : List Ev) : Option Nat :=
  let now := (ts.findIdx? fun t => unflushed s [t] 3 sync).toList
  (now ++ es.filterMap fun e => boundDirty (afterWrite s e) ts sync).min?

/-- A release is checked before the actions of its cycle: with a bound slot dirty, about to be dirtied on this cycle, or
under a flush, a scratchpad release is stopped, and a vault atomic is not applied, with the timing fault UNFLUSHED. -/
def checkRelease (s : State) (own : Owner) (a : MemAccess) : State :=
  match a.ord with
  | none => s
  | some o =>
    let ts := gangTiles s own.gang
    let sync := o.sync.toNat
    match unflushedSlab s ts sync (s.agenda.filter fun e => e.at_ ≤ s.now && !checksFor own a e) with
    | none => s
    | some k =>
      if a.port = 154 then
        raiseAux { s with agenda := s.agenda.filter fun e => !(e.at_ ≤ s.now && checksFor own a e) } own 9 7 0 k
      else { s with agenda := s.agenda.map fun e => if e.at_ ≤ s.now then stopAccess own k e else e }

/-- OPERATION_LANDING. -/
def execOperationLanding (own : Owner) (act : Action) (s : State) : Host.Outcome State Fault Refusal :=
  match act with
  | .relCheck a => .next (checkRelease s own a)
  | _ => .next (landAction s own act)

end Sys2Proof.Machine
end

