-- ==== Sys2Proof/Machine/Dispatch.lean ====
section
/-! DEFINITION. One arm per instruction: its meaning. -/

namespace Sys2Proof.Machine

def exec (i : Instr) (s : State) : Host.Outcome State Fault Refusal :=
  match i with
  | .bundleIssue gang => Sys2Proof.Machine.execBundleIssue gang s
  | .registerWrite g d src => Sys2Proof.Machine.execRegisterWrite g d src s
  | .tctlWrite g src => Sys2Proof.Machine.execTctlWrite g src s
  | .tstclr g src => Sys2Proof.Machine.execTstclr g src s
  | .operationLanding own act => Sys2Proof.Machine.execOperationLanding own act s
  | .add g u src => Sys2Proof.Machine.execAdd g u src s
  | .sub g u src => Sys2Proof.Machine.execSub g u src s
  | .addsh g u src => Sys2Proof.Machine.execAddsh g u src s
  | .and g u src => Sys2Proof.Machine.execAnd g u src s
  | .or g u src => Sys2Proof.Machine.execOr g u src s
  | .xor g u src => Sys2Proof.Machine.execXor g u src s
  | .andn g u src => Sys2Proof.Machine.execAndn g u src s
  | .shl g u src => Sys2Proof.Machine.execShl g u src s
  | .shr g u src => Sys2Proof.Machine.execShr g u src s
  | .sar g u src => Sys2Proof.Machine.execSar g u src s
  | .rol g u src => Sys2Proof.Machine.execRol g u src s
  | .mul g u src => Sys2Proof.Machine.execMul g u src s
  | .mulh g u src => Sys2Proof.Machine.execMulh g u src s
  | .mulhu g u src => Sys2Proof.Machine.execMulhu g u src s
  | .divs g u src => Sys2Proof.Machine.execDivs g u src s
  | .divu g u src => Sys2Proof.Machine.execDivu g u src s
  | .remu g u src => Sys2Proof.Machine.execRemu g u src s
  | .min g u src => Sys2Proof.Machine.execMin g u src s
  | .max g u src => Sys2Proof.Machine.execMax g u src s
  | .minu g u src => Sys2Proof.Machine.execMinu g u src s
  | .maxu g u src => Sys2Proof.Machine.execMaxu g u src s
  | .clz g u src => Sys2Proof.Machine.execClz g u src s
  | .ctz g u src => Sys2Proof.Machine.execCtz g u src s
  | .popc g u src => Sys2Proof.Machine.execPopc g u src s
  | .extr g u src => Sys2Proof.Machine.execExtr g u src s
  | .ins g u src => Sys2Proof.Machine.execIns g u src s
  | .sext g u src => Sys2Proof.Machine.execSext g u src s
  | .zext g u src => Sys2Proof.Machine.execZext g u src s
  | .sel g u src => Sys2Proof.Machine.execSel g u src s
  | .cmpeq g u src => Sys2Proof.Machine.execCmpeq g u src s
  | .cmpne g u src => Sys2Proof.Machine.execCmpne g u src s
  | .cmplt g u src => Sys2Proof.Machine.execCmplt g u src s
  | .cmpltu g u src => Sys2Proof.Machine.execCmpltu g u src s
  | .cmple g u src => Sys2Proof.Machine.execCmple g u src s
  | .cmpleu g u src => Sys2Proof.Machine.execCmpleu g u src s
  | .cmpbit g u src => Sys2Proof.Machine.execCmpbit g u src s
  | .cvta g u src => Sys2Proof.Machine.execCvta g u src s
  | .issp g u src => Sys2Proof.Machine.execIssp g u src s
  | .addW g u src => Sys2Proof.Machine.execAddW g u src s
  | .subW g u src => Sys2Proof.Machine.execSubW g u src s
  | .shlW g u src => Sys2Proof.Machine.execShlW g u src s
  | .shrW g u src => Sys2Proof.Machine.execShrW g u src s
  | .sarW g u src => Sys2Proof.Machine.execSarW g u src s
  | .rolW g u src => Sys2Proof.Machine.execRolW g u src s
  | .mulW g u src => Sys2Proof.Machine.execMulW g u src s
  | .mulhW g u src => Sys2Proof.Machine.execMulhW g u src s
  | .mulhuW g u src => Sys2Proof.Machine.execMulhuW g u src s
  | .divsW g u src => Sys2Proof.Machine.execDivsW g u src s
  | .divuW g u src => Sys2Proof.Machine.execDivuW g u src s
  | .remuW g u src => Sys2Proof.Machine.execRemuW g u src s
  | .minW g u src => Sys2Proof.Machine.execMinW g u src s
  | .maxW g u src => Sys2Proof.Machine.execMaxW g u src s
  | .minuW g u src => Sys2Proof.Machine.execMinuW g u src s
  | .maxuW g u src => Sys2Proof.Machine.execMaxuW g u src s
  | .clzW g u src => Sys2Proof.Machine.execClzW g u src s
  | .ctzW g u src => Sys2Proof.Machine.execCtzW g u src s
  | .cmpeqW g u src => Sys2Proof.Machine.execCmpeqW g u src s
  | .cmpneW g u src => Sys2Proof.Machine.execCmpneW g u src s
  | .cmpltW g u src => Sys2Proof.Machine.execCmpltW g u src s
  | .cmpltuW g u src => Sys2Proof.Machine.execCmpltuW g u src s
  | .cmpleW g u src => Sys2Proof.Machine.execCmpleW g u src s
  | .cmpleuW g u src => Sys2Proof.Machine.execCmpleuW g u src s
  | .jmp g src => Sys2Proof.Machine.execJmp g src s
  | .jmpr g src => Sys2Proof.Machine.execJmpr g src s
  | .call g src => Sys2Proof.Machine.execCall g src s
  | .callr g src => Sys2Proof.Machine.execCallr g src s
  | .ret g src => Sys2Proof.Machine.execRet g src s
  | .loop g src => Sys2Proof.Machine.execLoop g src s
  | .loopm g src => Sys2Proof.Machine.execLoopm g src s
  | .brkl g src => Sys2Proof.Machine.execBrkl g src s
  | .chkdf g src => Sys2Proof.Machine.execChkdf g src s
  | .chkmx g src => Sys2Proof.Machine.execChkmx g src s
  | .qpoint g src => Sys2Proof.Machine.execQpoint g src s
  | .waitev g src => Sys2Proof.Machine.execWaitev g src s
  | .cycrd g src => Sys2Proof.Machine.execCycrd g src s
  | .cycwait g src => Sys2Proof.Machine.execCycwait g src s
  | .cycalign g src => Sys2Proof.Machine.execCycalign g src s
  | .mark g src => Sys2Proof.Machine.execMark g src s
  | .fmtset g src => Sys2Proof.Machine.execFmtset g src s
  | .bndset g src => Sys2Proof.Machine.execBndset g src s
  | .pand g src => Sys2Proof.Machine.execPand g src s
  | .por g src => Sys2Proof.Machine.execPor g src s
  | .pxor g src => Sys2Proof.Machine.execPxor g src s
  | .pnot g src => Sys2Proof.Machine.execPnot g src s
  | .trap g src => Sys2Proof.Machine.execTrap g src s
  | .sys g src => Sys2Proof.Machine.execSys g src s
  | .evret g src => Sys2Proof.Machine.execEvret g src s
  | .evmask g src => Sys2Proof.Machine.execEvmask g src s
  | .halt g src => Sys2Proof.Machine.execHalt g src s
  | .ldB g u src => Sys2Proof.Machine.execLdB g u src s
  | .ldH g u src => Sys2Proof.Machine.execLdH g u src s
  | .ldW g u src => Sys2Proof.Machine.execLdW g u src s
  | .ldD g u src => Sys2Proof.Machine.execLdD g u src s
  | .ldsB g u src => Sys2Proof.Machine.execLdsB g u src s
  | .ldsH g u src => Sys2Proof.Machine.execLdsH g u src s
  | .ldsW g u src => Sys2Proof.Machine.execLdsW g u src s
  | .ldsD g u src => Sys2Proof.Machine.execLdsD g u src s
  | .stB g u src => Sys2Proof.Machine.execStB g u src s
  | .stH g u src => Sys2Proof.Machine.execStH g u src s
  | .stW g u src => Sys2Proof.Machine.execStW g u src s
  | .stD g u src => Sys2Proof.Machine.execStD g u src s
  | .ldgB g u src => Sys2Proof.Machine.execLdgB g u src s
  | .ldgH g u src => Sys2Proof.Machine.execLdgH g u src s
  | .ldgW g u src => Sys2Proof.Machine.execLdgW g u src s
  | .ldgD g u src => Sys2Proof.Machine.execLdgD g u src s
  | .stgB g u src => Sys2Proof.Machine.execStgB g u src s
  | .stgH g u src => Sys2Proof.Machine.execStgH g u src s
  | .stgW g u src => Sys2Proof.Machine.execStgW g u src s
  | .stgD g u src => Sys2Proof.Machine.execStgD g u src s
  | .ldAcq g u src => Sys2Proof.Machine.execLdAcq g u src s
  | .ldSc g u src => Sys2Proof.Machine.execLdSc g u src s
  | .stRel g u src => Sys2Proof.Machine.execStRel g u src s
  | .stSc g u src => Sys2Proof.Machine.execStSc g u src s
  | .atomAdd g u src => Sys2Proof.Machine.execAtomAdd g u src s
  | .atomAnd g u src => Sys2Proof.Machine.execAtomAnd g u src s
  | .atomOr g u src => Sys2Proof.Machine.execAtomOr g u src s
  | .atomXor g u src => Sys2Proof.Machine.execAtomXor g u src s
  | .atomMin g u src => Sys2Proof.Machine.execAtomMin g u src s
  | .atomMax g u src => Sys2Proof.Machine.execAtomMax g u src s
  | .atomXchg g u src => Sys2Proof.Machine.execAtomXchg g u src s
  | .atomCas g u src => Sys2Proof.Machine.execAtomCas g u src s
  | .fenceAcq g u src => Sys2Proof.Machine.execFenceAcq g u src s
  | .fenceRel g u src => Sys2Proof.Machine.execFenceRel g u src s
  | .fenceAr g u src => Sys2Proof.Machine.execFenceAr g u src s
  | .fenceSc g u src => Sys2Proof.Machine.execFenceSc g u src s
  | .taglook g u src => Sys2Proof.Machine.execTaglook g u src s
  | .tagset g u src => Sys2Proof.Machine.execTagset g u src s
  | .tagclr g u src => Sys2Proof.Machine.execTagclr g u src s
  | .rgnmap g u src => Sys2Proof.Machine.execRgnmap g u src s
  | .rgnunmap g u src => Sys2Proof.Machine.execRgnunmap g u src s
  | .rgnqry g u src => Sys2Proof.Machine.execRgnqry g u src s
  | .bankrel g u src => Sys2Proof.Machine.execBankrel g u src s
  | .bankwait g u src => Sys2Proof.Machine.execBankwait g u src s
  | .vadd g src => Sys2Proof.Machine.execVadd g src s
  | .vsub g src => Sys2Proof.Machine.execVsub g src s
  | .vmul g src => Sys2Proof.Machine.execVmul g src s
  | .vfma g src => Sys2Proof.Machine.execVfma g src s
  | .vmin g src => Sys2Proof.Machine.execVmin g src s
  | .vmax g src => Sys2Proof.Machine.execVmax g src s
  | .vabs g src => Sys2Proof.Machine.execVabs g src s
  | .vneg g src => Sys2Proof.Machine.execVneg g src s
  | .viadd g src => Sys2Proof.Machine.execViadd g src s
  | .visub g src => Sys2Proof.Machine.execVisub g src s
  | .vimul g src => Sys2Proof.Machine.execVimul g src s
  | .vand g src => Sys2Proof.Machine.execVand g src s
  | .vor g src => Sys2Proof.Machine.execVor g src s
  | .vxor g src => Sys2Proof.Machine.execVxor g src s
  | .vshl g src => Sys2Proof.Machine.execVshl g src s
  | .vshr g src => Sys2Proof.Machine.execVshr g src s
  | .vsar g src => Sys2Proof.Machine.execVsar g src s
  | .vcmpEq g src => Sys2Proof.Machine.execVcmpEq g src s
  | .vcmpNe g src => Sys2Proof.Machine.execVcmpNe g src s
  | .vcmpLt g src => Sys2Proof.Machine.execVcmpLt g src s
  | .vcmpLe g src => Sys2Proof.Machine.execVcmpLe g src s
  | .vcmpIeq g src => Sys2Proof.Machine.execVcmpIeq g src s
  | .vcmpIne g src => Sys2Proof.Machine.execVcmpIne g src s
  | .vcmpIlt g src => Sys2Proof.Machine.execVcmpIlt g src s
  | .vcmpIle g src => Sys2Proof.Machine.execVcmpIle g src s
  | .vcmpIltu g src => Sys2Proof.Machine.execVcmpIltu g src s
  | .vcmpIleu g src => Sys2Proof.Machine.execVcmpIleu g src s
  | .vsel g src => Sys2Proof.Machine.execVsel g src s
  | .vcvt g src => Sys2Proof.Machine.execVcvt g src s
  | .vredAdd g src => Sys2Proof.Machine.execVredAdd g src s
  | .vredMin g src => Sys2Proof.Machine.execVredMin g src s
  | .vredMax g src => Sys2Proof.Machine.execVredMax g src s
  | .vredIadd g src => Sys2Proof.Machine.execVredIadd g src s
  | .vshuf g src => Sys2Proof.Machine.execVshuf g src s
  | .vbcast g src => Sys2Proof.Machine.execVbcast g src s
  | .vgshuf g src => Sys2Proof.Machine.execVgshuf g src s
  | .vld g src => Sys2Proof.Machine.execVld g src s
  | .vst g src => Sys2Proof.Machine.execVst g src s
  | .vgath g src => Sys2Proof.Machine.execVgath g src s
  | .vscat g src => Sys2Proof.Machine.execVscat g src s
  | .kand g src => Sys2Proof.Machine.execKand g src s
  | .kor g src => Sys2Proof.Machine.execKor g src s
  | .kxor g src => Sys2Proof.Machine.execKxor g src s
  | .knot g src => Sys2Proof.Machine.execKnot g src s
  | .ktail g src => Sys2Proof.Machine.execKtail g src s
  | .kpopc g src => Sys2Proof.Machine.execKpopc g src s
  | .vclamp g src => Sys2Proof.Machine.execVclamp g src s
  | .fload g src => Sys2Proof.Machine.execFload g src s
  | .feval g src => Sys2Proof.Machine.execFeval g src s
  | .xpush g src => Sys2Proof.Machine.execXpush g src s
  | .xpop g src => Sys2Proof.Machine.execXpop g src s
  | .xclr g src => Sys2Proof.Machine.execXclr g src s
  | .mxcall g src => Sys2Proof.Machine.execMxcall g src s
  | .mxload g src => Sys2Proof.Machine.execMxload g src s
  | .mxresume g src => Sys2Proof.Machine.execMxresume g src s
  | .mxstat g src => Sys2Proof.Machine.execMxstat g src s
  | .mxzero g src => Sys2Proof.Machine.execMxzero g src s
  | .mxswap g src => Sys2Proof.Machine.execMxswap g src s
  | .mnop gang => Sys2Proof.Machine.execMnop gang s
  | .mlda gang x pr => Sys2Proof.Machine.execMlda gang x pr s
  | .mldb gang x pr => Sys2Proof.Machine.execMldb gang x pr s
  | .mstep gang x bk chk => Sys2Proof.Machine.execMstep gang x bk chk s
  | .mchk gang bk => Sys2Proof.Machine.execMchk gang bk s
  | .mloop gang n => Sys2Proof.Machine.execMloop gang n s
  | .mend gang => Sys2Proof.Machine.execMend gang s
  | .mhad gang bk => Sys2Proof.Machine.execMhad gang bk s
  | .mdrain gang x bk fmt => Sys2Proof.Machine.execMdrain gang x bk fmt s
  | .mflag gang bk => Sys2Proof.Machine.execMflag gang bk s
  | .mzero gang bk => Sys2Proof.Machine.execMzero gang bk s
  | .mswap gang => Sys2Proof.Machine.execMswap gang s
  | .msig gang n => Sys2Proof.Machine.execMsig gang n s
  | .msnap gang => Sys2Proof.Machine.execMsnap gang s
  | .mwait0 gang => Sys2Proof.Machine.execMwait0 gang s
  | .mhalt gang => Sys2Proof.Machine.execMhalt gang s
  | .wfill g src => Sys2Proof.Machine.execWfill g src s
  | .wflush g src => Sys2Proof.Machine.execWflush g src s
  | .winv g src => Sys2Proof.Machine.execWinv g src s
  | .watom g src => Sys2Proof.Machine.execWatom g src s
  | .wstat g src => Sys2Proof.Machine.execWstat g src s
  | .wres g src => Sys2Proof.Machine.execWres g src s
  | .pgreq g src => Sys2Proof.Machine.execPgreq g src s
  | .kcopy g src => Sys2Proof.Machine.execKcopy g src s
  | .kstat g src => Sys2Proof.Machine.execKstat g src s
  | .send g d src => Sys2Proof.Machine.execSend g d src s
  | .routeset g src => Sys2Proof.Machine.execRouteset g src s
  | .nameload g src => Sys2Proof.Machine.execNameload g src s
  | .nameq g src => Sys2Proof.Machine.execNameq g src s
  | .barinit g src => Sys2Proof.Machine.execBarinit g src s
  | .bararr g src => Sys2Proof.Machine.execBararr g src s
  | .barwait g src => Sys2Proof.Machine.execBarwait g src s
  | .bartest g src => Sys2Proof.Machine.execBartest g src s
  | .barxin g src => Sys2Proof.Machine.execBarxin g src s
  | .barxout g src => Sys2Proof.Machine.execBarxout g src s
  | .tokput g src => Sys2Proof.Machine.execTokput g src s
  | .tokget g src => Sys2Proof.Machine.execTokget g src s
  | .ringput g src => Sys2Proof.Machine.execRingput g src s
  | .coll g src => Sys2Proof.Machine.execColl g src s
  | .collwait g src => Sys2Proof.Machine.execCollwait g src s
  | .routineLanding => Sys2Proof.Machine.execRoutineLanding s
  | .wfillLanding => Sys2Proof.Machine.execWfillLanding s
  | .wflushLanding => Sys2Proof.Machine.execWflushLanding s
  | .watomApply => Sys2Proof.Machine.execWatomApply s
  | .remoteWatomApply => Sys2Proof.Machine.execRemoteWatomApply s
  | .remoteWatomReply => Sys2Proof.Machine.execRemoteWatomReply s
  | .routesetCheck => Sys2Proof.Machine.execRoutesetCheck s
  | .switchProgramStart => Sys2Proof.Machine.execSwitchProgramStart s
  | .routerStaticBeat => Sys2Proof.Machine.execRouterStaticBeat s
  | .asyncItemSend => Sys2Proof.Machine.execAsyncItemSend s
  | .remoteAccessArrival => Sys2Proof.Machine.execRemoteAccessArrival s
  | .arrivalDelivery => Sys2Proof.Machine.execArrivalDelivery s
  | .releaseDelivery => Sys2Proof.Machine.execReleaseDelivery s
  | .copyBeatDelivery => Sys2Proof.Machine.execCopyBeatDelivery s
  | .tokenDelivery => Sys2Proof.Machine.execTokenDelivery s
  | .softEventDelivery => Sys2Proof.Machine.execSoftEventDelivery s
  | .collContributionArrival => Sys2Proof.Machine.execCollContributionArrival s
  | .hostRingEntryWrite => Sys2Proof.Machine.execHostRingEntryWrite s
  | .ringCoalesceTimeout => Sys2Proof.Machine.execRingCoalesceTimeout s
  | .ringHeadAdvance => Sys2Proof.Machine.execRingHeadAdvance s
  | .waitevComplete => Sys2Proof.Machine.execWaitevComplete s
  | .cycwaitComplete => Sys2Proof.Machine.execCycwaitComplete s
  | .cycalignComplete => Sys2Proof.Machine.execCycalignComplete s
  | .barwaitComplete => Sys2Proof.Machine.execBarwaitComplete s
  | .bankwaitComplete => Sys2Proof.Machine.execBankwaitComplete s
  | .rgnmapWalkEnd => Sys2Proof.Machine.execRgnmapWalkEnd s
  | .rgnmapComplete => Sys2Proof.Machine.execRgnmapComplete s
  | .collwaitComplete => Sys2Proof.Machine.execCollwaitComplete s
  | .sysAnswer => Sys2Proof.Machine.execSysAnswer s
  | .haltDrainComplete => Sys2Proof.Machine.execHaltDrainComplete s
  | .taskStart => Sys2Proof.Machine.execTaskStart s
  | .dispatchDecision => Sys2Proof.Machine.execDispatchDecision s
  | .timeTableFiring => Sys2Proof.Machine.execTimeTableFiring s
  | .heartbeat => Sys2Proof.Machine.execHeartbeat s
  | .heartbeatTimeout => Sys2Proof.Machine.execHeartbeatTimeout s
  | .bellwetherRoundStart => Sys2Proof.Machine.execBellwetherRoundStart s
  | .beaconReceive => Sys2Proof.Machine.execBeaconReceive s
  | .sampleTick => Sys2Proof.Machine.execSampleTick s
  | .breakpointHit => Sys2Proof.Machine.execBreakpointHit s
  | .stepStopEdge => Sys2Proof.Machine.execStepStopEdge s
  | .freezeEdge => Sys2Proof.Machine.execFreezeEdge s
  | .uncorrectableErrorDetect => Sys2Proof.Machine.execUncorrectableErrorDetect s
  | .rollback => Sys2Proof.Machine.execRollback s
  | .replayRequest => Sys2Proof.Machine.execReplayRequest s
  | .replayBoundaryCut => Sys2Proof.Machine.execReplayBoundaryCut s
  | .quiesceCut => Sys2Proof.Machine.execQuiesceCut s
  | .quiesceBoundExpiry => Sys2Proof.Machine.execQuiesceBoundExpiry s
  | .invalTimeout => Sys2Proof.Machine.execInvalTimeout s
  | .contextResumeStart => Sys2Proof.Machine.execContextResumeStart s
  | .dumpWrite => Sys2Proof.Machine.execDumpWrite s
  | .dumpAbort => Sys2Proof.Machine.execDumpAbort s
  | .create => Sys2Proof.Machine.execCreate s
  | .start => Sys2Proof.Machine.execStart s
  | .quiesce => Sys2Proof.Machine.execQuiesce s
  | .freeze => Sys2Proof.Machine.execFreeze s
  | .resume => Sys2Proof.Machine.execResume s
  | .exportImage => Sys2Proof.Machine.execExportImage s
  | .restore => Sys2Proof.Machine.execRestore s
  | .kill => Sys2Proof.Machine.execKill s
  | .release => Sys2Proof.Machine.execRelease s
  | .loaddone => Sys2Proof.Machine.execLoaddone s
  | .stepCmd => Sys2Proof.Machine.execStepCmd s
  | .bkSet => Sys2Proof.Machine.execBkSet s
  | .bkClear => Sys2Proof.Machine.execBkClear s
  | .trArm => Sys2Proof.Machine.execTrArm s
  | .smpSet => Sys2Proof.Machine.execSmpSet s
  | .mkRead => Sys2Proof.Machine.execMkRead s
  | .pgInval => Sys2Proof.Machine.execPgInval s
  | .pgMigrate => Sys2Proof.Machine.execPgMigrate s
  | .pgAnswer => Sys2Proof.Machine.execPgAnswer s
  | .winSet => Sys2Proof.Machine.execWinSet s
  | .commSet => Sys2Proof.Machine.execCommSet s
  | .ringSet => Sys2Proof.Machine.execRingSet s
  | .ttSet => Sys2Proof.Machine.execTtSet s
  | .loadObject => Sys2Proof.Machine.execLoadObject s
  | .pageRequestArrival => Sys2Proof.Machine.execPageRequestArrival s
  | .hostMailboxWrite => Sys2Proof.Machine.execHostMailboxWrite s
  | .doorbellWrite => Sys2Proof.Machine.execDoorbellWrite s
  | .hostWindowWrite => Sys2Proof.Machine.execHostWindowWrite s
  | .hostWindowRead => Sys2Proof.Machine.execHostWindowRead s
  | .hostLeafWrite => Sys2Proof.Machine.execHostLeafWrite s
  | .linkTraining => Sys2Proof.Machine.execLinkTraining s
  | .linkUnrecoverableError => Sys2Proof.Machine.execLinkUnrecoverableError s
  | .seamBeatError => Sys2Proof.Machine.execSeamBeatError s
  | .transportDataReceive => Sys2Proof.Machine.execTransportDataReceive s
  | .transportAckReceive => Sys2Proof.Machine.execTransportAckReceive s
  | .transportNakReceive => Sys2Proof.Machine.execTransportNakReceive s
  | .transportResendTimeout => Sys2Proof.Machine.execTransportResendTimeout s
  | .ptpMessage => Sys2Proof.Machine.execPtpMessage s
  | .timeSourceLoss => Sys2Proof.Machine.execTimeSourceLoss s
  | .powerOn => Sys2Proof.Machine.execPowerOn s
  | .selftestResult => Sys2Proof.Machine.execSelftestResult s
  | .islandMerge => Sys2Proof.Machine.execIslandMerge s
  | .bindingMapWrite => Sys2Proof.Machine.execBindingMapWrite s
  | .remap => Sys2Proof.Machine.execRemap s
  | .reinstatement => Sys2Proof.Machine.execReinstatement s
  | .voltageTrim => Sys2Proof.Machine.execVoltageTrim s
  | .droopAlarm => Sys2Proof.Machine.execDroopAlarm s
  | .powerOff => Sys2Proof.Machine.execPowerOff s
  | .linkStop => Sys2Proof.Machine.execLinkStop s
  | .alignmentArrival => Sys2Proof.Machine.execAlignmentArrival s
  | .timeSourceSelect => Sys2Proof.Machine.execTimeSourceSelect s
  | .pinReleaseComplete => Sys2Proof.Machine.execPinReleaseComplete s

end Sys2Proof.Machine
end

