-- ==== Sys2Proof/Machine/Fetch.lean ====
section
/-! DEFINITION. What a step takes up next: a slot of the bundle in hand, the end of that bundle, or the next event of the agenda; and how a word is put where a step finds it. -/

namespace Sys2Proof.Machine

/-- The bundle in hand with the next slot taken out of it. -/
def takeSlot (is : Issue) (i : Nat) (w : BitVec 24) (rest : List (Nat × BitVec 24)) : Issue :=
  { is with slot := i, trig := (slotPort w).toNat, words := rest }

/-- The state with the next event of the agenda in hand. -/
def takeEvent (s : State) (e : Ev) (rest : List Ev) : State :=
  { s with now := max s.now e.at_, agenda := rest, own := e.own, arg := e.arg }

/-- The next instruction and the state it acts on: the slots of a bundle in hand one by one, then the end of the bundle
(02_bundle R33); with no bundle in hand the first event of the agenda.  The check of R53 empties a bundle that holds a
word that is no slot, so such a word in hand is refused; nothing due is a module that is off. -/
def fetchWork (s : State) : Except (Host.Outcome State Fault Refusal) (Instr × State) :=
  match s.issue with
  | some is =>
    match is.words with
    | [] => .ok (.bundleIssue is.gang, s)
    | (i, w) :: rest =>
      match decodeSlot w with
      | .ok ins => .ok (ins, { s with issue := some (takeSlot is i w rest) })
      | .error _ => .error (.refused .reservedEncoding)
  | none =>
    match s.agenda with
    | [] => .error (.fault .idle)
    | e :: rest => .ok (e.instr, takeEvent s e rest)

/-! ### Placing a word -/

/-- A gang of one tile issues at tile 0 of context 0, if none does. -/
def stageGang (s : State) : State :=
  let s := if (ctxOf s 0).st = .running then s else modCtx s 0 fun k => { k with st := .running }
  let s := modSlab s 0 fun sl => { sl with gang := some 0 }
  let g := match tabGet s.gangs 0 with | some g => g | none => Gang.fresh 0 0 1
  if g.seq = .issuing || g.seq = .handler then { s with gangs := tabPut s.gangs 0 g }
  else { s with gangs := tabPut s.gangs 0 { g with seq := if g.handler then .handler else .issuing } }

/-- The slot is the one slot left of the bundle that the gang at tile 0 is issuing; its sources read the present state. -/
def placeSlot (s : State) (w : BitVec 24) : State :=
  let s := stageGang s
  { s with issue := some ⟨0, (gangOf s 0).pc, BitVec.twoPow 64 63, 0, 0, [(0, w)], none, 0⟩ }

/-- The microword stands at index 512 of tile 0's store and starts on the present cycle, in a routine of a gang of one
tile. -/
def placeMicro (s : State) (w : Word) : State :=
  let s := stageGang s
  let gg := gangOf s 0
  let own : Owner := ⟨gg.ctx, gg.task, 0, gg.handler, gg.pc, 0, 608, s.now⟩
  let r : MxRun :=
    { own, upc := 512, gupc := 512, land := s.now + 4096, lc := 0, loopStart := 512, gi := 0, fmt := gg.fmt, mp := (slabOf s 0).mx.mp,
      hm := latchHm (slabOf s 0), bound := none, a := descReset, b := descReset, rowsA := [], rowsB := [], bg := none,
      parked := none, skip := false, release := [], base := 512, since := s.now }
  let s := modMx s 0 fun m => { m with words := tabPut m.words 512 w, run := some r, busy := true }
  { s with issue := none, agenda := ⟨s.now, ordMicro, 0, some own, decodeMicro 0 w, .none⟩ :: s.agenda }

/-- A word of the opcode table, placed where the next step takes it up. -/
def placeWord (s : State) (nbits w : Nat) : State :=
  if nbits ≤ 24 then placeSlot s (BitVec.ofNat 24 (w % 2 ^ nbits)) else placeMicro s (BitVec.ofNat 64 w)

end Sys2Proof.Machine
end

