-- ==== Sys2Proof/Machine/Step.lean ====
section
/-! DEFINITION. One step of the module, and the placing of a word where the next step runs it. -/

namespace Sys2Proof.Machine

/-- One step: the instruction that fetchWork takes up, run by its meaning. -/
def step (s : State) : Host.Outcome State Fault Refusal :=
  match fetchWork s with
  | .ok (i, s') => exec i s'
  | .error o => o

/-- s with one word of the opcode table where the next step takes it up (log 16). -/
def State.withFetchWord (s : State) (nbits w : Nat) : State := placeWord s nbits w

end Sys2Proof.Machine
end

