-- ==== Sys2Proof/Safety.lean ====
section
/-! DEFINITION. The forms that every state of the module keeps, what a safe run is, and the terms the statements use: a slot that runs, and the state with that slot counted. -/

namespace Sys2Proof.Machine

/-- The agenda stands in the order of its events. -/
def agendaSorted : List Ev → Bool
  | [] => true
  | [_] => true
  | a :: b :: t => !evLt b a && agendaSorted (b :: t)

/-- Both byte memories stand in their canonical form. -/
abbrev State.memWf (s : State) : Prop := Memory.wf s.mem = true ∧ Memory.wf s.vault = true

/-- A run of k steps that ends in a next state neither stops nor refuses. -/
def safeRun (k : Nat) (s : State) : Prop := ∃ t, Host.Core.run Sys2Proof.core k s = .next t

/-- The slot in hand of the bundle is, with guard g, runs to port d: its guard holds, and in HANDLER the port is one
that a handler may write (02_bundle R31, 16_context R379). -/
def slotRuns (s : State) (is : Issue) (g : BitVec 5) (d : Nat) : Prop :=
  s.issue = some is ∧ guardHolds g (srcGang s is).p = true ∧
    ((gangOf s is.gang).handler = true → handlerMay d = true)

/-- The bundle in hand with its slot counted as fired, to port d. -/
def firedIssue (is : Issue) (d : Nat) : Issue := { is with trig := d, fired := is.fired ||| BitVec.twoPow 8 is.slot }

/-- The state with the slot in hand counted as fired: nothing but the bundle in hand and counter 4 changes
(21_marker R465). -/
def fired (s : State) (is : Issue) (d : Nat) : State :=
  bumpCounter { s with issue := some (firedIssue is d) } is.gang 4 1

/-- Whom the slot works for. -/
def slotOwner (s : State) (is : Issue) (d : Nat) : Owner := issueOwner s (firedIssue is d)

end Sys2Proof.Machine
end

