-- ==== Sys2Proof/Certificates/Slice0/Obligations.lean ====
section
/-! DEFINITION. The statements for the provers, with the rows and the terms they are written over. -/

namespace Sys2Proof.Machine

/-! ### Terms of the statements -/

/-- The state after a front-end trigger to port d: the slot is counted, and value v is on its way to result port k of
the issuing gang, landing lat cycles after the trigger (02_bundle R33, 00_scope R10). -/
def feLanding (s : State) (is : Issue) (d k lat : Nat) (v : TV) : State :=
  postLand (fired s is d) (slotOwner s is d) (s.now + lat) (.feRes k v)

/-- An operation of I0 and I1 that reads opa and its trigger: port and result offsets, latency, value. -/
structure IntRow where
  ins  : BitVec 5 → BitVec 1 → BitVec 9 → Instr
  port : Nat
  res  : Nat
  lat  : Nat
  val  : Word → Word → Word

/-- Two words as the R93 form of an operation reads and delivers them. -/
def wForm (f : BitVec 32 → BitVec 32 → BitVec 32) (a t : Word) : Word := (f (a.setWidth 32) (t.setWidth 32)).signExtend 64

/-- A compare's result. -/
def bit (p : Prop) [Decidable p] : Word := if p then 1 else 0

/-- 04_scalar R94, R95, R97, R98: results in port r at c+1, in port m at c+3. -/
def arithRows : List IntRow :=
  [⟨.add, 2, 0, 1, fun a t => a + t⟩, ⟨.sub, 3, 0, 1, fun a t => a - t⟩, ⟨.and, 5, 0, 1, fun a t => a &&& t⟩,
   ⟨.or, 6, 0, 1, fun a t => a ||| t⟩, ⟨.xor, 7, 0, 1, fun a t => a ^^^ t⟩, ⟨.andn, 8, 0, 1, fun a t => a &&& ~~~t⟩,
   ⟨.shl, 9, 0, 1, fun a t => BitVec.ofNat 64 (a.toNat * 2 ^ (t.toNat % 64))⟩,
   ⟨.shr, 10, 0, 1, fun a t => BitVec.ofNat 64 (a.toNat / 2 ^ (t.toNat % 64))⟩,
   ⟨.sar, 11, 0, 1, fun a t => BitVec.ofInt 64 (a.toInt / 2 ^ (t.toNat % 64))⟩,
   ⟨.rol, 12, 0, 1, fun a t => a.rotateLeft (t.toNat % 64)⟩,
   ⟨.addW, 40, 0, 1, wForm fun a t => a + t⟩, ⟨.subW, 41, 0, 1, wForm fun a t => a - t⟩,
   ⟨.shlW, 42, 0, 1, wForm fun a t => a <<< (t.toNat % 32)⟩, ⟨.shrW, 43, 0, 1, wForm fun a t => a >>> (t.toNat % 32)⟩,
   ⟨.sarW, 44, 0, 1, wForm fun a t => a.sshiftRight (t.toNat % 32)⟩,
   ⟨.rolW, 45, 0, 1, wForm fun a t => a.rotateLeft (t.toNat % 32)⟩]

def mulRows : List IntRow :=
  [⟨.mul, 13, 1, 3, fun a t => BitVec.ofNat 64 (a.toNat * t.toNat)⟩,
   ⟨.mulh, 14, 1, 3, fun a t => (BitVec.ofInt 128 (a.toInt * t.toInt)).extractLsb' 64 64⟩,
   ⟨.mulhu, 15, 1, 3, fun a t => (BitVec.ofNat 128 (a.toNat * t.toNat)).extractLsb' 64 64⟩,
   ⟨.mulW, 46, 1, 3, wForm fun a t => BitVec.ofNat 32 (a.toNat * t.toNat)⟩,
   ⟨.mulhW, 47, 1, 3, wForm fun a t => (BitVec.ofInt 64 (a.toInt * t.toInt)).extractLsb' 32 32⟩,
   ⟨.mulhuW, 48, 1, 3, wForm fun a t => (BitVec.ofNat 64 (a.toNat * t.toNat)).extractLsb' 32 32⟩]

def minMaxRows : List IntRow :=
  [⟨.min, 19, 0, 1, fun a t => if a.toInt < t.toInt then a else t⟩,
   ⟨.max, 20, 0, 1, fun a t => if a.toInt < t.toInt then t else a⟩,
   ⟨.minu, 21, 0, 1, fun a t => if a.toNat < t.toNat then a else t⟩,
   ⟨.maxu, 22, 0, 1, fun a t => if a.toNat < t.toNat then t else a⟩,
   ⟨.minW, 52, 0, 1, wForm fun a t => if a.toInt < t.toInt then a else t⟩,
   ⟨.maxW, 53, 0, 1, wForm fun a t => if a.toInt < t.toInt then t else a⟩,
   ⟨.minuW, 54, 0, 1, wForm fun a t => if a.toNat < t.toNat then a else t⟩,
   ⟨.maxuW, 55, 0, 1, wForm fun a t => if a.toNat < t.toNat then t else a⟩]

def fieldRows : List IntRow :=
  [⟨.sext, 28, 0, 1, fun a t =>
     let n := t.toNat % 128
     if n = 0 then 0 else if 64 ≤ n then a else (a <<< (64 - n)).sshiftRight (64 - n)⟩,
   ⟨.zext, 29, 0, 1, fun a t =>
     let n := t.toNat % 128
     if 64 ≤ n then a else BitVec.ofNat 64 (a.toNat % 2 ^ n)⟩,
   ⟨.extr, 26, 0, 1, fun a t =>
     let pos := t.toNat % 64
     let l := min (t.extractLsb' 8 7).toNat (64 - pos)
     if l = 0 then 0
     else if t.getLsbD 15 then ((a >>> pos) <<< (64 - l)).sshiftRight (64 - l) else ((a >>> pos) <<< (64 - l)) >>> (64 - l)⟩]

def compareRows : List IntRow :=
  [⟨.cmpeq, 31, 3, 1, fun a t => bit (a = t)⟩, ⟨.cmpne, 32, 3, 1, fun a t => bit (a ≠ t)⟩,
   ⟨.cmplt, 33, 3, 1, fun a t => bit (a.toInt < t.toInt)⟩, ⟨.cmpltu, 34, 3, 1, fun a t => bit (a.toNat < t.toNat)⟩,
   ⟨.cmple, 35, 3, 1, fun a t => bit (a.toInt ≤ t.toInt)⟩, ⟨.cmpleu, 36, 3, 1, fun a t => bit (a.toNat ≤ t.toNat)⟩,
   ⟨.cmpbit, 37, 3, 1, fun a t => bit (a.toNat / 2 ^ (t.toNat % 64) % 2 = 1)⟩,
   ⟨.cmpeqW, 58, 3, 1, fun a t => bit (a.setWidth 32 = t.setWidth 32)⟩,
   ⟨.cmpneW, 59, 3, 1, fun a t => bit (a.setWidth 32 ≠ t.setWidth 32)⟩,
   ⟨.cmpltW, 60, 3, 1, fun a t => bit ((a.setWidth 32).toInt < (t.setWidth 32).toInt)⟩,
   ⟨.cmpltuW, 61, 3, 1, fun a t => bit ((a.setWidth 32).toNat < (t.setWidth 32).toNat)⟩,
   ⟨.cmpleW, 62, 3, 1, fun a t => bit ((a.setWidth 32).toInt ≤ (t.setWidth 32).toInt)⟩,
   ⟨.cmpleuW, 63, 3, 1, fun a t => bit ((a.setWidth 32).toNat ≤ (t.setWidth 32).toNat)⟩]

/-- Every operation of a list lands its value: opa and the trigger are read, the tags are joined (04_scalar R84, R92). -/
def rowsLand (rows : List IntRow) : Prop :=
  ∀ (s : State) (is : Issue) (g : BitVec 5) (u : BitVec 1) (src : BitVec 9), ∀ r ∈ rows,
    slotRuns s is g (intPort u r.port) →
    exec (r.ins g u src) s = .next (feLanding s is (intPort u r.port) (intRes u r.res) r.lat
      ⟨r.val (feOpd s is (intPort u 0)).val (readFE s is src).val, (feOpd s is (intPort u 0)).df || (readFE s is src).df⟩)

/-- A sound condition of the front-end destination d of a plain move (02_bundle R41 to R43, R48). -/
def keepsTag (d : Nat) : Bool := d < 64 || d = 128 || d = 129 || d = 192 || d = 193 || d = 256 || d = 257 || (288 ≤ d && d < 296)

/-- The two operands of a divide as R96 reads them, and its result at width n. -/
def divideResult (n : Nat) (signed rem : Bool) (a t : BitVec n) : BitVec n :=
  if t = 0 then (if rem then a else BitVec.allOnes n)
  else if rem then BitVec.ofNat n (a.toNat % t.toNat)
  else if signed then BitVec.ofInt n (a.toInt.tdiv t.toInt)
  else BitVec.ofNat n (a.toNat / t.toNat)

/-- A divide: instruction, port offset, 32-bit form, signed, remainder. -/
structure DivRow where
  ins  : BitVec 5 → BitVec 1 → BitVec 9 → Instr
  port : Nat
  w32  : Bool
  signed : Bool
  rem  : Bool

def divRows : List DivRow :=
  [⟨.divs, 16, false, true, false⟩, ⟨.divu, 17, false, false, false⟩, ⟨.remu, 18, false, false, true⟩,
   ⟨.divsW, 49, true, true, false⟩, ⟨.divuW, 50, true, false, false⟩, ⟨.remuW, 51, true, false, true⟩]

def DivRow.zero (r : DivRow) (t : Word) : Bool := if r.w32 then t.setWidth 32 = (0 : BitVec 32) else t = 0
def DivRow.val (r : DivRow) (a t : Word) : Word :=
  if r.w32 then (divideResult 32 r.signed r.rem (a.setWidth 32) (t.setWidth 32)).signExtend 64
  else divideResult 64 r.signed r.rem a t

/-- An operation of one operand, its trigger. -/
structure UnaryRow where
  ins  : BitVec 5 → BitVec 1 → BitVec 9 → Instr
  port : Nat
  val  : Word → Nat

def unaryRows : List UnaryRow :=
  [⟨.clz, 23, fun t => ((List.range 64).find? fun i => t.getLsbD (63 - i)).getD 64⟩,
   ⟨.ctz, 24, fun t => ((List.range 64).find? fun i => t.getLsbD i).getD 64⟩,
   ⟨.popc, 25, fun t => ((List.range 64).filter fun i => t.getLsbD i).length⟩,
   ⟨.clzW, 56, fun t => ((List.range 32).find? fun i => t.getLsbD (31 - i)).getD 32⟩,
   ⟨.ctzW, 57, fun t => ((List.range 32).find? fun i => t.getLsbD i).getD 32⟩]

/-- An operation that reads opa, opc and its trigger. -/
structure TernaryRow where
  ins  : BitVec 5 → BitVec 1 → BitVec 9 → Instr
  port : Nat
  val  : Word → Word → Word → Word

def addshRow : TernaryRow := ⟨.addsh, 4, fun a c t => a + t <<< (c.toNat % 64)⟩

def insRow : TernaryRow :=
  ⟨.ins, 27, fun a c t =>
     let pos := t.toNat % 64
     let l := min (t.extractLsb' 8 7).toNat (64 - pos)
     let mask : Word := BitVec.ofNat 64 (2 ^ l - 1) <<< pos
     (a &&& ~~~mask) ||| ((c <<< pos) &&& mask)⟩

def selRow : TernaryRow := ⟨.sel, 30, fun a c t => if t = 0 then c else a⟩

/-- An operation that reads opa, opc and its trigger lands its value with the three tags joined (04_scalar R84). -/
def ternaryLands (r : TernaryRow) : Prop :=
  ∀ (s : State) (is : Issue) (g : BitVec 5) (u : BitVec 1) (src : BitVec 9), slotRuns s is g (intPort u r.port) →
    let a := feOpd s is (intPort u 0)
    let c := feOpd s is (intPort u 1)
    let t := readFE s is src
    exec (r.ins g u src) s = .next (feLanding s is (intPort u r.port) (intRes u 0) 1
      ⟨r.val a.val c.val t.val, a.df || c.df || t.df⟩)

/-- The window of a space for a gang of w tiles: first address and size (06_region R142). -/
def windowOf (w sp : Nat) : Nat × Nat :=
  match sp with
  | 0 => (0, 2 ^ 22)
  | 1 => (2 ^ 32, if w = 1 then 0 else w * 2 ^ 22)
  | 2 => (2 ^ 40, 2 ^ 38)
  | _ => (2 ^ 48, 2 ^ 48)

/-- Address a lies in the window of space sp. -/
def inWindow (w sp a : Nat) : Bool := (windowOf w sp).1 ≤ a && a < (windowOf w sp).1 + (windowOf w sp).2

/-! ### Terms for C -/

/-- A trigger of C runs untagged: its value, and c.opa or c.opb where it reads them (04_scalar R85). -/
def ctlRuns (s : State) (is : Issue) (g : BitVec 5) (d : Nat) (src : BitVec 9) (a b : Bool) : Prop :=
  slotRuns s is g d ∧ (readFE s is src).df = false ∧ (a = true → (feOpd s is 256).df = false) ∧
    (b = true → (feOpd s is 257).df = false)

/-- The state with the block record of the issuing gang changed and the slot counted. -/
def withBlock (s : State) (is : Issue) (d : Nat) (f : Block → Block) : State :=
  modGang (fired s is d) is.gang fun gg => { gg with blk := f gg.blk }

/-- An exit of C: instruction, port, whether it reads c.opa, target, argument, from the trigger value and c.opa. -/
structure ExitRow where
  ins  : BitVec 5 → BitVec 9 → Instr
  port : Nat
  opa  : Bool
  tgt  : Word → Word → Word
  aux  : Word → Word → Word

/-- 05_sequencer R111, R133, R134. -/
def exitRows : List ExitRow :=
  [⟨.jmp, 258, false, fun t _ => t, fun _ _ => 0⟩, ⟨.jmpr, 259, true, fun t a => a + t, fun _ _ => 0⟩,
   ⟨.call, 260, false, fun t _ => t, fun _ _ => 0⟩, ⟨.callr, 261, true, fun t a => a + t, fun _ _ => 0⟩,
   ⟨.ret, 262, false, fun _ _ => 0, fun _ _ => 0⟩,
   ⟨.trap, 280, false, fun t _ => (t.extractLsb' 0 16).setWidth 64, fun _ _ => 0⟩,
   ⟨.sys, 281, true, fun t _ => (t.extractLsb' 0 16).setWidth 64, fun _ a => a⟩,
   ⟨.evret, 282, false, fun _ _ => 0, fun _ _ => 0⟩,
   ⟨.halt, 284, false, fun t _ => (t.extractLsb' 0 8).setWidth 64, fun _ _ => 0⟩]

/-- The cycle as the issuing tile reads it, and the cycles since its segment's origin. -/
def cycleOf (s : State) (is : Issue) : Word := tileCyc s is.gang
def sinceOrigin (s : State) (is : Issue) : Word := tileCyc s is.gang - (gangOf s is.gang).origin

/-! ### Terms for moves into slabs -/

/-- What a move of an S, P or K value to port d changes in a slab (02_bundle R41, R44 to R48, R379): a mask register, a
microprogram parameter, a field of a staged shape register, or an operand port in the bank of its trigger. -/
def slabMove (hand : Bool) (d : Nat) (v : TV) (sl : Slab) : Slab :=
  if d < 120 then { sl with k := tabPut sl.k (d - 112) v.val }
  else if 600 ≤ d ∧ d < 608 then { sl with mx := { sl.mx with mp := tabPut sl.mx.mp (d - 600) v.val } }
  else if 736 ≤ d then
    { sl with shadow := tabPut sl.shadow ((d - 736) / 4) (shapePutField ((d - 736) / 4) ((d - 736) % 4)
      (tabGetD (shapeReset ((d - 736) / 4)) sl.shadow ((d - 736) / 4)) v.val) }
  else if hand = true ∧ bankedPort (1000 + d) = true then { sl with hports := tabPut sl.hports (1000 + d) v }
  else { sl with ports := tabPut sl.ports (1000 + d) v }

/-- A slab destination of a plain move of class S or K (02_bundle R41, R44 to R48). -/
def slabDest (d : Nat) : Bool :=
  (113 ≤ d && d < 120) || (320 ≤ d && d < 323) || (384 ≤ d && d < 387) || (450 ≤ d && d < 453) || d = 576 || d = 592 ||
    (600 ≤ d && d < 608) || d = 614 || d = 640 || d = 641 || d = 672 || d = 673 || d = 684 || d = 704 || d = 720 ||
    d = 721 || (736 ≤ d && d < 800)

/-- The tiles whose slab a trigger or move to port d reaches: slab 0 for B, K and Q, else every slab (11_group R269). -/
def portTiles (s : State) (is : Issue) (d : Nat) : List TileName :=
  if (672 ≤ d ∧ d < 680) ∨ (704 ≤ d ∧ d < 736) then [is.gang] else gangTiles s is.gang

/-- No slab of the gang reads a tagged value from a source (04_scalar R85). -/
def plainIn (s : State) (is : Issue) (ts : List TileName) (src : BitVec 9) : Prop :=
  ∀ t ∈ ts, (readScalar s is t src).df = false

/-- The value of a source in slab t. -/
def srcIn (s : State) (is : Issue) (t : TileName) (src : BitVec 9) : Word := (readScalar s is t src).val

/-! ### Terms for L0 and L1 -/

/-- An operation of L0 or L1 that accesses memory: instruction, port offset, what it does, generic address. -/
structure MemRow where
  ins  : BitVec 5 → BitVec 2 → BitVec 9 → Instr
  k    : Nat
  kind : MemKind
  generic : Bool

/-- 06_region R147, R153, R154: the local forms first. -/
def memRows : List MemRow :=
  [⟨.ldB, 3, .load 1, false⟩, ⟨.ldH, 4, .load 2, false⟩, ⟨.ldW, 5, .load 4, false⟩, ⟨.ldD, 6, .load 8, false⟩,
   ⟨.stB, 11, .store 1, false⟩, ⟨.stH, 12, .store 2, false⟩, ⟨.stW, 13, .store 4, false⟩, ⟨.stD, 14, .store 8, false⟩,
   ⟨.ldgB, 15, .load 1, true⟩, ⟨.ldgH, 16, .load 2, true⟩, ⟨.ldgW, 17, .load 4, true⟩, ⟨.ldgD, 18, .load 8, true⟩,
   ⟨.stgB, 19, .store 1, true⟩, ⟨.stgH, 20, .store 2, true⟩, ⟨.stgW, 21, .store 4, true⟩, ⟨.stgD, 22, .store 8, true⟩,
   ⟨.ldAcq, 23, .ordLoad, true⟩, ⟨.ldSc, 24, .ordLoad, true⟩, ⟨.stRel, 25, .ordStore, true⟩, ⟨.stSc, 26, .ordStore, true⟩,
   ⟨.atomAdd, 29, .atom .add, true⟩, ⟨.atomAnd, 30, .atom .and, true⟩, ⟨.atomOr, 31, .atom .or, true⟩,
   ⟨.atomXor, 32, .atom .xor, true⟩, ⟨.atomMin, 33, .atom .min, true⟩, ⟨.atomMax, 34, .atom .max, true⟩,
   ⟨.atomXchg, 35, .atom .xchg, true⟩, ⟨.atomCas, 36, .atom .cas, true⟩]

/-- The access of one slab, with the ports of its result and the tiles that take it. -/
def accessOf (k : MemKind) (u : BitVec 2) (o : MemOpds) (p : Place) (port : Nat) (dests : List TileName) : MemAccess :=
  ⟨p.tile, p.addr, kindOp k o, port, dests, kindOrd k o (memAddr k o), lPath u, none⟩

/-- The access goes to an array of its own gang: its turn at c+2, behind the check of a release (06_region R139, R147,
13_binding R302). -/
def toOwnArray (st : State) (own : Owner) (c : Nat) (acc : MemAccess) (writes release : Bool) : State :=
  let st := postAct st own (c + 2) (if writes then ordWrite + acc.path else ordRead) (.mem acc)
  if release then postAct st own (c + 2) ordCheck (.relCheck acc) else st

def releases (k : MemKind) (o : MemOpds) : Bool :=
  match k with
  | .ordStore => true
  | .atom _ => ordReleases (scpOrd o.scp.val)
  | _ => false

/-- Every slab's operands are untagged, its scp code is not reserved, its scope is no wider than the wafer's domain. -/
def operandsPlain (s : State) (is : Issue) (u : BitVec 2) (src : BitVec 9) (k : MemKind) : Prop :=
  ∀ t ∈ gangTiles s is.gang, opdsTagged k (memOpds s is u src t) = false ∧ scpBad k (memOpds s is u src t).scp.val = false ∧
    (kindScoped k = true → scpScope (memOpds s is u src t).scp.val < 4)

/-! ### Terms for V, F and X -/

/-- A vector trigger meets no tag: a V source, or an S source untagged in every slab (04_scalar R85). -/
def vecPlain (s : State) (is : Issue) (src : BitVec 9) : Prop :=
  ∀ t ∈ gangTiles s is.gang, vecTagged s is t src = false

/-- The state after a vector trigger to port d: the slot is counted, flags fl are sticky, and each slab's action lands lat
cycles after the trigger (07_vector R178). -/
def vecLanding (s : State) (is : Issue) (d lat : Nat) (fl : FlagSet) (act : TileName → Action) : State :=
  forTiles (setFlags (fired s is d) is.gang fl) (gangTiles s is.gang) fun st t =>
    postLand st (slotOwner s is d) (s.now + lat) (act t)

/-- The flags that active lanes set, over the slabs of the gang in order. -/
def gangFlags (s : State) (is : Issue) (fl : TileName → FlagSet) : FlagSet :=
  (gangTiles s is.gang).foldl (fun a t => a.or (fl t)) .none

/-- A lane operation of V: instruction, port, result port, latency, the effect on a, cc and t. -/
structure LaneRow where
  ins  : BitVec 5 → BitVec 9 → Instr
  port : Nat
  res  : Nat
  lat  : Nat
  f    : BitVec 32 → BitVec 32 → BitVec 32 → BitVec 32 × FlagSet

/-- 07_vector R180: integer, logic and shift lanes; no flag. -/
def intLaneRows : List LaneRow :=
  [⟨.viadd, 461, 142, 2, fun a _ t => (a + t, .none)⟩, ⟨.visub, 462, 142, 2, fun a _ t => (a - t, .none)⟩,
   ⟨.vimul, 463, 142, 2, fun a _ t => (BitVec.ofNat 32 (a.toNat * t.toNat), .none)⟩,
   ⟨.vand, 464, 142, 2, fun a _ t => (a &&& t, .none)⟩, ⟨.vor, 465, 142, 2, fun a _ t => (a ||| t, .none)⟩,
   ⟨.vxor, 466, 142, 2, fun a _ t => (a ^^^ t, .none)⟩,
   ⟨.vshl, 467, 142, 2, fun a _ t => (BitVec.ofNat 32 (a.toNat * 2 ^ (t.toNat % 32)), .none)⟩,
   ⟨.vshr, 468, 142, 2, fun a _ t => (BitVec.ofNat 32 (a.toNat / 2 ^ (t.toNat % 32)), .none)⟩,
   ⟨.vsar, 469, 142, 2, fun a _ t => (BitVec.ofInt 32 (a.toInt / 2 ^ (t.toNat % 32)), .none)⟩]

/-- 07_vector R179, R180: FP32 lanes with their invalid-operation flag; a NaN passes as the canonical NaN. -/
def fpLaneRows : List LaneRow :=
  let isNan (x : BitVec 32) : Bool := (decodeFmt 4 x.toNat).isNan
  let res (x : Nat × Bool) : BitVec 32 × FlagSet := (BitVec.ofNat 32 x.1, ⟨false, x.2, false⟩)
  [⟨.vadd, 453, 144, 4, fun a _ t => res (add32 a.toNat t.toNat)⟩,
   ⟨.vsub, 454, 144, 4, fun a _ t => res (add32 a.toNat (t ^^^ 0x80000000).toNat)⟩,
   ⟨.vmul, 455, 144, 4, fun a _ t => res (mul32 a.toNat t.toNat)⟩,
   ⟨.vfma, 456, 144, 4, fun a c t => res (fma32 a.toNat t.toNat c.toNat)⟩,
   ⟨.vmin, 457, 144, 4, fun a _ t => (if isNan a || isNan t then 0x7FC00000 else if fLt t a then t else if fLt a t then a
     else if a.getLsbD 31 then a else t, .none)⟩,
   ⟨.vmax, 458, 144, 4, fun a _ t => (if isNan a || isNan t then 0x7FC00000 else if fLt t a then a else if fLt a t then t
     else if a.getLsbD 31 then t else a, .none)⟩,
   ⟨.vabs, 459, 142, 2, fun _ _ t => (if isNan t then 0x7FC00000 else t &&& 0x7FFFFFFF, .none)⟩,
   ⟨.vneg, 460, 142, 2, fun _ _ t => (if isNan t then 0x7FC00000 else t ^^^ 0x80000000, .none)⟩]

/-- The lanes of an operation under the mask: an inactive lane gives 0 and no flag (07_vector R178). -/
def LaneRow.lane (r : LaneRow) (o : VOpds) (x : Vec) (i : Nat) : BitVec 32 × FlagSet :=
  if o.km.getLsbD i then r.f (Machine.lane o.a i) (Machine.lane o.cc i) (Machine.lane x i) else (0, .none)

def LaneRow.flags (r : LaneRow) (o : VOpds) (x : Vec) : FlagSet :=
  (List.range 64).foldl (fun a i => a.or (r.lane o x i).2) .none

/-- Every lane operation of a list lands its lanes and sets its flags, where no slab meets a numeric trap. -/
def lanesLand (rows : List LaneRow) : Prop :=
  ∀ (s : State) (is : Issue) (g : BitVec 5) (src : BitVec 9), ∀ r ∈ rows, slotRuns s is g r.port → vecPlain s is src →
    let fl (t : TileName) : FlagSet := r.flags (vOpds s is t) (readVec s is t src)
    (∀ t ∈ gangTiles s is.gang, numericTrap (gangOf s is.gang).fmt (fl t) = none) →
    exec (r.ins g src) s = .next (vecLanding s is r.port r.lat (gangFlags s is fl) fun t =>
      .vRes t r.res (ofLanes fun i => (r.lane (vOpds s is t) (readVec s is t src) i).1))

/-- A compare of V: instruction, port, the predicate on a and t. -/
structure VcmpRow where
  ins  : BitVec 5 → BitVec 9 → Instr
  port : Nat
  p    : BitVec 32 → BitVec 32 → Bool

def vcmpRows : List VcmpRow :=
  [⟨.vcmpEq, 470, fEq⟩, ⟨.vcmpNe, 471, fun a t => !fEq a t⟩, ⟨.vcmpLt, 472, fLt⟩,
   ⟨.vcmpLe, 473, fun a t => fLt a t || fEq a t⟩, ⟨.vcmpIeq, 474, fun a t => decide (a = t)⟩,
   ⟨.vcmpIne, 475, fun a t => decide (a ≠ t)⟩, ⟨.vcmpIlt, 476, fun a t => decide (a.toInt < t.toInt)⟩,
   ⟨.vcmpIle, 477, fun a t => decide (a.toInt ≤ t.toInt)⟩, ⟨.vcmpIltu, 478, fun a t => decide (a.toNat < t.toNat)⟩,
   ⟨.vcmpIleu, 479, fun a t => decide (a.toNat ≤ t.toNat)⟩]

/-- The active lanes of a vector memory operation pass every check: inside the scratchpad, aligned, no store to the
protected area, in a bank of the task (07_vector R190). -/
def lanesOk (s : State) (is : Issue) (t : TileName) (km : Word) (adr : Nat → Word) (writes : Bool) : Prop :=
  ∀ i < 64, km.getLsbD i = true → (adr i).toNat < 2 ^ 22 ∧ (adr i).toNat % 4 = 0 ∧ (writes = true → 0x5000 ≤ (adr i).toNat) ∧
    holdsBank s (gangOf s is.gang).task t ((adr i).toNat / 2 ^ 17) = true

/-- No FLOAD row and no drain row claims the V path of a slab on a cycle (07_vector R193, 08_accumulator R223). -/
def vpathFree (s : State) (t : TileName) (y : Nat) : Prop := vpathCause (slabOf s t) y = none

/-- The active lanes in lane order. -/
def activeOf (km : Word) : List Nat := (List.range 64).filter fun i => km.getLsbD i

/-! ### Terms for element values -/

/-- x is the FP32 code that the value ±m · 2^e rounds to, to nearest, ties to even (03_element R66): an infinity from halfway
beyond the largest finite value on, else a code of that sign within half a unit of its last place, with an even code on a
tie. -/
def rneFp32 (neg : Bool) (m : Nat) (e : Int) (x : Nat) : Prop :=
  let k : Int := max ((Nat.log2 m : Int) + e) (-126) - 23
  let lo := min e (-149) - 1
  let v : Int := m * 2 ^ (e - lo).toNat
  if (2 ^ 25 - 1) * 2 ^ (103 - lo).toNat ≤ v then x = if neg then 0xFF800000 else 0x7F800000
  else
    let d : Int := scaled lo (decodeFmt 4 x) - (if neg then -v else v)
    x < 2 ^ 32 ∧ (2 ^ 31 ≤ x ↔ neg = true) ∧ (decodeFmt 4 x).isNan = false ∧ (decodeFmt 4 x).isInf = false ∧
      2 * d.natAbs ≤ 2 ^ (k - lo).toNat ∧ (2 * d.natAbs = 2 ^ (k - lo).toNat → x % 2 = 0)

/-- A code and whether it is an invalid operation, for exact terms: the special values of 03_element R72, with a NaN among
the operands or a product of 0 and an infinity; none where some term is nonzero and all are finite. -/
def specialRule (nan bad : Bool) (ts : List Machine.Num) : Option (Nat × Bool) :=
  if nan then some (0x7FC00000, false)
  else if bad || (ts.any (fun t => t.isInf && t.neg) && ts.any (fun t => t.isInf && !t.neg)) then some (0x7FC00000, true)
  else if ts.any (·.isInf) then some (if ts.any (fun t => t.isInf && t.neg) then 0xFF800000 else 0x7F800000, false)
  else if ts.all (·.isZero) then some (if ts.all (·.neg) then 0x80000000 else 0, false)
  else none

/-- A code and whether it is an invalid operation: the exact sum of terms, rounded once to FP32. -/
def sumRule (nan bad : Bool) (ts : List Machine.Num) (c : Nat × Bool) : Prop :=
  match specialRule nan bad ts with
  | some r => c = r
  | none =>
    let sum : Int := (ts.map (scaled (minExp ts))).sum
    c.2 = false ∧ if sum = 0 then c.1 = 0 else rneFp32 (decide (sum < 0)) sum.natAbs (minExp ts) c.1

/-- The exact product of two values that are no NaN, times 2^sc, where it is defined. -/
def product (sc : Int) : Machine.Num → Machine.Num → Machine.Num
  | .fin a m e, .fin b n k => .fin (xor a b) (m * n) (e + k + sc)
  | x, y => .inf (xor x.neg y.neg)

/-- 0 times an infinity. -/
def zeroTimesInf (x y : Machine.Num) : Bool := (x.isInf && y.isZero) || (x.isZero && y.isInf)

/-- The units of 2^lo that the alignment window keeps of a finite value, cut from its magnitude (03_element R72). -/
def windowUnits (lo : Int) : Machine.Num → Int
  | .fin neg m e =>
    let q : Int := if lo ≤ e then m * 2 ^ (e - lo).toNat else ((m / 2 ^ (lo - e).toNat : Nat) : Int)
    if neg then -q else q
  | _ => 0

/-- The window cuts nonzero bits of a finite value. -/
def windowCuts (lo : Int) : Machine.Num → Bool
  | .fin _ m e => decide (e < lo) && m % 2 ^ (lo - e).toNat != 0
  | _ => false

/-- One element of a floating group with a window of w bits: accumulator a, operand pairs, scale; the new code, whether bits
were lost, whether it is an invalid operation (03_element R72). -/
def windowRule (w : Nat) (a : Machine.Num) (ps : List (Machine.Num × Machine.Num)) (sc : Int) (out : Nat × Bool × Bool) : Prop :=
  let ts := a :: ps.map fun p => product sc p.1 p.2
  match specialRule (a.isNan || ps.any fun p => p.1.isNan || p.2.isNan) (ps.any fun p => zeroTimesInf p.1 p.2) ts with
  | some r => out = (r.1, false, r.2)
  | none => ∃ emax : Int, (∀ t ∈ ts, ∀ x, expOf t = some x → x ≤ emax) ∧ (∃ t ∈ ts, expOf t = some emax) ∧
      let lo := emax - w + 1
      let sum : Int := (ts.map (windowUnits lo)).sum
      out.2.2 = false ∧ out.2.1 = ts.any (windowCuts lo) ∧
        if sum = 0 then out.1 = 0 else rneFp32 (decide (sum < 0)) sum.natAbs lo out.1

/-- Element j of a packed register of w-bit elements (07_vector R174). -/
def packed (v : Vec) (w j : Nat) : Nat := (v.extractLsb' (w * j) w).toNat

/-- An element outside the range of a bound register (03_element R77). -/
def outsideBound (b : Bound) (v : Machine.Num) : Bool :=
  v.isNan || numLt v (decodeFmt 4 b.lo.toNat) || numLt (decodeFmt 4 b.hi.toNat) v

/-- The FP32 bound that replaces an element outside the range under CLAMP. -/
def clampTo (b : Bound) (v : Machine.Num) : BitVec 32 := if v.isNan || numLt v (decodeFmt 4 b.lo.toNat) then b.lo else b.hi

/-- A node of a reduction tree at a level: its value, and whether it or a node under it is an invalid operation (07_vector
R184). -/
def treeNode (f : BitVec 32 → BitVec 32 → BitVec 32 × Bool) (x : Nat → BitVec 32) : Nat → Nat → BitVec 32 × Bool
  | 0, j => (x j, false)
  | l + 1, j =>
    let a := treeNode f x l (2 * j)
    let b := treeNode f x l (2 * j + 1)
    ((f a.1 b.1).1, a.2 || b.2 || (f a.1 b.1).2)

/-- Element (e, k) of a group tile held as access rows of 128 bytes (08_accumulator R208): orientation o, format. -/
def tileAt (rows : Tab (BitVec 1024)) (o : Bool) (fmt e k : Nat) : Nat :=
  let row (q : Nat) : BitVec 1024 := tabGetD 0 rows q
  if fmt ≤ 1 then
    (if o then ((row k).extractLsb' (8 * e) 8).toNat else ((row (e / 4)).extractLsb' (8 * (32 * (e % 4) + k)) 8).toNat)
  else
    (if o then ((row (2 * k + e / 64)).extractLsb' (16 * (e % 64)) 16).toNat
     else ((row (e / 2)).extractLsb' (16 * (32 * (e % 2) + k)) 16).toNat)

/-! ### Terms for M and the microwords -/

/-- The microword index at which a routine goes on: MSTEPs that cost nothing are passed over (08_accumulator R218). -/
def goesOn (s : State) (g : TileName) (r : MxRun) (upc gi : Nat) : Nat :=
  skipIdle (storeWord (slabOf s g).mx) gi (groupCount r.mp) 1024 upc

/-- The event of the microword at index i of gang g, on cycle y. -/
def microAt (st : State) (g : TileName) (own : Owner) (y i : Nat) : Prop :=
  ∃ e ∈ st.agenda, e.at_ = y ∧ e.ord = ordMicro ∧ e.sub = 0 ∧ e.own = some own ∧
    e.instr = decodeMicro g (storeWord (slabOf st g).mx i)

/-- A microword is over: both memories and the gangs stand, the run is r but for where it goes on and that it came from
its present microword, and the next microword, looked for from index upc with group gi, occupies the cycle cost later
(R218). -/
def microDone (s st : State) (g : TileName) (r : MxRun) (cost upc gi : Nat) : Prop :=
  st.mem = s.mem ∧ st.vault = s.vault ∧ st.gangs = s.gangs ∧ runOf st g = some { r with base := upc, upc := goesOn s g r upc gi, gupc := r.upc } ∧
    microAt st g r.own (s.now + cost) (goesOn s g r upc gi)

/-- A running routine of gang g that no park or trap has stopped. -/
def microRuns (s : State) (g : TileName) (r : MxRun) : Prop := runOf s g = some r ∧ r.skip = false

/-- The agenda holds an action of an owner on a cycle, at a place of it. -/
def actAt (st : State) (own : Owner) (y ord : Nat) (a : Action) : Prop :=
  ∃ e ∈ st.agenda, e.at_ = y ∧ e.ord = ord ∧ e.instr = .operationLanding own a

/-- The agenda holds an event with its operands on a cycle. -/
def eventAt (st : State) (y : Nat) (i : Instr) (a : Operand) : Prop := ∃ e ∈ st.agenda, e.at_ = y ∧ e.instr = i ∧ e.arg = a

/-- No engine of the gang is busy. -/
def enginesIdle (s : State) (g : TileName) : Prop := ∀ t ∈ gangTiles s g, (slabOf s t).mx.busy = false

/-! ### Terms for D, K, B and Q -/

/-- The trigger starts something elsewhere: both memories stand, and the gangs but for the counted slot. -/
def quietIn (s st : State) (is : Issue) (d : Nat) : Prop :=
  st.mem = s.mem ∧ st.vault = s.vault ∧ st.gangs = (fired s is d).gangs

/-- Value v is on its way to result port k of every slab of the issuing gang, landing at cycle y (11_group R269). -/
def everySlabAt (s st : State) (is : Issue) (d y k : Nat) (v : Word) : Prop :=
  ∀ t ∈ gangTiles s is.gang, actAt st (slotOwner s is d) y ordLand (.slRes t k ⟨v, false⟩)

/-- An item waits in the injection queue of its kind at tile t, and a send of that kind is due there (10_route R258). -/
def itemQueued (st : State) (t : TileName) (wafer : Bool) (x : Item) : Prop :=
  x ∈ (if wafer then (slabOf st t).injW else (slabOf st t).injD) ∧
    ∃ e ∈ st.agenda, e.instr = .asyncItemSend ∧ e.arg = .asyncItemSend t wafer

/-- A slot of a slab may be filled or flushed, through a pinned translation: the checks of 09_window R239 in words. -/
def mayStage (s : State) (t : TileName) (n : Nat) (fill : Bool) (p : Pin) : Prop :=
  let w := tagWord s t n
  16 ≤ n ∧ tagValid w = true ∧ rgnHolds s t (tagRegion w) (tagVpn w) = true ∧
    pinFor s t (tagRegion w) (tagVpn w) = some p ∧
    (fill = false → rgnWr s t (tagRegion w) = true ∧ p.home = t) ∧ (slotOf (slabOf s t) n).pend = false ∧
    ∀ x ∈ stageWindows fill s.now, ∀ y ∈ (slabOf s t).resv, x.1 = y.1 → x.2.2 < y.2.1 ∨ y.2.2 < x.2.1

/-- Slot n of slab t is being staged from cycle c: flags, the reserved windows, the latched page. -/
def staging (st : State) (t : TileName) (n : Nat) (fill : Bool) (c : Nat) (p : Pin) : Prop :=
  (slotOf (slabOf st t) n).pend = true ∧ (slotOf (slabOf st t) n).flush = !fill ∧
    (∀ w ∈ stageWindows fill c, w ∈ (slabOf st t).resv) ∧
    ∃ x, tabGet (slabOf st t).stage n = some x ∧ x.start = c ∧ x.vpn = p.vpn ∧ x.home = p.home ∧
      x.frame = p.frame

/-- The tile and local address that a queue operation of slab 0 reaches: its own scratchpad, or for a put a named tile of
the module (15_queue R357). -/
def reaches (s : State) (t : TileName) (put : Bool) (a : Nat) (d : TileName) (o : Nat) : Prop :=
  o % 8 = 0 ∧ 0x5000 ≤ o ∧ o < 2 ^ 22 ∧
    ((a = o ∧ d = t) ∨
     (put = true ∧ ((gangOf s t).width = 1 ∨ (gangOf s t).width = 2 ∨ (gangOf s t).width = 4) ∧
       a = 2 ^ 40 + d * 2 ^ 22 + o ∧ d < 2 ^ 16 ∧ namesTile d = true ∧ (nameEntry (slabOf s t) d).isSome = true))

/-- The lowest free number below k. -/
def lowestFree {α : Type} (xs : Tab α) (k i : Nat) : Prop :=
  i < k ∧ tabGet xs i = none ∧ ∀ j < i, (tabGet xs j).isSome = true

/-! ### Terms for landings and block ends -/

/-- The bundle of a gang is due on a cycle. -/
def bundleAt (st : State) (g : TileName) (y : Nat) : Prop :=
  ∃ e ∈ st.agenda, e.at_ = y ∧ e.ord = ordIssue ∧ e.instr = .bundleIssue g

/-- The bundle in hand, whose slots have all acted, ends its block; its gang is held by a task. -/
def atBlockEnd (s : State) (is : Issue) : Prop :=
  s.issue = some is ∧ hdrEnd is.hdr = true ∧ (tabGet s.gangs is.gang).isSome = true

/-- The block recorded no trap, and no exit collision that is a trap. -/
def soundBlock (g : Gang) : Prop := g.blk.trap = none ∧ ¬ (g.blk.xcol = true ∧ g.tctl.exitstrict = true)

/-- Nothing of the block but its exit: no loop operation, no wait, no quiet point. -/
def bareBlock (g : Gang) : Prop := soundBlock g ∧ g.blk.lop = none ∧ g.blk.waits = [] ∧ g.blk.qp = 0

/-- No event is delivered at this block end (05_sequencer R134). -/
def noEvent (g : Gang) : Prop := g.tctl.event = false ∨ g.handler = true ∨ pickEvent g.events g.tctl.evm = none

/-- The gang goes on at bundle index n on the next cycle; both memories and the other gangs stand. -/
def goesTo (s st : State) (g : TileName) (n : Nat) : Prop :=
  st.mem = s.mem ∧ st.vault = s.vault ∧ st.issue = none ∧ (gangOf st g).pc = n ∧ bundleAt st g (s.now + 1) ∧
    ∀ h, h ≠ g → tabGet st.gangs h = tabGet s.gangs h

/-- A segment of the gang begins on the k-th cycle from now: its origin, and the mailbox writes that were held (02_bundle
R52, 04_scalar R90). -/
def newSegment (s st : State) (g : TileName) (k : Nat) : Prop :=
  (gangOf st g).origin = tileCyc s g + BitVec.ofNat 64 k ∧ (gangOf st g).mbx = tabPuts (gangOf s g).mbx (gangOf s g).mbxPend ∧
    (gangOf st g).mbxPend = []

/-! ### Terms for events and commands -/

/-- The event or command i, with operands x in hand, answers a next state with property p. -/
def handles (s : State) (x : Operand) (i : Instr) (p : State → Prop) : Prop :=
  s.arg = x → ∃ st, exec i s = .next st ∧ p st

/-- Neither memory changes. -/
def steady (s st : State) : Prop := st.mem = s.mem ∧ st.vault = s.vault

/-- The injection queue of a kind. -/
def injQueue (s : State) (t : TileName) (wafer : Bool) : List Item := if wafer then (slabOf s t).injW else (slabOf s t).injD

/-- The gang that drives a tile is not stopped, or no gang drives it and its context runs (16_context R371, R373). -/
def mayInject (s : State) (t : TileName) : Prop :=
  (∀ g, (slabOf s t).gang = some g → (gangOf s g).seq ≠ .stopped) ∧
    ((slabOf s t).gang = none → ∀ c, holderOf s t = some c → freezable (ctxOf s c).st = true ∧ (ctxOf s c).resumeAt = none)

/-- A gang held by a task waits for w alone. -/
def waitsFor (s : State) (g : TileName) (w : WaitKind) : Prop :=
  (tabGet s.gangs g).isSome = true ∧ (gangOf s g).seq = .waiting ∧ (gangOf s g).waits = [w]

/-- A token of scope sc is counted in word w, which then is w': COUNT goes up, and OVF records one that finds it at its
maximum; SCOPE is the widest of the tokens counted since COUNT was last 0 (15_queue R355, R357). -/
def tokenCounted (w w' : Word) (sc : BitVec 3) : Prop :=
  let count := w.extractLsb' 0 32
  let scope := w.extractLsb' 60 3
  w'.extractLsb' 0 32 = (if count = BitVec.allOnes 32 then count else count + 1) ∧
    w'.getLsbD 63 = (w.getLsbD 63 || decide (count = BitVec.allOnes 32)) ∧ w'.extractLsb' 32 28 = w.extractLsb' 32 28 ∧
    w'.extractLsb' 60 3 = if count = 0 ∨ scope.toNat < sc.toNat then sc else scope

/-- A token is taken from word w, which then is w' (15_queue R357). -/
def tokenTaken (w w' : Word) : Prop :=
  let count := w.extractLsb' 0 32
  w'.extractLsb' 0 32 = count - 1 ∧ w'.getLsbD 63 = w.getLsbD 63 ∧ w'.extractLsb' 32 28 = w.extractLsb' 32 28 ∧
    w'.extractLsb' 60 3 = if count = 1 then 0 else w.extractLsb' 60 3

/-- The gang's last wait completes on the present cycle, and the gang issues on the origin of a new segment: k cycles from
now, 0 for a wait of C (05_sequencer R124, R128) and 1 for another (02_bundle R52), or later where another wait of the
block ended later (log 125). -/
def waitOver (s st : State) (g : TileName) (k : Nat) : Prop :=
  let o := max (gangOf s g).waitEnd (s.now + k)
  (gangOf st g).waits = [] ∧ (gangOf st g).seq = (if (gangOf s g).handler then .handler else .issuing) ∧
    bundleAt st g o ∧ newSegment s st g (o - s.now)

/-- c.r of the gang in its present bank. -/
def cResult (s st : State) (g : TileName) (v : Word) : Prop :=
  fePort (gangOf st g) (gangOf s g).handler 136 = ⟨v, false⟩

/-- Looked at again on the next cycle: nothing else changes. -/
def looksAgain (s : State) (g : TileName) (i : Instr) : State := postEv s (s.now + 1) ordWait g s.own i s.arg

/-- An event word waits in the queue of a gang. -/
def eventPending (s st : State) (g src : TileName) (w : Word) : Prop := ⟨s.now, src, w⟩ ∈ (gangOf st g).events

/-- A gang takes events: a task holds it, and its queue is not full (05_sequencer R484). -/
def takesEvents (s : State) (g : TileName) : Prop :=
  (tabGet s.gangs g).isSome = true ∧ (gangOf s g).seq ≠ .idle ∧ (gangOf s g).events.length < 512

/-- A command is answered with a code. -/
def answered (st : State) (c code : Nat) : Prop := ∃ a, .command c code a ∈ st.out

/-- The state of a context. -/
def ctxState (s : State) (c : Nat) : CtxState := (ctxOf s c).st

/-! ### Terms for commands and the service controller -/

/-- A command, its operands, and the states of its context that take it (16_context R365, R366). -/
structure CommandRow where
  arg : Operand
  ins : Instr
  st  : List CtxState

/-- QUIESCED and FROZEN; those with RUNNING and QUIESCING; every state but FREE and DEAD. -/
def parkedStates : List CtxState := [.quiesced, .frozen]
def pageStates : List CtxState := [.running, .quiescing, .quiesced, .frozen]
def residentStates : List CtxState :=
  [.loading, .ready, .running, .quiescing, .quiesced, .frozen, .faulted, .dumping]

/-- Every operand of CREATE is there and in its range (16_context R365). -/
def createSound (o : CreateOps) : Prop :=
  (∃ ks, o.keys = some ks ∧ 1 ≤ ks.length ∧ ks.length ≤ 8) ∧ (∃ n, o.undoShare = some n ∧ n ≤ 65536) ∧
    o.waitdl.isSome = true ∧ o.replayint.isSome = true ∧ o.hold.isSome = true ∧ o.dumpKey.isSome = true ∧
    o.dumpBytes.isSome = true

/-- The context has a resume cycle g, at least 64 cycles ahead and in the phase of CYCBASE (16_context R386). -/
def resumesAt (s st : State) (c g : Nat) : Prop :=
  s.now + 64 ≤ g ∧ g % 256 = (ctxOf s c).cycBase % 256 ∧ (ctxOf st c).resumeAt = some g ∧
    eventAt st g .contextResumeStart (.contextResumeStart c)

/-- A freeze edge f of the context stands (16_context R376). -/
def edgeAt (st : State) (c f : Nat) : Prop := (ctxOf st c).edge = some f ∧ eventAt st f .freezeEdge (.freezeEdge c)

/-- A gang of the context holds a pin on a page of a range (17_page R402). -/
def gangPins (s : State) (c vpn n : Nat) : Prop :=
  ∃ g ∈ ctxGangs s c, ∃ t ∈ gangTiles s g, ∃ e ∈ (slabOf s t).pins, ∃ p ∈ e.2, vpn ≤ p.vpn ∧ p.vpn < vpn + n

/-- The only fault of the context is of this class and cause, at the present cycle, and it is primary (20_fault R450). -/
def faultIs (s st : State) (c cls cause : Nat) : Prop :=
  ∃ r, (ctxOf st c).faults = [r] ∧ r.cls = cls ∧ r.cause = cause ∧ r.cyc = islandCyc s r.tile ∧ r.primary = true

/-- The context runs, with no fault and no freeze edge. -/
def runsFree (s : State) (c : Nat) : Prop :=
  ctxState s c = .running ∧ (ctxOf s c).faults = [] ∧ (ctxOf s c).edge = none

/-- Everything of a context is at a consistent cut: its gangs stopped at a quiet point of a kind in m, no frame or item of
it on a link (16_context R373), and no freeze edge stands, which it would meet instead (R367). -/
def atCut (s : State) (c : Nat) (m : BitVec 3) : Prop :=
  (ctxOf s c).resumeAt = none ∧ (ctxOf s c).edge = none ∧ allStopped s c (fun g => g.stopKinds &&& m != 0) = true ∧ linksQuiet s c = true

/-- A breakpoint's stop: its notice, which is posted at the edge, and the edge (21_marker R467). -/
def broken (s st : State) (c i k f : Nat) : Prop := breakRec s c i k f ∈ (ctxOf st c).breaks ∧ edgeAt st c f

/-- A context has come to a point at which a replay boundary may be taken: a gang stands at a quiet point, a task has ended
since the request, or a graph stands between two nodes (20_fault R455). -/
def cutPoint (s : State) (c : Nat) : Prop :=
  (ctxOf s c).replayEnd = true ∨ (∃ g ∈ ctxGangs s c, (gangOf s g).seq = .stopped) ∨ ∃ x ∈ s.cands, x.ctx = c ∧ 2 ≤ x.source

/-- Nothing on the vault side of a fill is due (09_window R250). -/
def noFillDue (s : State) : Prop :=
  ∀ e ∈ s.agenda, ∀ o t n p, e.instr ≠ .operationLanding o (.fillRead t n p) ∧ e.instr ≠ .operationLanding o (.busTake t n) ∧
    e.instr ≠ .operationLanding o (.busSettle t n p)

/-! ### Terms for links and bring-up -/

/-- The state of a port of the pod transport. -/
def portOf (s : State) (p : Nat) : Port := tabGetD Port.fresh s.ports p

/-- An ACK or NAK of a port goes out (18_link R419). -/
def replyFrame (s : State) (p : Nat) (kind : BitVec 8) (f : Frame) (ack : BitVec 32) : HostOut :=
  .frame p ⟨kind, BitVec.ofNat 8 Config.moduleIndex, f.srcmod, f.job, (portOf s p).sendSeq, ack, [], true⟩

/-- How often a frame has been sent again (18_link R420). -/
def resendsOf (s : State) (p : Nat) (seq : BitVec 32) : Nat := tabGetD 0 (portOf s p).resends seq.toNat

/-- No frame of a port has been sent again 16 times (18_link R420). -/
def mayResend (s : State) (p : Nat) : Prop := ∀ e ∈ (portOf s p).resends, e.2 < 16

/-- A frame for this module, of a sound length and CRC, on an UP port (18_link R418, R419). -/
def frameTaken (s : State) (p : Nat) (f : Frame) : Prop :=
  linkState s (.scale p) = .up ∧ f.dstmod = Config.moduleCode ∧ f.payload.length ≤ 8192

/-- A context of the frame's job is resident (18_link R419). -/
def jobKnown (s : State) (f : Frame) : Prop := ∃ e ∈ s.ctxs, e.2.st ≠ .free ∧ e.2.st ≠ .dead ∧ e.2.ops.job = f.job

/-- The state with a frame of an unknown job counted (18_link R419). -/
def jobCounted (s st : State) (f : Frame) : Prop :=
  (jobKnown s f → st = s) ∧ (¬ jobKnown s f → st = { s with dropJob := s.dropJob + 1 })

/-- Every frame not acknowledged goes out again (18_link R419). -/
def sentAgain (s st : State) (p : Nat) : Prop :=
  (portOf st p).unacked = (portOf s p).unacked ∧
    (((portOf s p).unacked.map (·.1)).Nodup → ∀ e ∈ (portOf s p).unacked, resendsOf st p e.1 = resendsOf s p e.1 + 1) ∧
    (∀ e ∈ (portOf s p).unacked, .frame p { e.2 with ackseq := (portOf s p).recvSeq } ∈ st.out) ∧
    eventAt st (s.now + resendAfter s) .transportResendTimeout (.transportResendTimeout p ((portOf s p).epoch + 1))

/-- An attempt at training a link ends at some later cycle (18_link R408). -/
def attemptDue (s st : State) (l : LinkId) : Prop :=
  ∃ y pass, s.now < y ∧ eventAt st y .linkTraining (.linkTraining l pass)

/-- No context runs or quiesces. -/
def noneRuns (s : State) : Prop := ∀ e ∈ s.ctxs, e.2.st ≠ .running ∧ e.2.st ≠ .quiescing

/-! ### Terms for slots, words and steps -/

/-- What no slot changes: both memories, time, the event in hand, tasks and dispatch, windows, links, units, images, and while
its context runs what the host has been told; the gangs but its own, the slabs but those of its gang. -/
def slotFrame (s t : State) (is : Issue) : Prop :=
  t.mem = s.mem ∧ t.vault = s.vault ∧ t.now = s.now ∧ t.phase = s.phase ∧ t.arg = s.arg ∧ t.own = s.own ∧ t.tasks = s.tasks ∧
    t.timeTable = s.timeTable ∧ t.cands = s.cands ∧ t.graphs = s.graphs ∧ t.windows = s.windows ∧ t.links = s.links ∧
    t.units = s.units ∧ t.binding = s.binding ∧ t.images = s.images ∧ t.flash = s.flash ∧
    (freezable (ctxOf s (gangOf s is.gang).ctx).st = true → t.out = s.out) ∧
    (∀ h, h ≠ is.gang → tabGet t.gangs h = tabGet s.gangs h) ∧
    ∀ u, u ∉ gangTiles s is.gang → tabGet t.slabs u = tabGet s.slabs u

/-- The registers and ports of the issuing gang and of its slabs that no trigger writes at its own cycle. -/
def registersKept (s t : State) (is : Issue) : Prop :=
  let g := gangOf s is.gang
  let g' := gangOf t is.gang
  g'.s = g.s ∧ g'.e = g.e ∧ g'.p = g.p ∧ g'.main = g.main ∧ g'.hand = g.hand ∧ g'.fmt = g.fmt ∧ g'.bd = g.bd ∧ g'.mbx = g.mbx ∧
    g'.tctl = g.tctl ∧ g'.pc = g.pc ∧ g'.seq = g.seq ∧ g'.handler = g.handler ∧ g'.task = g.task ∧ g'.ctx = g.ctx ∧
    g'.width = g.width ∧ g'.loops = g.loops ∧ g'.calls = g.calls ∧ g'.events = g.events ∧ g'.dmem = g.dmem ∧
    ∀ u, let sl := slabOf s u
      let sl' := slabOf t u
      sl'.v = sl.v ∧ sl'.k = sl.k ∧ sl'.ports = sl.ports ∧ sl'.hports = sl.hports ∧ sl'.vports = sl.vports ∧
        sl'.mx.mp = sl.mx.mp

/-- The decoder answers an error for a word. -/
def refusesWord (w : BitVec 24) (e : DecodeError) : Prop := decodeSlot w = .error e

end Sys2Proof.Machine

open Sys2Proof Sys2Proof.Machine

/-- 04_scalar R94: the add, logic and shift operations of I0 and I1, 64-bit and .w forms, and ADDSH. -/
def Obligations.AddLogicShiftResults : Prop := rowsLand arithRows ∧ ternaryLands addshRow

/-- 04_scalar R95: the stated bits of the exact product land in port m at c+3. -/
def Obligations.MultiplyResults : Prop := rowsLand mulRows

/-- 04_scalar R98: the bit-field operations EXTR, INS, SEXT and ZEXT. -/
def Obligations.BitFieldResults : Prop := rowsLand fieldRows ∧ ternaryLands insRow

/-- 04_scalar R100: the compares deliver 0 or 1 to port p at c+1. -/
def Obligations.CompareResults : Prop := rowsLand compareRows

/-- 04_scalar R96: a quotient or remainder lands in port d at c+18, with the values of a zero divisor, and tst.DZF is
set at the trigger exactly for a zero divisor; until then the divide is held as its operation and its two operands (R105). -/
def Obligations.DivideResults : Prop :=
  ∀ (s : State) (is : Issue) (g : BitVec 5) (u : BitVec 1) (src : BitVec 9), ∀ r ∈ divRows,
    slotRuns s is g (intPort u r.port) →
    let a := feOpd s is (intPort u 0)
    let t := readFE s is src
    let s1 := fired s is (intPort u r.port)
    exec (r.ins g u src) s = .next (postLand
      (if r.zero t.val then modGang s1 is.gang fun gg => { gg with tst := { gg.tst with dzf := true } } else s1)
      (slotOwner s is (intPort u r.port)) (s.now + 18) (.feDiv (intRes u 2) r.port a t)) ∧
    ∀ (s' : State) (own : Owner) (k : Nat), exec (.operationLanding own (.feDiv k r.port a t)) s' =
      exec (.operationLanding own (.feRes k ⟨r.val a.val t.val, a.df || t.df⟩)) s'

/-- 04_scalar R97, R99: minimum and maximum; the counts of leading zeros, trailing zeros and set bits (of zero, the operand
width); SEL. -/
def Obligations.MinMaxCountAndSelectResults : Prop :=
  rowsLand minMaxRows ∧
  (∀ (s : State) (is : Issue) (g : BitVec 5) (u : BitVec 1) (src : BitVec 9), ∀ r ∈ unaryRows,
     slotRuns s is g (intPort u r.port) →
     exec (r.ins g u src) s = .next (feLanding s is (intPort u r.port) (intRes u 0) 1
       ⟨BitVec.ofNat 64 (r.val (readFE s is src).val), (readFE s is src).df⟩)) ∧
  ternaryLands selRow

/-- 04_scalar R102, R103: CVTA between a generic address and an aperture word, and ISSP against its mask, on a gang of
one, two or four tiles; a conversion that fails delivers a tagged zero. -/
def Obligations.AddressConversion : Prop :=
  ∀ (s : State) (is : Issue) (g : BitVec 5) (u : BitVec 1) (src : BitVec 9),
    let a := feOpd s is (intPort u 0)
    let t := readFE s is src
    let w := (gangOf s is.gang).width
    let df := a.df || t.df
    let delivers (v : TV) := exec (.cvta g u src) s = .next (feLanding s is (intPort u 38) (intRes u 0) 1 v)
    (w = 1 ∨ w = 2 ∨ w = 4) →
    (slotRuns s is g (intPort u 39) →
      exec (.issp g u src) s = .next (feLanding s is (intPort u 39) (intRes u 3) 1
        ⟨bit (((List.range 4).any fun sp => inWindow w sp a.val.toNat && t.val.getLsbD sp) = true), df⟩)) ∧
    (slotRuns s is g (intPort u 38) → t.val.getLsbD 0 = false →
      (∀ sp < 4, inWindow w sp a.val.toNat = true → delivers
        (if t.val.getLsbD 2 = true ∧ (t.val.extractLsb' 3 2).toNat ≠ sp then ⟨0, true⟩
         else ⟨BitVec.ofNat 64 ((if t.val.getLsbD 1 then 0 else sp * 2 ^ 62) + (a.val.toNat - (windowOf w sp).1)), df⟩)) ∧
      ((∀ sp < 4, inWindow w sp a.val.toNat = false) → delivers ⟨0, true⟩)) ∧
    (slotRuns s is g (intPort u 38) → t.val.getLsbD 0 = true →
      let sp := if t.val.getLsbD 1 then (t.val.extractLsb' 3 2).toNat else (a.val.extractLsb' 62 2).toNat
      let off := if t.val.getLsbD 1 then a.val.toNat else (a.val.extractLsb' 0 48).toNat
      delivers (if off < (windowOf w sp).2 ∧ (t.val.getLsbD 1 = true ∨ a.val.extractLsb' 48 14 = 0) then
        ⟨BitVec.ofNat 64 ((windowOf w sp).1 + off), df⟩ else ⟨0, true⟩))

/-- 02_bundle R33, R41 to R43, R48, 04_scalar R80, R85, R87: a move into a scalar or event register or an operand port of I0, I1
or C takes the value with its tag, and one to the discard port changes nothing; an untagged move into p1 to p15 sets that
predicate to whether the value is nonzero and leaves the others, a tagged one takes the consumption fault and writes nothing;
an untagged move to a staging port writes its field. -/
def Obligations.FrontEndMoves : Prop :=
  (∀ (s : State) (is : Issue) (g : BitVec 5) (d : BitVec 10) (src : BitVec 9),
     slotRuns s is g d.toNat → keepsTag d.toNat = true →
     let v := readFE s is src
     let n := d.toNat
     exec (.registerWrite g d src) s = .next
       (if n = 0 then fired s is n
        else modGang (fired s is n) is.gang fun gg =>
          if n < 64 then { gg with s := tabPut gg.s n v }
          else if 288 ≤ n then { gg with e := tabPut gg.e (n - 288) v }
          else if gg.handler then { gg with hand := tabPut gg.hand (1000 + n) v }
          else { gg with main := tabPut gg.main (1000 + n) v })) ∧
  (∀ (s : State) (is : Issue) (g : BitVec 5) (d : BitVec 10) (src : BitVec 9),
     slotRuns s is g d.toNat → 97 ≤ d.toNat → d.toNat < 112 → (tabGet s.gangs is.gang).isSome = true →
     let v := readFE s is src
     (v.df = true → exec (.registerWrite g d src) s = .next (raiseAux (fired s is d.toNat) (slotOwner s is d.toNat) 12 0 0 0)) ∧
     (v.df = false → ∃ t, exec (.registerWrite g d src) s = .next t ∧ t.slabs = s.slabs ∧ t.mem = s.mem ∧ t.vault = s.vault ∧
       ∀ i, i < 16 → (gangOf t is.gang).p.getLsbD i =
         if i = d.toNat - 96 then decide (v.val ≠ 0) else (gangOf s is.gang).p.getLsbD i)) ∧
  (∀ (s : State) (is : Issue) (g : BitVec 5) (d : BitVec 10) (src : BitVec 9),
     slotRuns s is g d.toNat → (readFE s is src).df = false → 800 ≤ d.toNat → d.toNat < 832 →
     let v := (readFE s is src).val
     exec (.registerWrite g d src) s = .next (modGang (fired s is d.toNat) is.gang fun gg =>
       if 824 ≤ d.toNat then { gg with fmtStage := fmtPutField gg.fmtStage (d.toNat - 824) v }
       else
         let b := (d.toNat - 800) / 3
         { gg with bdStage := tabPut gg.bdStage b (boundPutField (tabGetD boundReset gg.bdStage b) ((d.toNat - 800) % 3) v) }))

/-- 05_sequencer R106, R111, R120, R121, 02_bundle R51: an exit that is the first of its block is recorded with its port,
target and slot, and nothing else of the machine changes; CHKDF is an exit to c.opb exactly for a tagged value, CHKMX
exactly when an engine of the gang meets a condition that its value names, and a check that does not fire leaves the
block record. That a tagged c.opb faults before the value is tested is the model's reading (log 32), and so is what
makes two exits one (log 23). -/
def Obligations.ExitsAndChecks : Prop :=
  (∀ (s : State) (is : Issue) (g : BitVec 5) (src : BitVec 9), ∀ r ∈ exitRows, ctlRuns s is g r.port src r.opa false →
     (gangOf s is.gang).blk.exit = none →
     let t := (readFE s is src).val
     let a := (feOpd s is 256).val
     exec (r.ins g src) s = .next (withBlock s is r.port fun b =>
       { b with exit := some ⟨r.port, r.tgt t a, r.aux t a, is.slot, b.bpos⟩ })) ∧
  ((∀ (s : State) (is : Issue) (g : BitVec 5) (src : BitVec 9), slotRuns s is g 266 → (feOpd s is 257).df = false →
     (gangOf s is.gang).blk.exit = none →
     exec (.chkdf g src) s = .next (if (readFE s is src).df then withBlock s is 266 fun b =>
       { b with exit := some ⟨266, (feOpd s is 257).val, 0, is.slot, b.bpos⟩ } else fired s is 266)) ∧
   (∀ (s : State) (is : Issue) (g : BitVec 5) (src : BitVec 9), ctlRuns s is g 267 src false true →
     (gangOf s is.gang).blk.exit = none →
     let v := (readFE s is src).val
     let parked (t : TileName) : Bool := (srcSlab s is t).mx.acc0.st = .parked || (srcSlab s is t).mx.acc1.st = .parked
     let busy (t : TileName) : Bool := (srcSlab s is t).mx.busy
     exec (.chkmx g src) s = .next
       (if (gangTiles s is.gang).any fun t => (v.getLsbD 0 && parked t) || (v.getLsbD 1 && busy t) then
          withBlock s is 267 fun b => { b with exit := some ⟨267, (feOpd s is 257).val, 0, is.slot, b.bpos⟩ }
        else fired s is 267)))

/-- 05_sequencer R114, R117, R118: LOOP, LOOPM and BRKL record the pending loop operation of the block; a second one is
the control trap MULTI. -/
def Obligations.LoopOperationsAreRecorded : Prop :=
  (∀ (s : State) (is : Issue) (g : BitVec 5) (src : BitVec 9), ctlRuns s is g 263 src true true →
    (gangOf s is.gang).blk.lop = none →
    exec (.loop g src) s = .next (withBlock s is 263 fun b => { b with
      lop := some ⟨263, (readFE s is src).val.toNat % 2 ^ 32, (feOpd s is 256).val, (feOpd s is 257).val, is.slot⟩ })) ∧
  (∀ (s : State) (is : Issue) (g : BitVec 5) (src : BitVec 9), ctlRuns s is g 264 src true true →
    (gangOf s is.gang).blk.lop = none →
    exec (.loopm g src) s = .next (withBlock s is 264 fun b => { b with
      lop := some ⟨264, (tabGetD 0 (srcGang s is).mbx ((readFE s is src).val.toNat % 8)).toNat % 2 ^ 32, (feOpd s is 256).val,
        (feOpd s is 257).val, is.slot⟩ })) ∧
  (∀ (s : State) (is : Issue) (g : BitVec 5) (src : BitVec 9), ctlRuns s is g 265 src false false →
    (gangOf s is.gang).blk.lop = none →
    exec (.brkl g src) s = .next (withBlock s is 265 fun b => { b with
      lop := some ⟨265, (readFE s is src).val.toNat % 8, 0, 0, is.slot⟩ })) ∧
  (∀ (s : State) (is : Issue) (g : BitVec 5) (src : BitVec 9) (i : Instr) (d : Nat) (opds : Bool),
    (i, d, opds) ∈ [(Instr.loop g src, 263, true), (Instr.loopm g src, 264, true), (Instr.brkl g src, 265, false)] →
    ctlRuns s is g d src opds opds →
    (gangOf s is.gang).blk.lop.isSome = true → (gangOf s is.gang).blk.trap = none →
    exec i s = .next (withBlock s is d fun b => { b with trap := some (8, is.slot, d) }))

/-- 05_sequencer R122, R124, R125, R128, R129: QPOINT joins the kinds of the block's quiet point; WAITEV, CYCWAIT and
CYCALIGN record the block's wait of C. -/
def Obligations.WaitsAndQuietPointsAreRecorded : Prop :=
  (∀ (s : State) (is : Issue) (g : BitVec 5) (src : BitVec 9), ctlRuns s is g 268 src false false →
    exec (.qpoint g src) s = .next (withBlock s is 268 fun b =>
      { b with qp := b.qp ||| (readFE s is src).val.extractLsb' 0 3, qpSlot := is.slot })) ∧
  (∀ (s : State) (is : Issue) (g : BitVec 5) (src : BitVec 9) (i : Instr) (d : Nat) (w : WaitKind),
    (i, d, w) ∈ [(Instr.waitev g src, 269, .waitev ((readFE s is src).val.extractLsb' 0 8)),
                 (Instr.cycwait g src, 271, .cycwait (readFE s is src).val), (Instr.cycalign g src, 272, .cycalign)] →
    ctlRuns s is g d src false false → (gangOf s is.gang).blk.cwaits = 0 →
    exec i s = .next (withBlock s is d fun b => { b with waits := b.waits ++ [w], cwaits := b.cwaits + 1 }))

/-- 05_sequencer R127, R130, 21_marker R461 to R463: CYCRD delivers the cycle, or the cycles since the origin of the segment, to c.r at c+1; MARK
compares its expected offset with the cycles since the origin, and with no breakpoint set that comparison at c+1 is all it
starts there; that comparison appends the drift record of R461 where they differ, the oldest of 1,024 making room (R462), and
starts an armed trace of a threshold that the drift reaches (R463). -/
def Obligations.CycleReadAndMark : Prop :=
  (∀ (s : State) (is : Issue) (g : BitVec 5) (src : BitVec 9), ctlRuns s is g 270 src false false →
     exec (.cycrd g src) s = .next (feLanding s is 270 136 1
       ⟨if (readFE s is src).val.getLsbD 0 then sinceOrigin s is else cycleOf s is, false⟩)) ∧
  (∀ (s : State) (is : Issue) (g : BitVec 5) (src : BitVec 9), ctlRuns s is g 273 src false false →
     (ctxOf s (gangOf s is.gang).ctx).bps = [] →
     exec (.mark g src) s = .next (postLand (fired s is 273) (slotOwner s is 273) (s.now + 1)
       (.mark ((readFE s is src).val.extractLsb' 0 16) ((readFE s is src).val.extractLsb' 16 32) (sinceOrigin s is)
         (cycleOf s is)))) ∧
  (∀ (s : State) (own : Owner) (m : BitVec 16) (expect : BitVec 32) (actual cyc : Word),
     let lands (p : State → Prop) : Prop := ∃ st, exec (.operationLanding own (.mark m expect actual cyc)) s = .next st ∧ p st
     let c := own.ctx
     let log := tabGetD [] (ctxOf s c).markers own.gang
     let drift : Int := (min actual.toNat (2 ^ 32 - 1) : Int) - expect.toNat
     let kept (st : State) : Prop := steady s st ∧ st.slabs = s.slabs ∧ st.issue = s.issue
     (actual.toNat = expect.toNat → exec (.operationLanding own (.mark m expect actual cyc)) s = .next s) ∧
     (actual.toNat ≠ expect.toNat → lands fun st => kept st ∧
       ∃ r, tabGetD [] (ctxOf st c).markers own.gang = (if 1024 ≤ log.length then log.drop 1 else log) ++ [r] ∧
         r.marker = m ∧ r.pc = own.pc ∧ r.gang = own.gang ∧ r.replays = min (ctxOf s c).rollbacks 255 ∧ r.expect = expect ∧
         r.actual.toNat = min actual.toNat (2 ^ 32 - 1) ∧ r.drift.toInt = max (-2 ^ 31) (min (2 ^ 31 - 1) drift) ∧ r.cyc = cyc) ∧
     (∀ t, actual.toNat ≠ expect.toNat → (ctxOf s c).trace = some t → t.started = none → lands fun st => kept st ∧
       ((t.arm.thr : Int) ≤ drift.natAbs → (ctxOf st c).trace = some { t with started := some (own.gang, s.now + 1) } ∧
         ∃ e ∈ st.agenda, e.at_ = s.now + 1 ∧ ∃ o, e.instr = .operationLanding o (.traceRow c)) ∧
       (drift.natAbs < (t.arm.thr : Int) → (ctxOf st c).trace = some t)))

/-- 04_scalar R88: the predicate logic of C, tags joined; PNOT reads its trigger alone. -/
def Obligations.PredicateLogicResults : Prop :=
  (∀ (s : State) (is : Issue) (g : BitVec 5) (src : BitVec 9) (i : Instr) (d : Nat) (f : Bool → Bool → Bool),
    (i, d, f) ∈ [(Instr.pand g src, 276, and), (Instr.por g src, 277, or), (Instr.pxor g src, 278, xor)] →
    slotRuns s is g d →
    exec i s = .next (feLanding s is d 137 1
      ⟨bit (f (decide ((readFE s is src).val ≠ 0)) (decide ((feOpd s is 256).val ≠ 0)) = true),
        (readFE s is src).df || (feOpd s is 256).df⟩)) ∧
  (∀ (s : State) (is : Issue) (g : BitVec 5) (src : BitVec 9), slotRuns s is g 279 →
    exec (.pnot g src) s = .next (feLanding s is 279 137 1 ⟨bit ((readFE s is src).val = 0), (readFE s is src).df⟩))

/-- 05_sequencer R108, R109, R131, R132, R134, 03_element R71: the writes of tctl, tstclr, fmt, the bound registers and
the event mask: what lands, and when. -/
def Obligations.ControlRegisterWrites : Prop :=
  ∀ (s : State) (is : Issue) (g : BitVec 5) (src : BitVec 9),
    let v := (readFE s is src).val
    let own := slotOwner s is
    (ctlRuns s is g 285 src false false →
      exec (.tctlWrite g src) s = .next (postLand (fired s is 285) (own 285) (s.now + 1) (.tctl v))) ∧
    (ctlRuns s is g 286 src false false →
      exec (.tstclr g src) s = .next (postAct (fired s is 286) (own 286) (s.now + 1) ordClear (.tstclr v))) ∧
    (ctlRuns s is g 283 src false false →
      exec (.evmask g src) s = .next (postLand (fired s is 283) (own 283) (s.now + 1) (.evm (v.extractLsb' 0 8)))) ∧
    (ctlRuns s is g 274 src false false →
      let f := (gangOf s is.gang).fmtStage
      exec (.fmtset g src) s = .next
        (if f.aw = 7 ∨ 4 ≤ f.afmt.toNat ∨ 4 ≤ f.bfmt.toNat ∨ 6 ≤ f.cfmt.toNat then
           raise (fired s is 274) (own 274) 6 1
         else postLand (fired s is 274) (own 274) (s.now + 4) (.fmt f))) ∧
    (ctlRuns s is g 275 src false false →
      (∀ b < 8, v.getLsbD b = true → badBound (tabGetD boundReset (gangOf s is.gang).bdStage b) = false) →
      exec (.bndset g src) s = .next (postLand (fired s is 275) (own 275) (s.now + 4)
        (.bnd (((List.range 8).filter fun b => v.getLsbD b).map fun b =>
          (b, tabGetD boundReset (gangOf s is.gang).bdStage b)))))

/-- 02_bundle R33, R35, R41, R44 to R48, 11_group R269: an untagged move to a mask register, a parameter, a staged shape field or
an operand port of a slab unit writes it, in every slab of the gang from that slab's own source, in slab 0 alone for B, K and
Q, and ports of L0 and L1 take a tag too (04_scalar R83); a move to v0 to v31 or to a vector operand of V copies a V source,
or puts bits 31..0 of an S source in every lane, slab by slab. -/
def Obligations.SlabAndVectorMoves : Prop :=
  (∀ (s : State) (is : Issue) (g : BitVec 5) (d : BitVec 10) (src : BitVec 9),
     slotRuns s is g d.toNat → slabDest d.toNat = true →
     (320 ≤ d.toNat ∧ d.toNat < 448 ∨ plainIn s is (portTiles s is d.toNat) src) →
     exec (.registerWrite g d src) s = .next (forTiles (fired s is d.toNat) (portTiles s is d.toNat) fun st t =>
       modSlab st t (slabMove (gangOf s is.gang).handler d.toNat (readScalar s is t src)))) ∧
  (∀ (s : State) (is : Issue) (g : BitVec 5) (d : BitVec 10) (src : BitVec 9),
     slotRuns s is g d.toNat → (64 ≤ d.toNat ∧ d.toNat < 96 ∨ d = 448 ∨ d = 449) →
     (sourceClass src.toNat = .v ∨ plainIn s is (gangTiles s is.gang) src) →
     exec (.registerWrite g d src) s = .next (forTiles (fired s is d.toNat) (gangTiles s is.gang) fun st t =>
       modSlab st t fun sl =>
         if d.toNat < 96 then { sl with v := tabPut sl.v (d.toNat - 64) (readVec s is t src) }
         else { sl with vports := tabPut sl.vports (1000 + d.toNat) (readVec s is t src) }) ∧
     (sourceClass src.toNat ≠ .v → ∀ t i, i < 64 →
       (readVec s is t src).extractLsb' (32 * i) 32 = (srcIn s is t src).extractLsb' 0 32))

/-- 06_region R145 to R147: a load or store of L0 or L1 on local addresses that pass every check makes each slab's access
at the sum of its operands, at c+2; only the agenda changes. -/
def Obligations.LocalAccessesReachTheirArray : Prop :=
  ∀ (s : State) (is : Issue) (g : BitVec 5) (u : BitVec 2) (src : BitVec 9), ∀ r ∈ memRows, r.generic = false →
    lsuUnit u = true → slotRuns s is g (lBase u + r.k) → operandsPlain s is u src r.kind →
    let addr (t : TileName) : Nat := (memAddr r.kind (memOpds s is u src t)).toNat
    (∀ t ∈ gangTiles s is.gang, addr t < 2 ^ 22 ∧ addr t % kindBytes r.kind = 0 ∧
      (kindWrites r.kind = true → 0x5000 ≤ addr t) ∧ holdsBank s (gangOf s is.gang).task t (addr t / 2 ^ 17) = true) →
    exec (r.ins g u src) s = .next (forTiles (fired s is (lBase u + r.k)) (gangTiles s is.gang) fun st t =>
      toOwnArray st (slotOwner s is (lBase u + r.k)) s.now
        (accessOf r.kind u (memOpds s is u src t) ⟨t, addr t, 0⟩ (lRes u) [t]) (kindWrites r.kind) false)

/-- 06_region R137, R145: a local access beyond the scratchpad, misaligned, storing to the protected area or to a bank
that the task does not hold takes the address fault, in the order of the checks, and makes no access (a gang of one). -/
def Obligations.LocalAccessFaults : Prop :=
  ∀ (s : State) (is : Issue) (g : BitVec 5) (u : BitVec 2) (src : BitVec 9), ∀ r ∈ memRows, r.generic = false →
    lsuUnit u = true → slotRuns s is g (lBase u + r.k) → operandsPlain s is u src r.kind →
    (gangOf s is.gang).width = 1 →
    let a := memAddr r.kind (memOpds s is u src is.gang)
    let traps (cause : Nat) : Prop := exec (r.ins g u src) s =
      .next (raiseAux (fired s is (lBase u + r.k)) (slotOwner s is (lBase u + r.k)) 8 cause a 0)
    (2 ^ 22 ≤ a.toNat → traps 4) ∧
    (a.toNat < 2 ^ 22 → a.toNat % kindBytes r.kind ≠ 0 → traps 5) ∧
    (a.toNat < 2 ^ 22 → a.toNat % kindBytes r.kind = 0 → kindWrites r.kind = true → a.toNat < 0x5000 → traps 6) ∧
    (a.toNat < 2 ^ 22 → a.toNat % kindBytes r.kind = 0 → (kindWrites r.kind = true → 0x5000 ≤ a.toNat) →
      holdsBank s (gangOf s is.gang).task is.gang (a.toNat / 2 ^ 17) = false → traps 7)

/-- 06_region R148: LDS accesses its array when its operands are untagged and its address passes every check, and lands a
tagged zero at c+4 otherwise; it never faults. -/
def Obligations.SpeculativeLoads : Prop :=
  ∀ (s : State) (is : Issue) (g : BitVec 5) (u : BitVec 2) (src : BitVec 9) (i : Instr) (k n : Nat),
    (i, k, n) ∈ [(Instr.ldsB g u src, 7, 1), (Instr.ldsH g u src, 8, 2), (Instr.ldsW g u src, 9, 4),
                 (Instr.ldsD g u src, 10, 8)] →
    lsuUnit u = true → slotRuns s is g (lBase u + k) →
    exec i s = .next (forTiles (fired s is (lBase u + k)) (gangTiles s is.gang) fun st t =>
      let o := memOpds s is u src t
      let a := (o.a.val + o.t.val).toNat
      if o.a.df = false ∧ o.t.df = false ∧ a < 2 ^ 22 ∧ a % n = 0 ∧
          holdsBank s (gangOf s is.gang).task t (a / 2 ^ 17) = true then
        toOwnArray st (slotOwner s is (lBase u + k)) s.now ⟨t, a, .load n, lRes u, [t], none, lPath u, none⟩ false false
      else postLand st (slotOwner s is (lBase u + k)) (s.now + 4) (.slRes t (lRes u) ⟨0, true⟩))

/-- 06_region R142, R146, R147, R150, R153, R154: an access by a generic address in the local or gang window reaches the
array of that window at c+2, a release behind its check; an atomic on the gang window is made once, by slab 0, for every
slab.  The address resolves as the operation's own checks say. -/
def Obligations.GenericAccessesReachTheirArray : Prop :=
  ∀ (s : State) (is : Issue) (g : BitVec 5) (u : BitVec 2) (src : BitVec 9) (pl : TileName → Place), ∀ r ∈ memRows,
    r.generic = true → lsuUnit u = true → slotRuns s is g (lBase u + r.k) → operandsPlain s is u src r.kind →
    (∀ t ∈ gangTiles s is.gang, placeOf s is.gang t true (memAddr r.kind (memOpds s is u src t)) (kindBytes r.kind)
      (kindWrites r.kind) = .ok (pl t) ∧ (pl t).space ≤ 1) →
    let own := slotOwner s is (lBase u + r.k)
    let atomic : Bool := match r.kind with | .atom _ => true | _ => false
    exec (r.ins g u src) s = .next (forTiles (fired s is (lBase u + r.k)) (gangTiles s is.gang) fun st t =>
      let o := memOpds s is u src t
      if (pl t).space = 1 ∧ atomic = true then
        (if t = is.gang then toOwnArray st own s.now (accessOf r.kind u o (pl t) (lRes u) (gangTiles s is.gang))
          (kindWrites r.kind) (releases r.kind o) else st)
      else toOwnArray st own s.now (accessOf r.kind u o (pl t) (lRes u) [t]) (kindWrites r.kind) (releases r.kind o))

/-- 06_region R147, R149, R150, R152, 11_group R269: an access by a generic address in the domain window, with the row
reserved, is made once, by slab 0 for every slab of the gang: it travels to the tile that slab 0's address names and acts
there d = 5 + h + 2s cycles after the trigger; without the reserved row it is the timing fault LRES; a scope wider than the
wafer's domain sets tst.SCOPENARROW, or is the scope trap of the lowest slab that met it under SCOPESTRICT. The order of the
address checks, the reserved row and the scope is the model's reading (log 34). -/
def Obligations.DomainAccessesTravel : Prop :=
  ∀ (s : State) (is : Issue) (g : BitVec 5) (u : BitVec 2) (src : BitVec 9) (pl : TileName → Place), ∀ r ∈ memRows,
    let ts := gangTiles s is.gang
    let gg := gangOf s is.gang
    r.generic = true → lsuUnit u = true → slotRuns s is g (lBase u + r.k) →
    (∀ t ∈ ts, opdsTagged r.kind (memOpds s is u src t) = false ∧ scpBad r.kind (memOpds s is u src t).scp.val = false) →
    (gg.width = 1 ∨ gg.width = 2 ∨ gg.width = 4) →
    (∀ t ∈ ts, placeOf s is.gang t true (memAddr r.kind (memOpds s is u src t)) (kindBytes r.kind) (kindWrites r.kind) =
      .ok (pl t) ∧ (pl t).space = 2) →
    let own := slotOwner s is (lBase u + r.k)
    let o := memOpds s is u src is.gang
    let dst := (pl is.gang).tile
    let d := 5 + hops is.gang dst + 2 * seams is.gang dst
    let acc : MemAccess := { accessOf r.kind u o (pl is.gang) (lRes u + 1) ts with path := remoteTurn is.gang dst }
    let wide (t : TileName) : Bool := kindScoped r.kind && decide (4 ≤ scpScope (memOpds s is u src t).scp.val)
    let s1 := fired s is (lBase u + r.k)
    let s2 := if ts.any wide then modGang s1 is.gang fun gg => { gg with tst := { gg.tst with scopenarrow := true } } else s1
    let sent := postEv s2 (s.now + d) (if kindWrites r.kind then ordWrite + acc.path else ordRead)
      is.gang (some own) .remoteAccessArrival (.remoteAccessArrival ⟨own, acc, d⟩)
    (entryLres (entryNow s is.gang) = false → exec (r.ins g u src) s = .next (raise s1 own 9 2)) ∧
    (entryLres (entryNow s is.gang) = true → gg.tctl.scopestrict = true → ∀ n t, ts[n]? = some t → wide t = true →
      (∀ x ∈ ts.take n, wide x = false) → exec (r.ins g u src) s = .next (raiseAux s1 own 10 0 0 n)) ∧
    (entryLres (entryNow s is.gang) = true → (gg.tctl.scopestrict = false ∨ ts.any wide = false) →
      exec (r.ins g u src) s =
        .next (if releases r.kind o then postAct sent own (s.now + d) ordCheck (.relCheck acc) else sent))

/-- A region of slab t, MAPPED or MAPPING, of a kind and SYNC binds slot n (13_binding R300). -/
def binds (s : State) (t kind sync n : Nat) : Prop :=
  ∃ i < 64, (rgnState s t i = 1 ∨ rgnState s t i = 2) ∧ rgnKind s t i = kind ∧ rgnSync s t i = sync ∧
    rgnSlot0 s t i ≤ n ∧ n < rgnSlot0 s t i + rgnNslot s t i

/-- The check of a release before the actions of its cycle, 13_binding R302: with no bound slot dirty or under a flush, and no
other access on the cycle, nothing happens; with one, or with a store of the cycle that dirties one, every access of the
operation is stopped, and a vault atomic is not applied but raises UNFLUSHED. -/
def releaseChecked (s : State) (own : Owner) (a : MemAccess) (o : Ordered) : Prop :=
  let ts := gangTiles s own.gang
  let held (t n : Nat) : Prop := binds s t 3 o.sync.toNat n ∧
    ((slotOf (slabOf s t) n).dirty ≠ 0 ∨ ((slotOf (slabOf s t) n).pend = true ∧ (slotOf (slabOf s t) n).flush = true))
  let stopped (k : Nat) : Prop := ∃ st j, exec (.operationLanding own (.relCheck a)) s = .next st ∧ j ≤ k ∧
    st = { s with agenda := st.agenda } ∧ ∀ e ∈ s.agenda, e.at_ ≤ s.now → ∀ b, e.instr = .operationLanding own (.mem b) →
      { e with instr := .operationLanding own (.mem { b with stop := some j }) } ∈ st.agenda
  a.ord = some o →
    ((∀ t ∈ ts, ∀ n, ¬ held t n) → (∀ e ∈ s.agenda, e.at_ ≤ s.now → checksFor own a e = true) →
      exec (.operationLanding own (.relCheck a)) s = .next s) ∧
    (∀ k t n, ts[k]? = some t → held t n →
      (a.port ≠ 154 → stopped k) ∧
      (a.port = 154 → ∃ st, exec (.operationLanding own (.relCheck a)) s = .next st ∧ st.mem = s.mem ∧ st.vault = s.vault ∧
        st.faultSeq = s.faultSeq + 1 ∧ ∀ e ∈ st.agenda, e.at_ ≤ s.now → checksFor own a e = false)) ∧
    (∀ k t n, ts[k]? = some t → binds s t 3 o.sync.toNat n → 16 ≤ n → a.port ≠ 154 →
      (∃ e ∈ s.agenda, e.at_ ≤ s.now ∧ ∃ own' adr m w port' dests' path', own' ≠ own ∧ adr / 4096 = n ∧ 0 < m ∧
        e.instr = .operationLanding own' (.mem ⟨t, adr, .store m w, port', dests', none, path', none⟩)) → stopped k)

/-- 06_region R147, R154, 13_binding R302, R303: an access acts on its array: a load's value and an atomic's old value, DF
clear, are on their way to every destination, two cycles later, with the acquire of an ordered access that acquires, and
nothing else joins the agenda; memory changes exactly where it stores: the bytes of the store, or the doubleword of an atomic
that writes. A release is checked first, and a stopped one makes no write; an acquire clears RES of every bound slot, which
a fill in flight does not set. -/
def Obligations.ArrayAccessEffect : Prop :=
  ∀ (s : State) (own : Owner) (t : TileName) (addr port path : Nat) (dests : List TileName), s.memWf →
    let old : Word := BitVec.ofNat 64 (memReadN s.mem (t * 2 ^ 22 + addr) 8)
    let results (v : Word) : State := dests.foldl (fun st u => postLand st own (s.now + 2) (.slRes u port ⟨v, false⟩)) s
    let acquires (ord : Option Ordered) (st : State) : State :=
      match ord with | some x => postLand st own (s.now + 2) (.acquire 3 x.sync) | none => st
    (∀ n ord, let st := results (BitVec.ofNat 64 (memReadN s.mem (t * 2 ^ 22 + addr) n))
      exec (.operationLanding own (.mem ⟨t, addr, .load n, port, dests, ord, path, none⟩)) s =
        .next (if ord.any (·.acq) then acquires ord st else st)) ∧
    (∀ n data ord, ord.any (·.acq) = false →
      ∃ s', exec (.operationLanding own (.mem ⟨t, addr, .store n data, port, dests, ord, path, none⟩)) s = .next s' ∧
      s'.agenda = s.agenda ∧ s'.gangs = s.gangs ∧ s'.vault = s.vault ∧ s'.ctxs = s.ctxs ∧
      (∀ i < n, memRead s'.mem (t * 2 ^ 22 + addr + i) = BitVec.ofNat 8 (data.toNat / 256 ^ i)) ∧
      (∀ a, a < t * 2 ^ 22 + addr ∨ t * 2 ^ 22 + addr + n ≤ a → memRead s'.mem a = memRead s.mem a)) ∧
    (∀ op v cmp (o f : BitVec 3) ord,
      let taken := if op = .cas ∧ old ≠ cmp then f else o
      ∃ s', exec (.operationLanding own (.mem ⟨t, addr, .atom op v cmp o f, port, dests, ord, path, none⟩)) s =
        .next s' ∧ s'.gangs = s.gangs ∧ s'.vault = s.vault ∧ s'.ctxs = s.ctxs ∧
      s'.agenda = (if taken = 1 ∨ taken = 3 ∨ taken = 4 then acquires ord (results old) else results old).agenda ∧
      (∀ a, a < t * 2 ^ 22 + addr ∨ t * 2 ^ 22 + addr + 8 ≤ a → memRead s'.mem a = memRead s.mem a) ∧
      memReadN s'.mem (t * 2 ^ 22 + addr) 8 =
        (match op with
         | .add => old + v
         | .and => old &&& v
         | .or => old ||| v
         | .xor => old ^^^ v
         | .min => if old.toInt < v.toInt then old else v
         | .max => if old.toInt < v.toInt then v else old
         | .xchg => v
         | .cas => if old = cmp then v else old : Word).toNat) ∧
    (∀ k x op, (ctxOf s own.ctx).faults = [] →
      (∃ n w, op = .store n w) ∨ (∃ k v cmp o f, op = .atom k v cmp o f ∧ (k ≠ .cas ∨ old = cmp)) →
      exec (.operationLanding own (.mem ⟨t, addr, op, port, dests, some x, path, some k⟩)) s = .next (raiseAux s own 9 7 0 k)) ∧
    (∀ a o, releaseChecked s own a o) ∧
    (∀ kind sync, ∃ st, exec (.operationLanding own (.acquire kind sync)) s = .next st ∧ steady s st ∧ st.agenda = s.agenda ∧
      ∀ u ∈ gangTiles s own.gang, ∀ n, 16 ≤ n →
        (¬ binds s u kind sync.toNat n → slotOf (slabOf st u) n = slotOf (slabOf s u) n) ∧
        (binds s u kind sync.toNat n → slotOf (slabOf st u) n = { slotOf (slabOf s u) n with res := false } ∧
          ∀ x, tabGet (slabOf s u).stage n = some x → tabGet (slabOf st u).stage n = some { x with noRes := true }))

/-- 06_region R155: a fence within the wafer's domain makes no access and leaves everything but the slot count; a wider
scope sets tst.SCOPENARROW, or is the scope trap of the lowest slab that met it under SCOPESTRICT (11_group R270). -/
def Obligations.FencesCheckTheirScope : Prop :=
  ∀ (s : State) (is : Issue) (g : BitVec 5) (u : BitVec 2) (src : BitVec 9) (i : Instr) (k : Nat),
    (i, k) ∈ [(Instr.fenceAcq g u src, 37), (Instr.fenceRel g u src, 38), (Instr.fenceAr g u src, 39),
              (Instr.fenceSc g u src, 40)] →
    lsuUnit u = true → slotRuns s is g (lBase u + k) → plainIn s is (gangTiles s is.gang) src →
    (∀ t ∈ gangTiles s is.gang, (srcIn s is t src).toNat % 8 < 6) →
    let wide := ∃ t ∈ gangTiles s is.gang, 4 ≤ (srcIn s is t src).toNat % 8
    let s1 := fired s is (lBase u + k)
    (¬ wide → exec i s = .next s1) ∧
    (wide → (gangOf s is.gang).tctl.scopestrict = false → exec i s =
      .next (modGang s1 is.gang fun gg => { gg with tst := { gg.tst with scopenarrow := true } })) ∧
    (∀ n t, (gangTiles s is.gang)[n]? = some t → 4 ≤ (srcIn s is t src).toNat % 8 →
      (∀ x ∈ (gangTiles s is.gang).take n, (srcIn s is x src).toNat % 8 < 4) → (gangOf s is.gang).tctl.scopestrict = true →
      exec i s = .next (raiseAux s1 (slotOwner s is (lBase u + k)) 10 0 0 n))

/-- 06_region R158, R159, R162 to R164, R166, R167, 14_kernel R338: the tag, region and bank operations, untagged: what
acts in each slab at c+2, and in which turn of that cycle; RGNMAP with an aligned descriptor inside the scratchpad,
and BANKWAIT, record their wait in the block, and the first BANKWAIT of the task that names the banks of its constant
blocks brings those too. The turn in cycle c+2, the cycle from which the change is seen, and that slab 0's mask serves
every slab are the model's reading (log 46, log 47, log 59, log 133). -/
def Obligations.TagRegionAndBankOperations : Prop :=
  (∀ (s : State) (is : Issue) (g : BitVec 5) (u : BitVec 2) (src : BitVec 9), lsuUnit u = true →
     plainIn s is (gangTiles s is.gang) src →
     let ts := gangTiles s is.gang
     let v (t : TileName) : Word := srcIn s is t src
     let slotA (t : TileName) : Nat := (lOpd s is t u 0).val.toNat % 1024
     let acts (k : Nat) (i : Instr) (ord : Nat) (f : TileName → Action) : Prop :=
       slotRuns s is g (lBase u + k) → exec i s = .next (forTiles (fired s is (lBase u + k)) ts fun st t =>
         postAct st (slotOwner s is (lBase u + k)) (s.now + 2) ord (f t))
     acts 41 (.taglook g u src) ordRead (fun t => .tagLook t (lRes u) ((v t).extractLsb' 12 36).toNat) ∧
     acts 46 (.rgnqry g u src) ordRead
       (fun t => .query t (lRes u) ((v t).toNat % 64) ((v t).extractLsb' 6 3).toNat ((v t).getLsbD 9)) ∧
     acts 47 (.bankrel g u src) ordLand (fun t => .bankRel t ((v t).extractLsb' 0 32)) ∧
     ((∀ t ∈ ts, (lOpd s is t u 0).df = false ∧ (lOpd s is t u 1).df = false ∧ 16 ≤ slotA t) →
       acts 42 (.tagset g u src) (ordLand + lPath u) fun t =>
         .tagWrite t (slotA t) (mkTag ((lOpd s is t u 1).val.toNat % 64) ((v t).extractLsb' 12 36).toNat)) ∧
     ((∀ t ∈ ts, 16 ≤ (v t).toNat % 1024) → slotRuns s is g (lBase u + 43) →
       exec (.tagclr g u src) s = .next (forTiles (forTiles (fired s is (lBase u + 43)) ts fun st t =>
           postAct st (slotOwner s is (lBase u + 43)) (s.now + 2) (ordLand + lPath u) (.tagClear t ((v t).toNat % 1024))) ts
         fun st t => postAct st (slotOwner s is (lBase u + 43)) (s.now + 2) (ordWrite + lPath u)
           (.dirtySlot t ((v t).toNat % 1024)))) ∧
     (slotRuns s is g (lBase u + 45) →
       exec (.rgnunmap g u src) s = .next (forTiles (fired s is (lBase u + 45)) ts fun st t =>
         postAct (postAct st (slotOwner s is (lBase u + 45)) (s.now + 2) (ordLand + lPath u) (.unmap t ((v t).toNat % 64)))
           (slotOwner s is (lBase u + 45)) (s.now + 2) (ordWrite + lPath u) (.dirtyRegion t ((v t).toNat % 64))))) ∧
  (∀ (s : State) (is : Issue) (g : BitVec 5) (u : BitVec 2) (src : BitVec 9), lsuUnit u = true →
     plainIn s is (gangTiles s is.gang) src →
     (slotRuns s is g (lBase u + 44) →
       (∀ t ∈ gangTiles s is.gang, (lOpd s is t u 0).df = false ∧ (srcIn s is t src).toNat < 2 ^ 22 ∧
         (srcIn s is t src).toNat % 32 = 0) →
       exec (.rgnmap g u src) s = .next (withBlock s is (lBase u + 44) fun b => { b with
         waits := b.waits ++ [.rgnmap (u = 2) ((lOpd s is is.gang u 0).val.toNat % 64) (srcIn s is is.gang src).toNat] })) ∧
     (slotRuns s is g (lBase u + 48) →
       let mask := (srcIn s is is.gang src).extractLsb' 0 32 &&& ~~~1
       let named : Prop := ∀ r ∈ constRows (gangConsts s is.gang), mask.getLsbD (r / 2048) = true
       let wait (gg : Gang) (first : Bool) : Block := { gg.blk with waits := gg.blk.waits ++ [.bankwait (u = 2) mask first] }
       ((gangOf s is.gang).firstBank = true → named →
         exec (.bankwait g u src) s = .next (modGang (fired s is (lBase u + 48)) is.gang fun gg => { gg with
           firstBank := false, blk := wait gg true })) ∧
       ((gangOf s is.gang).firstBank = false ∨ ¬ named →
         exec (.bankwait g u src) s = .next (modGang (fired s is (lBase u + 48)) is.gang fun gg => { gg with
           blk := wait gg false }))))

/-- 07_vector R178, R180: the integer and logic lanes of V. -/
def Obligations.VectorIntegerLanes : Prop := lanesLand intLaneRows

/-- 07_vector R178 to R180, 03_element R66, R68, R72: the FP32 lanes of V, with their flags: a sum, a product and a fused sum
are the exact value rounded once to nearest, ties to even, with the special values and the flag of their rules; under
fmt.STRICT a numeric flag of a gang of
one is the numeric trap of its slab: no result lands, the sticky flags are set. -/
def Obligations.VectorFloatLanesAndTrap : Prop :=
  (lanesLand fpLaneRows) ∧
  (let val (x : BitVec 32) : Machine.Num := decodeFmt 4 x.toNat
   ∀ a b c : BitVec 32,
    sumRule ((val a).isNan || (val b).isNan) false [val a, val b] (add32 a.toNat b.toNat) ∧
    sumRule ((val a).isNan || (val b).isNan) (zeroTimesInf (val a) (val b)) [product 0 (val a) (val b)] (mul32 a.toNat b.toNat) ∧
    sumRule ((val a).isNan || (val b).isNan || (val c).isNan) (zeroTimesInf (val a) (val b)) [product 0 (val a) (val b), val c]
      (fma32 a.toNat b.toNat c.toNat)) ∧
  (∀ (s : State) (is : Issue) (g : BitVec 5) (src : BitVec 9), ∀ r ∈ fpLaneRows, slotRuns s is g r.port → vecPlain s is src →
     (gangOf s is.gang).width = 1 →
     let fl := r.flags (vOpds s is is.gang) (readVec s is is.gang src)
     fl.invf = true → (gangOf s is.gang).fmt.strict.getLsbD 1 = true →
     exec (r.ins g src) s =
       .next (raiseAux (setFlags (fired s is r.port) is.gang fl) (slotOwner s is r.port) 5 2 0 0))

/-- 07_vector R181: a compare puts one bit for each lane into v.kr at c+2, 0 in an inactive lane, and sets no flag. -/
def Obligations.VectorCompares : Prop :=
  (∀ a b : BitVec 32, (decodeFmt 4 a.toNat).isNan = true ∨ (decodeFmt 4 b.toNat).isNan = true → fEq a b = false ∧ fLt a b = false) ∧
  fEq 0x80000000 0 = true ∧ fLt 0x80000000 0 = false ∧
  ∀ (s : State) (is : Issue) (g : BitVec 5) (src : BitVec 9), ∀ r ∈ vcmpRows, slotRuns s is g r.port → vecPlain s is src →
    ∃ m : TileName → Word,
      (∀ t, ∀ i < 64, (m t).getLsbD i = ((vOpds s is t).km.getLsbD i &&
        r.p (lane (vOpds s is t).a i) (lane (readVec s is t src) i))) ∧
      exec (r.ins g src) s = .next (vecLanding s is r.port 2 .none fun t => .slRes t 147 ⟨m t, false⟩)

/-- 07_vector R182, R185, R187: select, shuffle, broadcast, the shuffle across the gang's slabs, and the clamp. -/
def Obligations.VectorSelectShuffleClamp : Prop :=
  ∀ (s : State) (is : Issue) (g : BitVec 5) (src : BitVec 9), vecPlain s is src →
    let x (t : TileName) : Vec := readVec s is t src
    let o (t : TileName) : VOpds := vOpds s is t
    let masked (t : TileName) (f : Nat → BitVec 32) : Vec := ofLanes fun i => if (o t).km.getLsbD i then f i else 0
    let lands (d : Nat) (i : Instr) (v : TileName → Vec) : Prop :=
      slotRuns s is g d → exec i s = .next (vecLanding s is d 2 .none fun t => .vRes t 142 (v t))
    lands 480 (.vsel g src) (fun t => ofLanes fun i => if (o t).km.getLsbD i then lane (x t) i else lane (o t).a i) ∧
    lands 486 (.vshuf g src) (fun t => masked t fun i => lane (x t) ((lane (o t).a i).toNat % 64)) ∧
    lands 487 (.vbcast g src) (fun t => masked t fun _ => lane (x t) ((o t).ctl.extractLsb' 17 6).toNat) ∧
    lands 488 (.vgshuf g src) (fun t => masked t fun i =>
      let n := (lane (o t).a i).toNat
      match (gangTiles s is.gang)[n / 64 % 4]? with | some u => lane (x u) (n % 64) | none => 0) ∧
    lands 499 (.vclamp g src) (fun t => masked t fun i =>
      let b := tabGetD boundReset (gangOf s is.gang).bd ((o t).ctl.extractLsb' 14 3).toNat
      let v := lane (x t) i
      if (decodeFmt 4 v.toNat).isNan || fLt v b.lo then b.lo else if fLt b.hi v then b.hi else v)

/-- 07_vector R174, R183, 03_element R67, R68: VCVT of valid formats and parts answers a next state on every operand, with
fmt.STRICT at 0 or where no slab meets a numeric trap: for each active lane i, element 64·DP + i of the result is element
64·SP + i of t converted from SFMT to DFMT with mode RM, every other element is cc's, or 0 in a result of 32-bit elements,
and the result lands at c+3 with the flags of its active lanes; under STRICT such a flag of a gang of one is the numeric
trap; a reserved format or a part outside the register is the format trap of the lowest slab. -/
def Obligations.VectorConversion : Prop :=
  ∀ (s : State) (is : Issue) (g : BitVec 5) (src : BitVec 9), slotRuns s is g 481 → vecPlain s is src →
    let o (t : TileName) : VOpds := vOpds s is t
    let sfmt (t : TileName) : Nat := (o t).ctl.toNat % 16
    let dfmt (t : TileName) : Nat := (o t).ctl.toNat / 16 % 16
    let rm (t : TileName) : Nat := (o t).ctl.toNat / 2 ^ 8 % 4
    let sp (t : TileName) : Nat := (o t).ctl.toNat / 2 ^ 10 % 4
    let dp (t : TileName) : Nat := (o t).ctl.toNat / 2 ^ 12 % 4
    let wd (t : TileName) : Nat := fmtBits (dfmt t)
    let valid (t : TileName) : Prop := sfmt t < 6 ∧ dfmt t < 6 ∧ sp t < 32 / fmtBits (sfmt t) ∧ dp t < 32 / wd t
    let conv (t : TileName) (i : Nat) : Nat × FlagSet :=
      convertFmt (sfmt t) (dfmt t) (rm t) (packed (readVec s is t src) (fmtBits (sfmt t)) (64 * sp t + i))
    let fl (t : TileName) : FlagSet := (activeOf (o t).km).foldl (fun a i => a.or (conv t i).2) .none
    ((∀ t ∈ gangTiles s is.gang, valid t ∧
        ((gangOf s is.gang).fmt.strict = 0 ∨ numericTrap (gangOf s is.gang).fmt (fl t) = none)) →
      ∃ r : TileName → Vec,
        exec (.vcvt g src) s = .next (vecLanding s is 481 3 (gangFlags s is fl) fun t => .vRes t 143 (r t)) ∧
        ∀ t ∈ gangTiles s is.gang, ∀ j < 2048 / wd t, packed (r t) (wd t) j =
          if 64 * dp t ≤ j ∧ j < 64 * dp t + 64 ∧ (o t).km.getLsbD (j - 64 * dp t) = true then
            (conv t (j - 64 * dp t)).1 % 2 ^ wd t
          else if wd t = 32 then 0 else packed (o t).cc (wd t) j) ∧
    ((gangOf s is.gang).width = 1 → valid is.gang → ∀ c, numericTrap (gangOf s is.gang).fmt (fl is.gang) = some c →
      exec (.vcvt g src) s = .next (raiseAux (setFlags (fired s is 481) is.gang (fl is.gang)) (slotOwner s is 481) 5 c 0 0)) ∧
    (∀ n t, (gangTiles s is.gang)[n]? = some t → ¬ valid t → (∀ x ∈ (gangTiles s is.gang).take n, valid x) →
      exec (.vcvt g src) s = .next (raiseAux (fired s is 481) (slotOwner s is 481) 6 3 0 n))

/-- 07_vector R184: the reductions land in v.sr at c+8: the exact sum of the active signed integers; for the others the root of
the tree of six levels over the lanes, an inactive one at the identity: a rounded sum at each node of VRED.ADD, which marks an
invalid operation, the smaller or the larger at each node of VRED.MIN and VRED.MAX. -/
def Obligations.VectorReductions : Prop :=
  ∀ (s : State) (is : Issue) (g : BitVec 5) (src : BitVec 9), vecPlain s is src →
    let o (t : TileName) : VOpds := vOpds s is t
    let x (t : TileName) : Vec := readVec s is t src
    let plain (d : Nat) (i : Instr) (v : TileName → Word) : Prop :=
      slotRuns s is g d → exec i s = .next (vecLanding s is d 8 .none fun t => .slRes t 149 ⟨v t, false⟩)
    plain 485 (.vredIadd g src) (fun t => BitVec.ofInt 64 (((activeOf (o t).km).map fun i => (lane (x t) i).toInt).sum)) ∧
    let leaf (id : BitVec 32) (t : TileName) (i : Nat) : BitVec 32 := if (o t).km.getLsbD i then lane (x t) i else id
    plain 483 (.vredMin g src) (fun t =>
      (treeNode (fun a b => (fmin32 a b, false)) (leaf 0x7F800000 t) 6 0).1.setWidth 64) ∧
    plain 484 (.vredMax g src) (fun t =>
      (treeNode (fun a b => (fmax32 a b, false)) (leaf 0xFF800000 t) 6 0).1.setWidth 64) ∧
    (let root (t : TileName) : BitVec 32 × Bool :=
       treeNode (fun a b => let r := add32 a.toNat b.toNat; (BitVec.ofNat 32 r.1, r.2)) (leaf 0 t) 6 0
     let fl (t : TileName) : FlagSet := ⟨false, (root t).2, false⟩
     slotRuns s is g 482 → (∀ t ∈ gangTiles s is.gang, numericTrap (gangOf s is.gang).fmt (fl t) = none) →
      exec (.vredAdd g src) s = .next (vecLanding s is 482 8 (gangFlags s is fl) fun t =>
        .slRes t 149 ⟨(root t).1.setWidth 64, false⟩))

/-- 07_vector R186: the mask operations, never masked themselves; the tail of slab k counts gang lanes from 64k. -/
def Obligations.MaskOperations : Prop :=
  ∀ (s : State) (is : Issue) (g : BitVec 5) (src : BitVec 9), plainIn s is (gangTiles s is.gang) src →
    let km (t : TileName) : Word := (slOpd s is t 450).val
    let lands (d : Nat) (i : Instr) (k : Nat) (v : TileName → Word) : Prop :=
      slotRuns s is g d → exec i s = .next (forTiles (fired s is d) (gangTiles s is.gang) fun st t =>
        postLand st (slotOwner s is d) (s.now + 2) (.slRes t k ⟨v t, false⟩))
    lands 493 (.kand g src) 147 (fun t => srcIn s is t src &&& km t) ∧
    lands 494 (.kor g src) 147 (fun t => srcIn s is t src ||| km t) ∧
    lands 495 (.kxor g src) 147 (fun t => srcIn s is t src ^^^ km t) ∧
    lands 496 (.knot g src) 147 (fun t => ~~~(srcIn s is t src)) ∧
    lands 498 (.kpopc g src) 148 (fun t => BitVec.ofNat 64 ((List.range 64).filter (srcIn s is t src).getLsbD).length) ∧
    lands 497 (.ktail g src) 147 (fun t => BitVec.ofNat 64 (2 ^ min 64 ((srcIn s is t src).toNat -
      64 * (gangTiles s is.gang).idxOf t) - 1))

/-- 07_vector R189 to R192, 03_element R77: VLD and VGATH read each active lane's word at c+3, little-endian, for v.lr at
c+5 and v.gr at c+12 with 0 in the other lanes; VST writes the words at c+3 and VSCAT at c+10 through the V path, for lanes that pass every check; a store's bound register leaves, flags or clamps each active word
outside its range, and under TRAP such a word is the bound trap of the lowest slab, and nothing is written (R192,
03_element R77). -/
def Obligations.VectorMemoryOperations : Prop :=
  ∀ (s : State) (is : Issue) (g : BitVec 5) (src : BitVec 9),
    let ts := gangTiles s is.gang
    let o (t : TileName) : VOpds := vOpds s is t
    let x (t : TileName) : Vec := readVec s is t src
    let ldAdr (t : TileName) (i : Nat) : Word := stridedAddr (shapeOf (slabOf s t) 4) ((o t).adr + srcIn s is t src) i
    let stAdr (t : TileName) (i : Nat) : Word := stridedAddr (shapeOf (slabOf s t) 5) (o t).adr i
    let ixAdr (t : TileName) (i : Nat) : Word := (o t).adr + (lane (x t) i).setWidth 64
    let ok (lat : Nat) (adr : TileName → Nat → Word) (w : Bool) : Prop :=
      ∀ t ∈ ts, lanesOk s is t (o t).km (adr t) w ∧ vpathFree s t (s.now + lat)
    let bound (k : Nat) (t : TileName) : Bound :=
      let f := (shapeOf (slabOf s t) k).toNat / 2 ^ 36 % 16
      if f < 8 then boundReset else tabGetD boundReset (gangOf s is.gang).bd (f - 8)
    let out (k : Nat) (w : TileName → Nat → BitVec 32) (t : TileName) (i : Nat) : Bool :=
      (bound k t).act != 0 && outsideBound (bound k t) (decodeFmt 4 (w t i).toNat)
    let word (k : Nat) (w : TileName → Nat → BitVec 32) (t : TileName) (i : Nat) : BitVec 32 :=
      if (bound k t).act = 2 ∧ out k w t i = true then clampTo (bound k t) (decodeFmt 4 (w t i).toNat) else w t i
    let outs (k : Nat) (w : TileName → Nat → BitVec 32) (t : TileName) : Bool := (activeOf (o t).km).any (out k w t)
    let traps (k : Nat) (w : TileName → Nat → BitVec 32) (t : TileName) : Bool := (bound k t).act = 3 && outs k w t
    let posts (d lat ord : Nat) (st : State) (f : TileName → Action) : State :=
      forTiles st ts fun st t => postAct st (slotOwner s is d) (s.now + lat) ord (f t)
    (slotRuns s is g 489 → plainIn s is ts src → ok 3 ldAdr false →
      exec (.vld g src) s = .next (posts 489 3 ordRead (fired s is 489) fun t =>
        .vload t 145 ((activeOf (o t).km).map fun i => (i, (ldAdr t i).toNat)))) ∧
    (slotRuns s is g 491 → vecPlain s is src → ok 3 ixAdr false →
      exec (.vgath g src) s = .next (posts 491 3 ordRead (fired s is 491) fun t =>
        .vload t 146 ((activeOf (o t).km).map fun i => (i, (ixAdr t i).toNat)))) ∧
    (∀ (i : Instr) (d lat k : Nat) (adr : TileName → Nat → Word) (w : TileName → Nat → BitVec 32),
      (i = .vst g src ∧ d = 490 ∧ lat = 3 ∧ k = 5 ∧ adr = stAdr ∧ w = (fun t => lane (x t))) ∨
      (i = .vscat g src ∧ d = 492 ∧ lat = 10 ∧ k = 7 ∧ adr = ixAdr ∧ w = (fun t => lane (o t).a)) →
      slotRuns s is g d → vecPlain s is src → ok lat adr true →
      ((∀ t ∈ ts, traps k w t = false) →
        exec i s = .next (posts d lat (ordWrite + 7) (setFlags (fired s is d) is.gang ⟨false, false, ts.any (outs k w)⟩) fun t =>
          .vstore t ((activeOf (o t).km).map fun i => (i, (adr t i).toNat, word k w t i)) (outs k w t))) ∧
      (∀ n t, ts[n]? = some t → traps k w t = true → (∀ u ∈ ts.take n, traps k w u = false) →
        exec i s = .next (raiseAux (fired s is d) (slotOwner s is d) 7 0 0 n))) ∧
    (∀ (own : Owner) (t port : Nat) (ls : List (Nat × Nat)), (port = 145 ∨ port = 146) → (ls.map (·.1)).Nodup →
      (∀ l ∈ ls, l.1 < 64) →
      ∃ v : Vec, exec (.operationLanding own (.vload t port ls)) s =
          .next (postLand s own (s.now + if port = 145 then 2 else 9) (.vRes t port v)) ∧
        (∀ l ∈ ls, lane v l.1 = BitVec.ofNat 32 (memReadN s.mem (t * 2 ^ 22 + l.2) 4)) ∧
        ∀ i < 64, i ∉ ls.map (·.1) → lane v i = 0)

/-- 07_vector R191: the words of a vector store stand in memory after it, the later lane's where two meet, and no other
byte changes. -/
def Obligations.VectorStoreEffect : Prop :=
  ∀ (s : State) (own : Owner) (t : TileName) (ws : List (Nat × Nat × BitVec 32)) (out : Bool), s.memWf →
    ∃ s', exec (.operationLanding own (.vstore t ws out)) s = .next s' ∧ s'.agenda = s.agenda ∧ s'.gangs = s.gangs ∧
      s'.vault = s.vault ∧
      (∀ a, (∀ w ∈ ws, a < t * 2 ^ 22 + w.2.1 ∨ t * 2 ^ 22 + w.2.1 + 4 ≤ a) → memRead s'.mem a = memRead s.mem a) ∧
      (∀ w l r, ws = l ++ w :: r → (∀ z ∈ r, z.2.1 + 4 ≤ w.2.1 ∨ w.2.1 + 4 ≤ z.2.1) →
        memReadN s'.mem (t * 2 ^ 22 + w.2.1) 4 = w.2.2.toNat)

/-- What FEVAL of control ctl and mask km makes of a vector by a table, 07_vector R195: element j of the result, and the
flags: lane by lane the segment that the bits of x select, two fused sums, and the conversion of the second into the
selected part of the result, 0 elsewhere. -/
def fevalOf (tab : Tab (BitVec 32)) (ctl km : Word) (v : Vec) : (Nat → Nat) × FlagSet :=
  let ofmt := ctl.toNat / 2 ^ 8 % 16
  let dp := ctl.toNat / 2 ^ 12 % 4
  let c (seg j : Nat) : Nat := (tabGetD 0 tab (3 * seg + j)).toNat
  let x (i : Nat) : Nat :=
    if ctl.getLsbD 5 then packed v 16 (64 * (ctl.toNat / 2 ^ 6 % 2) + i) * 2 ^ 16 else packed v 32 i
  let seg (i : Nat) : Nat := x i / 2 ^ (ctl.toNat % 32) % 256
  let p (i : Nat) : Nat × Bool := fma32 (c (seg i) 2) (x i) (c (seg i) 1)
  let y (i : Nat) : Nat × Bool := fma32 (p i).1 (x i) (c (seg i) 0)
  let conv (i : Nat) : Nat × FlagSet := convertFmt 4 ofmt 0 (y i).1
  (fun j => if 64 * dp ≤ j ∧ j < 64 * dp + 64 ∧ km.getLsbD (j - 64 * dp) = true then (conv (j - 64 * dp)).1 % 2 ^ fmtBits ofmt
     else 0,
   (activeOf km).foldl (fun a i => a.or ⟨(conv i).2.cvovf, (p i).2 || (y i).2 || (conv i).2.invf, false⟩) .none)

/-- 07_vector R193, R195: FLOAD of a table inside the scratchpad, aligned and in the task's banks, with the V path free,
reads its 48 rows from c+1 on, sixteen coefficients a row, and the last makes the new table take effect; FEVAL of a valid
control takes its table at the end of its trigger cycle in every slab: the result of each lands at c+7 with its flags, unless
fmt.STRICT raises the numeric trap of the lowest slab that meets it, which stops them all. -/
def Obligations.InterpolationOperations : Prop :=
  ∀ (s : State) (is : Issue) (g : BitVec 5) (src : BitVec 9),
    let ts := gangTiles s is.gang
    let a (t : TileName) : Nat := (srcIn s is t src).toNat
    (slotRuns s is g 577 → plainIn s is ts src →
      (∀ t ∈ ts, a t + 3072 ≤ 2 ^ 22 ∧ a t % 64 = 0 ∧ rangeBank s (gangOf s is.gang).task t (a t) 3072 = true ∧
        floadTiming (fired s is 577) t = none) →
      exec (.fload g src) s = .next (forTiles (fired s is 577) ts fun st t =>
        (List.range 48).foldl (fun st r => postAct st (slotOwner s is 577) (s.now + 1 + r) ordRead
          (.floadRow t (a t + 64 * r) r)) (modSlab st t fun sl => { sl with fload := some s.now }))) ∧
    (slotRuns s is g 578 → vecPlain s is src →
      (∀ t ∈ ts, fctlBad (slOpd s is t 576).val = false ∧ floadBusy (slabOf s t) s.now = false) →
      exec (.feval g src) s = .next (postAct (fired s is 578) (slotOwner s is 578) s.now ordEval
        (.feval (ts.map fun t => (t, (slOpd s is t 576).val, (slOpd s is t 450).val, readVec s is t src))))) ∧
    (∀ (own : Owner) (xs : List (TileName × Word × Word × Vec)), (∀ e ∈ xs, fctlBad e.2.1 = false) →
      let s1 := setFlags s own.gang (xs.foldl (fun a e => a.or (fevalOf (slabOf s e.1).ftab e.2.1 e.2.2.1 e.2.2.2).2) .none)
      let trap (e : TileName × Word × Word × Vec) : Option Nat :=
        numericTrap (gangOf s own.gang).fmt (fevalOf (slabOf s e.1).ftab e.2.1 e.2.2.1 e.2.2.2).2
      ((∀ e ∈ xs, trap e = none) → ∃ r : TileName × Word × Word × Vec → Vec,
        exec (.operationLanding own (.feval xs)) s =
          .next (xs.foldl (fun st e => postLand st own (s.now + 7) (.vRes e.1 150 (r e))) s1) ∧
        ∀ e ∈ xs, let wd := fmtBits (e.2.1.toNat / 2 ^ 8 % 16)
          ∀ j < 2048 / wd, packed (r e) wd j = (fevalOf (slabOf s e.1).ftab e.2.1 e.2.2.1 e.2.2.2).1 j) ∧
      (∀ l e rest cause, xs = l ++ e :: rest → (∀ z ∈ l, trap z = none) → trap e = some cause →
        exec (.operationLanding own (.feval xs)) s = .next (raiseAux s1 own 5 cause 0 l.length))) ∧
    (∀ (own : Owner) (t : TileName) (a r : Nat), r < 48 →
      ∃ st, exec (.operationLanding own (.floadRow t a r)) s = .next st ∧ st.mem = s.mem ∧ st.agenda = s.agenda ∧
        st.gangs = s.gangs ∧ (∀ u, u ≠ t → slabOf st u = slabOf s u) ∧
        (let tab := if r = 47 then (slabOf st t).ftab else (slabOf st t).fnew
         (∀ i < 16, tabGetD 0 tab (16 * r + i) = BitVec.ofNat 32 (memReadN s.mem (t * 2 ^ 22 + a + 4 * i) 4)) ∧
         ∀ j, j / 16 ≠ r → tabGetD 0 tab j = tabGetD 0 (slabOf s t).fnew j) ∧
        (r ≠ 47 → (slabOf st t).ftab = (slabOf s t).ftab ∧ (slabOf st t).fload = (slabOf s t).fload) ∧
        (r = 47 → (slabOf st t).fnew = [] ∧ ((slabOf s t).fload = some (s.now - 48) → (slabOf st t).fload = none)))

/-- 07_vector R197 to R199: a push is the next row of the filling tile, or the first of a new one, which latches hx0, where no
tile is filling; a pop of a ready tile lands its next column at c+1, element e of it from row e; a clear empties both buffers
at c+1. -/
def Obligations.TransposerOperations : Prop :=
  ∀ (s : State) (is : Issue) (g : BitVec 5) (src : BitVec 9),
    let ts := gangTiles s is.gang
    (slotRuns s is g 593 → vecPlain s is src → (∀ t ∈ ts, xBlocked (slabOf s t) = false) →
      exec (.xpush g src) s = .next (forTiles (fired s is 593) ts fun st t =>
        modSlab st t fun sl => xPushRow sl s.now (readVec s is t src))) ∧
    (∀ (sl : Slab) (now : Nat) (row : Vec),
      (∀ l x, sl.xtiles = l ++ [x] → x.rows.length < hxRows x.hx0 →
        xPushRow sl now row = { sl with xtiles := l ++ [{ x with rows := x.rows ++ [row], last := now }] }) ∧
      ((∀ l x, sl.xtiles = l ++ [x] → hxRows x.hx0 ≤ x.rows.length) →
        xPushRow sl now row = { sl with xtiles := sl.xtiles ++ [⟨[row], 0, shapeOf sl 8, now, now⟩] })) ∧
    (∀ (x : XTile) (j : Nat), let w := if hxHalf x.hx0 then 16 else 32
      j < hxCols x.hx0 → ∀ e < 2048 / w, packed (xColumn x j) w e =
        if e < hxRows x.hx0 then (match x.rows[e]? with | some row => packed row w j | none => 0) else 0) ∧
    (slotRuns s is g 594 → plainIn s is ts src → (∀ t ∈ ts, xpopBad (slabOf s t) s.now = false) → ts.Nodup →
      ∃ st, exec (.xpop g src) s = .next st ∧ st.mem = s.mem ∧ st.vault = s.vault ∧
        (∀ t ∈ ts, ∀ x rest, (slabOf s t).xtiles = x :: rest →
          (slabOf st t).xtiles = (if hxCols x.hx0 ≤ x.pops + 1 then rest else { x with pops := x.pops + 1 } :: rest)) ∧
        st.agenda = (forTiles s ts fun st t => match (slabOf s t).xtiles with
          | x :: _ => postLand st (slotOwner s is 594) (s.now + 1) (.vRes t 151 (xColumn x x.pops))
          | [] => st).agenda) ∧
    (slotRuns s is g 595 → plainIn s is ts src →
      exec (.xclr g src) s = .next (forTiles (fired s is 595) ts fun st t =>
        postLand st (slotOwner s is 595) (s.now + 1) (.xclr t)))

/-- 08_accumulator R213, R214, R228: MXCALL of a loaded entry, with idle unparked engines and no row of R228, latches the
routine in every slab, starts its first microword at c+1 and lands at the cycle its walk gives; MXRESUME of a gang
parked in every slab, idle, and with no row in what is left, latches fmt anew, takes the parked bank to RUNNING,
clears the park, and starts the parked microword at c+1. That the checks walk only the groups added, and the
descriptors a routine starts with, are the model's (log 51, log 52). -/
def Obligations.RoutinesStartAndResume : Prop :=
  (∀ (s : State) (is : Issue) (g : BitVec 5) (src : BitVec 9), slotRuns s is g 608 →
     plainIn s is (gangTiles s is.gang) src →
     let ts := gangTiles s is.gang
     let gg := gangOf s is.gang
     let idx (t : TileName) : Nat := (srcIn s is t src).toNat % 64
     let entry (t : TileName) : Nat := (storeEntry (slabOf s t).mx (idx t)).getD 0
     let walks := ts.zipIdx.map fun (t, k) => callWalk s is.gang t k gg.task (entry t)
     let own := slotOwner s is 608
     (∀ t ∈ ts, (slabOf s t).mx.busy = false ∧ mxParked (slabOf s t).mx = false ∧
       (storeEntry (slabOf s t).mx (idx t)).isSome = true) → mixedFmt gg.fmt = false → worstRow walks = none →
     ∃ st r, exec (.mxcall g src) s = .next st ∧ st.mem = s.mem ∧ st.vault = s.vault ∧ st.gangs = (fired s is 608).gangs ∧
       (∀ t ∈ ts, (slabOf st t).mx.busy = true ∧ (slabOf st t).mx.ridx = BitVec.ofNat 6 (idx t) ∧
         (slabOf st t).mx.acc0 = (slabOf s t).mx.acc0 ∧ (slabOf st t).mx.acc1 = (slabOf s t).mx.acc1 ∧
         (slabOf st t).mx.front = (slabOf s t).mx.front) ∧
       runOf st is.gang = some r ∧ r.own = own ∧ r.gupc = entry is.gang ∧ r.gi = 0 ∧ r.fmt = gg.fmt ∧ r.mp = (slabOf s is.gang).mx.mp ∧
       r.hm = latchHm (slabOf s is.gang) ∧ r.bound = latchBound gg (latchHm (slabOf s is.gang)) ∧
       microAt st is.gang own (s.now + 1) (goesOn s is.gang r (entry is.gang) 0) ∧
       (∀ w rest, walks = w :: rest → eventAt st (w.lands.getD 0) .routineLanding (.routineLanding is.gang))) ∧
  (∀ (s : State) (is : Issue) (g : BitVec 5) (src : BitVec 9) (r : MxRun) (acc1 : Bool), slotRuns s is g 610 →
     plainIn s is (gangTiles s is.gang) src →
     let ts := gangTiles s is.gang
     let gg := gangOf s is.gang
     let own := slotOwner s is 610
     let walks := ts.zipIdx.map fun (t, k) =>
       restWalk s is.gang t k own.task ((slabOf s t).mx.run.getD r) gg.fmt (s.now + 1) r.upc r.gi false (storeWordAt s t)
     (∀ t ∈ ts, (slabOf s t).mx.busy = false ∧ mxParked (slabOf s t).mx = true) → runOf s is.gang = some r →
     r.parked = some acc1 → mixedFmt gg.fmt = false → worstRow walks = none →
     ∃ st r', exec (.mxresume g src) s = .next st ∧ st.mem = s.mem ∧ st.vault = s.vault ∧
       (∀ t ∈ ts, let m := (slabOf st t).mx
         m.busy = true ∧ m.pgrp = 0 ∧ m.pslot = 0 ∧ m.popb = false ∧ m.pself = false ∧ (accOf m acc1).st = .running ∧
         (accOf m acc1).el = (accOf (slabOf s t).mx acc1).el ∧ (accOf m acc1).lsf = (accOf (slabOf s t).mx acc1).lsf) ∧
       runOf st is.gang = some r' ∧ r'.own = own ∧ r'.fmt = gg.fmt ∧ r'.gi = r.gi ∧ r'.a = r.a ∧ r'.b = r.b ∧
       r'.lc = r.lc ∧ r'.mp = r.mp ∧ r'.hm = r.hm ∧ r'.skip = false ∧
       microAt st is.gang own (s.now + 1) (goesOn s is.gang r r.upc r.gi) ∧
       (∀ w rest, walks = w :: rest → eventAt st (w.lands.getD 0) .routineLanding (.routineLanding is.gang)))

/-- 08_accumulator R215 to R217, R223: MXSTAT, MXZERO, MXSWAP and MXLOAD: what each starts and when it lands; the V-path
claims of a running routine follow a new word. -/
def Obligations.MatrixStatusZeroSwapLoad : Prop :=
  ∀ (s : State) (is : Issue) (g : BitVec 5) (src : BitVec 9), plainIn s is (gangTiles s is.gang) src →
    let ts := gangTiles s is.gang
    let w (t : TileName) : Word := srcIn s is t src
    let kind := intKind (gangOf s is.gang).fmt
    let own (d : Nat) : Owner := slotOwner s is d
    (slotRuns s is g 611 → exec (.mxstat g src) s = .next (forTiles (fired s is 611) ts fun st t =>
      postAct st (own 611) (s.now + 1) ordMxstat (.mxstat t (ts[(w t).toNat % 4]?)))) ∧
    (slotRuns s is g 612 → enginesIdle s is.gang →
      ∃ st, exec (.mxzero g src) s = .next st ∧ st.mem = s.mem ∧ st.vault = s.vault ∧
        eventAt st (s.now + 32) .routineLanding (.routineLanding is.gang) ∧
        ∀ t ∈ ts, (slabOf st t).mx.busy = true ∧
          ((w t).getLsbD 0 = true → (slabOf st t).mx.acc0.st = .running) ∧
          ((w t).getLsbD 1 = true → (slabOf st t).mx.acc1.st = .running) ∧
          ((w t).getLsbD 0 = false → (slabOf st t).mx.acc0 = (slabOf s t).mx.acc0) ∧
          ((w t).getLsbD 1 = false → (slabOf st t).mx.acc1 = (slabOf s t).mx.acc1) ∧
          actAt st (own 612) (s.now + 32) ordLand (.mxzero t ((w t).setWidth 2) kind)) ∧
    (slotRuns s is g 613 → enginesIdle s is.gang →
      exec (.mxswap g src) s = .next (forTiles (fired s is 613) ts fun st t =>
        postLand st (own 613) (s.now + 1) (.mxswap t))) ∧
    (slotRuns s is g 609 →
      let v (t : TileName) : Word := (slOpd s is t 614).val
      (∀ x ∈ ts.zipIdx, if (w x.1).getLsbD 16 = true then 16 ≤ (w x.1).toNat % 64
        else 512 ≤ (w x.1).toNat % 1024 ∧ microReserved (v x.1) = false ∧
          wordBreaks s is.gang x.1 x.2 ((w x.1).toNat % 1024) (v x.1) = false) →
      exec (.mxload g src) s = .next (ts.zipIdx.foldl (fun st x =>
        if (w x.1).getLsbD 16 then
          postLand st (own 609) (s.now + 2) (.mxload x.1 true ((w x.1).toNat % 64) (v x.1 &&& 0x3FF))
        else postLand (reclaim st is.gang x.1 x.2 ((w x.1).toNat % 1024) (v x.1)) (own 609) (s.now + 2)
          (.mxload x.1 false ((w x.1).toNat % 1024) (v x.1))) (fired s is 609)) ∧
      ∀ st t k i x, (slabOf st t).mx.busy = false → reclaim st is.gang t k i x = st)

/-- 08_accumulator R218 to R222, R227: every microword of a running routine: what it changes in each slab, what it starts,
and on which cycle the routine goes on; a failed check parks the bank, and an MSTEP with no group left costs nothing. The
descriptors a routine starts with are the model's choice (log 51). -/
def Obligations.MicrowordsRun : Prop :=
  ∀ (s : State) (g : TileName) (r : MxRun), microRuns s g r →
    let ts := gangTiles s g
    let bank (bk : Bool) : Bool := bankOf s g bk
    let begun : MxRun := { r with since := s.now }
    let free : MxRun := { begun with parked := none }
    let next (i : Instr) (cost : Nat) (r' : MxRun) (p : State → Prop) : Prop :=
      ∃ st, exec i s = .next st ∧ p st ∧ microDone s st g r' cost (r.upc + 1) r'.gi
    let running (b : Bool) (st : State) : Prop := ∀ t ∈ ts, (accOf (slabOf st t).mx b).st = .running
    next (.mnop g) 1 free (fun _ => True) ∧
    (∀ x pr, next (.mlda g x pr) 1 { free with a := pairDesc r.mp pr x, gi := 0 } (fun _ => True)) ∧
    (∀ x pr, next (.mldb g x pr) 1 { free with b := pairDesc r.mp pr x } (fun _ => True)) ∧
    (∀ x bk chk, stepIdle x r.gi (groupCount r.mp) = false → (chk && residencyBad s g r) = false →
      let acc1 := r.parked.getD (bank bk)
      let n := groupCycles r.fmt
      ∃ st, exec (.mstep g x bk chk) s = .next st ∧ st.mem = s.mem ∧ st.vault = s.vault ∧ running acc1 st ∧
        actAt st r.own (s.now + n - 1) ordEval (.mxgroup g acc1) ∧
        if x = true ∧ r.gi + 1 < groupCount r.mp then
          ∃ e ∈ st.agenda, e.at_ = s.now + n ∧ e.ord = ordMicro ∧ e.own = some r.own ∧ e.instr = .mstep g x bk chk
        else microDone s st g { free with since := if r.gupc = r.upc then r.since else s.now } n (r.upc + 1) (r.gi + 1)) ∧
    (∀ x bk, stepIdle x r.gi (groupCount r.mp) = false → residencyBad s g r = true →
      ∃ st, exec (.mstep g x bk true) s = .next st ∧ st.mem = s.mem ∧ st.agenda = s.agenda ∧
        ∀ t ∈ ts, (accOf (slabOf st t).mx (r.parked.getD (bank bk))).st = .parked ∧
          (slabOf st t).mx.pgrp = BitVec.ofNat 16 r.gi) ∧
    (∀ bk, residencyBad s g r = false →
      next (.mchk g bk) 1 free fun st => r.parked.isSome = true → ∀ t ∈ ts,
        (accOf (slabOf st t).mx (r.parked.getD (bank bk))).st = .idle) ∧
    (∀ bk, residencyBad s g r = true →
      ∃ st, exec (.mchk g bk) s = .next st ∧ st.mem = s.mem ∧ st.agenda = s.agenda ∧
        ∀ t ∈ ts, (accOf (slabOf st t).mx (r.parked.getD (bank bk))).st = .parked ∧
          (slabOf st t).mx.pgrp = BitVec.ofNat 16 r.gi) ∧
    (∀ x bk chk, stepIdle x r.gi (groupCount r.mp) = true →
      ∃ st, exec (.mstep g x bk chk) s = .next st ∧
        (∀ t ∈ ts, (slabOf st t).mx.acc0 = (slabOf s t).mx.acc0 ∧ (slabOf st t).mx.acc1 = (slabOf s t).mx.acc1) ∧
        microDone s st g { free with since := if r.gupc = r.upc then r.since else s.now } 0 (r.upc + 1) r.gi) ∧
    (∀ n : BitVec 12, let lc := if n = 0 then (tabGetD 0 r.mp 7).toNat % 4096 else n.toNat
      if lc = 0 then ∃ st, exec (.mloop g n) s = .next st ∧
        microDone s st g begun 1 (afterMend (storeWord (slabOf s g).mx) 1024 (r.upc + 1)) r.gi
      else next (.mloop g n) 1 { free with lc := lc, loopStart := r.upc + 1 } (fun _ => True)) ∧
    (if 1 < r.lc then ∃ st, exec (.mend g) s = .next st ∧ microDone s st g { begun with lc := r.lc - 1 } 1 r.loopStart r.gi
      else next (.mend g) 1 { free with lc := 0, loopStart := 0 } (fun _ => True)) ∧
    (∀ bk, next (.mhad g bk) 128 free fun st => running (bank bk) st ∧
      actAt st r.own (s.now + 127) ordEval (.mxhad g (bank bk))) ∧
    (∀ x bk fmt, next (.mdrain g x bk fmt) 1
      { free with bg := some ⟨bank bk, s.now, r.upc, BitVec.ofNat 4 (drainFmt r.fmt x fmt), false⟩ } fun st =>
        (∀ t ∈ ts, (accOf (slabOf st t).mx (bank bk)).st = .draining) ∧
        ∀ t ∈ ts, ∀ i < 128, actAt st r.own (s.now + 1 + i) (ordWrite + 7) (.mxdrainRow t i)) ∧
    (∀ bk, next (.mflag g bk) 1 { free with bg := some ⟨bank bk, s.now, r.upc, 0, true⟩ } fun st =>
        ∀ t ∈ ts, ∀ i < 128, actAt st r.own (s.now + 1 + i) (ordWrite + 7) (.mxdrainRow t i)) ∧
    (∀ bk, next (.mzero g bk) 32 free fun st => running (bank bk) st ∧
      ∀ t ∈ ts, actAt st r.own (s.now + 31) ordEval (.mxzeroEnd t (bank bk) (intKind r.fmt))) ∧
    next (.mswap g) 1 free (fun st => ∀ t ∈ ts, (slabOf st t).mx.front = !(slabOf s t).mx.front) ∧
    (∀ n : BitVec 12, next (.msig g n) 1 free fun st => ∀ t ∈ ts, (slabOf st t).mx.sig = n.setWidth 8) ∧
    next (.msnap g) 32 free (fun st => running (!bank false) st ∧
      ∀ t ∈ ts, (accOf (slabOf st t).mx (bank false)).st = .draining ∧
        actAt st r.own (s.now + 31) ordEval (.mxsnap t (bank false))) ∧
    next (.mwait0 g) (match r.bg with | some b => max 1 (b.at_ + 128 + 1 - s.now) | none => 1) free (fun _ => True) ∧
    (∃ st, exec (.mhalt g) s = .next st ∧ st.mem = s.mem ∧ st.vault = s.vault ∧ st.agenda = s.agenda ∧
      ∀ t ∈ ts, (slabOf st t).mx.acc0 = (slabOf s t).mx.acc0 ∧ (slabOf st t).mx.acc1 = (slabOf s t).mx.acc1 ∧
        (slabOf st t).mx.run = (slabOf s t).mx.run.map fun x => { x with gupc := x.upc, since := s.now, skip := true, parked := none })

/-- The rows of the timeline of a fill or flush of slot n of slab t, 09_window R233, R235, R239, R245, R248: a fill reads two
lines of its page a cycle from the vault, corrected, and writes one line a cycle into the slot, whose DIRTY bit clears; a
flush takes one line a cycle with its DIRTY bit, which clears, and writes those that were dirty to the vault, each logged
first; one that has failed writes nothing, and one with no room in the undo log fails. -/
def rowsOfStaging (s : State) : Prop :=
  ∀ (own : Owner) (t n : Nat) (x : StageOp), s.memWf → 16 ≤ n → n < 1024 → tabGet (slabOf s t).stage n = some x →
    let landing (a : Action) (p : State → Prop) : Prop := ∃ st, exec (.operationLanding own a) s = .next st ∧ p st
    let slot (st : State) : WSlot := slotOf (slabOf st t) n
    let row (l : Nat) : Nat := t * 2 ^ 22 + 4096 * n + 64 * l
    let key (l : Nat) : Nat := vaultKey x.home x.frame (64 * l)
    let good (l : Nat) : Prop := ∀ i < 8, (wrongCells (slabOf s t) x.frame l i).length ≤ 1
    let bit (l : Nat) : Word := BitVec.twoPow 64 l
    landing (.resClear t n) (fun st => steady s st ∧ slot st = { slot s with res := false }) ∧
    landing (.dirtySlot t n) (fun st => steady s st ∧ slot st = { slot s with dirty := 0 }) ∧
    (∀ p < 32, x.here = true → good (2 * p) → good (2 * p + 1) → landing (.fillRead t n p) fun st => steady s st ∧
      ∃ y, tabGet (slabOf st t).stage n = some y ∧ y.failed = x.failed ∧ ∀ l < 64, tabGetD 0 y.lines l =
        if l / 2 = p then BitVec.ofNat 512 (memReadN s.vault (key l) 64) else tabGetD 0 x.lines l) ∧
    (∀ p, x.here = false → exec (.operationLanding own (.fillRead t n p)) s = .next s) ∧
    (∀ l < 64, x.failed = false → landing (.fillRow t n l) fun st => st.vault = s.vault ∧ st.agenda = s.agenda ∧
      slot st = { slot s with dirty := (slot s).dirty &&& ~~~(bit l) } ∧ memReadN st.mem (row l) 64 = (tabGetD 0 x.lines l).toNat ∧
      ∀ a, (a < row l ∨ row l + 64 ≤ a) → memRead st.mem a = memRead s.mem a) ∧
    (∀ l, x.failed = true → exec (.operationLanding own (.fillRow t n l)) s = .next s) ∧
    (∀ l < 64, landing (.flushRow t n l) fun st => steady s st ∧ st.agenda = s.agenda ∧
      slot st = { slot s with dirty := (slot s).dirty &&& ~~~(bit l) } ∧ tabGet (slabOf st t).stage n = some { x with
        lines := tabPut x.lines l (BitVec.ofNat 512 (memReadN s.mem (row l) 64))
        dirty := if (slot s).dirty.getLsbD l then x.dirty ||| bit l else x.dirty }) ∧
    (∀ p < 32, (x.failed = true ∨ x.dirty.getLsbD (2 * p) = false ∧ x.dirty.getLsbD (2 * p + 1) = false) →
      exec (.operationLanding own (.flushWrite t n p)) s = .next s) ∧
    (∀ p < 32, x.failed = false → (∀ l, l / 2 = p → x.dirty.getLsbD l = true → ∃ e ∈ (ctxOf s own.ctx).undo, e.1 = key l) →
      landing (.flushWrite t n p) fun st => st.mem = s.mem ∧ st.agenda = s.agenda ∧
        (∀ l, l / 2 = p → x.dirty.getLsbD l = true → memReadN st.vault (key l) 64 = (tabGetD 0 x.lines l).toNat) ∧
        ∀ a, (∀ l, l / 2 = p → x.dirty.getLsbD l = true → a < key l ∨ key l + 64 ≤ a) → memRead st.vault a = memRead s.vault a) ∧
    (∀ l < 64, x.failed = false → x.dirty.getLsbD l = true → x.dirty.getLsbD (if l % 2 = 0 then l + 1 else l - 1) = false →
      (∀ e ∈ (ctxOf s own.ctx).undo, e.1 ≠ key l) → good l →
      (undoFull s own.ctx x.home x.frame l = false → landing (.flushWrite t n (l / 2)) fun st => st.mem = s.mem ∧
        memReadN st.vault (key l) 64 = (tabGetD 0 x.lines l).toNat ∧
        (key l, BitVec.ofNat 512 (memReadN s.vault (key l) 64)) ∈ (ctxOf st own.ctx).undo) ∧
      (undoFull s own.ctx x.home x.frame l = true → t ∈ gangTiles s x.own.gang →
        landing (.flushWrite t n (l / 2)) fun st => steady s st ∧
        st.faultSeq = s.faultSeq + 1 ∧ ∃ y, tabGet (slabOf st t).stage n = some y ∧ y.failed = true))

/-- 09_window R233 to R235, R238 to R240, R245, R248: WFILL and WFLUSH of slots that pass every check in every slab start the timeline
of R233 there, whose rows move the page; WINV of a slot from 16 on clears it at c+2. The turn of WINV's clear is the model's
reading (log 59). -/
def Obligations.WindowSlotOperations : Prop :=
  ∀ (s : State) (is : Issue) (g : BitVec 5) (src : BitVec 9) (p : TileName → Pin), plainIn s is (gangTiles s is.gang) src →
    let ts := gangTiles s is.gang
    let n (t : TileName) : Nat := (srcIn s is t src).toNat % 1024
    let own (d : Nat) : Owner := slotOwner s is d
    (slotRuns s is g 642 → (∀ t ∈ ts, mayStage s t (n t) true (p t)) →
      ∃ st, exec (.wfill g src) s = .next st ∧ quietIn s st is 642 ∧ ∀ t ∈ ts, staging st t (n t) true s.now (p t) ∧
        actAt st (own 642) (s.now + 1) ordLand (.resClear t (n t)) ∧
        (∀ i < 32, actAt st (own 642) (s.now + 64 + i) ordRead (.fillRead t (n t) i)) ∧
        (∀ l < 64, actAt st (own 642) (s.now + 192 + l) (ordWrite + 9) (.fillRow t (n t) l)) ∧
        eventAt st (s.now + 256) .wfillLanding (.wfillLanding t (n t))) ∧
    (slotRuns s is g 643 → (∀ t ∈ ts, mayStage s t (n t) false (p t)) →
      ∃ st, exec (.wflush g src) s = .next st ∧ quietIn s st is 643 ∧ ∀ t ∈ ts, staging st t (n t) false s.now (p t) ∧
        (∀ l < 64, actAt st (own 643) (s.now + 1 + l) ordRead (.flushRow t (n t) l)) ∧
        (∀ i < 32, actAt st (own 643) (s.now + 192 + i) ordWrite (.flushWrite t (n t) i)) ∧
        eventAt st (s.now + 256) .wflushLanding (.wflushLanding t (n t))) ∧
    (slotRuns s is g 644 → (∀ t ∈ ts, 16 ≤ n t) →
      exec (.winv g src) s = .next (forTiles (fired s is 644) ts fun st t =>
        postAct (postLand st (own 644) (s.now + 2) (.winv t (n t))) (own 644) (s.now + 2) (ordWrite + 9)
          (.dirtySlot t (n t)))) ∧
    rowsOfStaging s

/-- 09_window R241 to R243, 17_page R397: WATOM of an aligned address in a mapped page starts at the page's home, WSTAT
and WRES deliver what they select, PGREQ issues a numbered request or answers that none is free. The cycle that WSTAT
reports from and the places of the name check (log 147) and of the queue check are the model's reading (log 55, log 56). -/
def Obligations.VaultAtomicsAndQueries : Prop :=
  ∀ (s : State) (is : Issue) (g : BitVec 5) (src : BitVec 9),
    let t := is.gang
    let ts := gangTiles s t
    let gg := gangOf s t
    let w (t : TileName) : Word := srcIn s is t src
    (∀ p : Pin, slotRuns s is g 645 → plainIn s is ts src →
      let v := w t
      let scope := (v.extractLsb' 60 3).toNat
      let ford : BitVec 3 := v.extractLsb' 56 3
      let ordc : BitVec 3 := v.extractLsb' 52 3
      let op := watomOp (v.extractLsb' 48 3).toNat
      let gva := (v.extractLsb' 0 48).toNat
      let wafer := isWafer s t gg.dmem p.home
      let x : WAtomOp := ⟨slotOwner s is 645, t, ts, op, dOpa s is t, dOpb s is t, ordc, ford, gva, p.home, p.frame, s.now⟩
      scope < 6 → ordc.toNat < 5 → (op = .cas → ford = 0 ∨ ford = 1 ∨ ford = 4) → gva % 8 = 0 →
      mappedPin s t (gva / 4096) = some p → (4 ≤ scope → gg.tctl.scopestrict = false) →
      (p.home ≠ t → (nameEntry (slabOf s t) p.home).isSome = true) →
      (p.home ≠ t → queueFull s t wafer = false) → (tabGet s.gangs t).isSome = true →
      ∃ st, exec (.watom g src) s = .next st ∧ st.mem = s.mem ∧ st.vault = s.vault ∧
        (gangOf st t).tst.scopenarrow = (gg.tst.scopenarrow || decide (4 ≤ scope)) ∧
        if p.home = t then eventAt st (s.now + 128) .watomApply (.watomApply x)
        else itemQueued st t wafer ⟨slotOwner s is 645, .watom x, p.home, s.now + 128, 8 * s.now⟩) ∧
    (slotRuns s is g 646 → plainIn s is ts src →
      exec (.wstat g src) s = .next (forTiles (fired s is 646) ts fun st t => postLand st (slotOwner s is 646) (s.now + 1)
        (.slRes t 153 ⟨match ts[((w t).extractLsb' 14 2).toNat]? with
          | some u => wstatValue s gg.ctx u (w t) | none => 0, false⟩))) ∧
    (slotRuns s is g 647 → plainIn s is ts src →
      exec (.wres g src) s = .next (forTiles (fired s is 647) ts fun st t => postLand st (slotOwner s is 647) (s.now + 1)
        (.slRes t 153 ⟨match ts[((w t).extractLsb' 14 2).toNat]? with
          | some u => resBits (slabOf s u) (64 * ((w t).toNat % 16)) | none => 0, false⟩))) ∧
    (slotRuns s is g 648 → plainIn s is ts src → ∀ u, ts[((w t).extractLsb' 48 2).toNat]? = some u →
      ((∀ i < 16, (tabGet (slabOf s u).requests i).isSome = true) →
        ∃ st, exec (.pgreq g src) s = .next st ∧ quietIn s st is 648 ∧ st.slabs = s.slabs ∧
          everySlabAt s st is 648 (s.now + 1) 153 (BitVec.twoPow 64 63)) ∧
      (∀ i, lowestFree (slabOf s u).requests 16 i → queueFull s t true = false →
        let num := (slabOf s u).reqCount % 4096 * 16 + i
        let vpn := ((w t).extractLsb' 12 36).toNat
        ∃ st, exec (.pgreq g src) s = .next st ∧ quietIn s st is 648 ∧
          tabGet (slabOf st u).requests i = some ⟨gg.ctx, num, vpn, .issued⟩ ∧
          everySlabAt s st is 648 (s.now + 1) 153 (BitVec.ofNat 64 num) ∧
          itemQueued st t true ⟨slotOwner s is 648, .pageReq gg.ctx (ctxOf s gg.ctx).gen num vpn, u, s.now + 1, 8 * s.now⟩))

/-- What lands of K and of the routing ports, 10_route R254, R260, R261, R263: a copy beat takes its row of 64 bytes and is
delivered B later, a row of a switch program is eight entries, of the last those below P, and NAMEQ answers with B, the
seams, the hops and the lowest entry of a name, or 0. -/
def routesLand (s : State) : Prop :=
  ∀ (own : Owner) (t : Nat),
    let landing (a : Action) (p : State → Prop) : Prop := ∃ st, exec (.operationLanding own a) s = .next st ∧ p st
    let b (u : TileName) : Nat := 16 + 40 * hops t u + 8 * seams t u
    (∀ k row c, tabGet (slabOf s t).copies k = some c → landing (.copyRead t k row) fun st => steady s st ∧ st.slabs = s.slabs ∧
      eventAt st (s.now + b c.dstTile) .copyBeatDelivery (.copyBeatDelivery ⟨own, t, c.dstTile, k, c.dst + 64 * row,
        BitVec.ofNat 512 (memReadN s.mem (t * 2 ^ 22 + (c.src + 64 * row)) 64), c.srcBar, c.dstBar, c.post, decide (row + 1 = c.nb)⟩)) ∧
    (∀ q p, (slabOf s t).pend = some p → p.addr + 8 * p.p ≤ 2 ^ 22 → landing (.routeRow t q) fun st => steady s st ∧
      st.agenda = s.agenda ∧ ∃ es, (slabOf st t).pend = some { p with entries := es } ∧
        (∀ j, j / 8 = q → j < p.p → tabGet es j = some (BitVec.ofNat 64 (memReadN s.mem (t * 2 ^ 22 + (p.addr + 8 * j)) 8))) ∧
        ∀ j, (j / 8 ≠ q ∨ p.p ≤ j) → tabGet es j = tabGet p.entries j) ∧
    (∀ n : BitVec 16, ownerLive s own = true →
      let answers (v : Word) : Prop := exec (.operationLanding own (.nameQuery t n)) s =
        .next (modSlab s t fun sl => { sl with ports := tabPut sl.ports 160 ⟨v, false⟩ })
      (∀ k < 64, tabGet (slabOf s t).names k = some n → (∀ j < k, tabGet (slabOf s t).names j ≠ some n) →
        answers (BitVec.ofNat 64 (2 ^ 63 + b n.toNat * 2 ^ 32 + seams t n.toNat * 2 ^ 24 + hops t n.toNat * 2 ^ 16 + k))) ∧
      ((∀ k < 64, tabGet (slabOf s t).names k ≠ some n) → answers 0))

/-- 10_route R254, R257, R261, R263, R264: copies, beats, switch programs and names: what each operation of K and of the
routing ports starts, for operands that pass its checks, and what lands of it. The turn of the rows of a switch program is
the model's reading (log 38), and that KSTAT answers in slab 0 alone (log 24). -/
def Obligations.RouteOperations : Prop :=
  ∀ (s : State) (is : Issue) (g : BitVec 5) (src : BitVec 9),
    let t := is.gang
    let ts := gangTiles s t
    let w (t : TileName) : Word := srcIn s is t src
    (slotRuns s is g 674 → plainIn s is ts src →
      let a := (slOpd s is t 672).val.toNat % 2 ^ 22
      let b := (slOpd s is t 673).val
      let dst := ((w t).extractLsb' 22 16).toNat
      let da := (w t).toNat % 2 ^ 22
      let nb := (b.extractLsb' 0 11).toNat
      a % 64 = 0 → da % 64 = 0 → a + 64 * nb ≤ 2 ^ 22 → da + 64 * nb ≤ 2 ^ 22 → 0x5000 ≤ da → 0 < nb → nb ≤ 1024 →
      (nameEntry (slabOf s t) dst).isSome = true →
      ((∀ k < 128, (tabGet (slabOf s t).copies k).isSome = true) →
        ∃ st, exec (.kcopy g src) s = .next st ∧ quietIn s st is 674 ∧ st.slabs = s.slabs ∧
          everySlabAt s st is 674 (s.now + 1) 155 (BitVec.twoPow 64 63)) ∧
      (∀ k, lowestFree (slabOf s t).copies 128 k →
        ∃ st c, exec (.kcopy g src) s = .next st ∧ quietIn s st is 674 ∧
          everySlabAt s st is 674 (s.now + 1) 155 (BitVec.ofNat 64 k) ∧
          tabGet (slabOf st t).copies k = some c ∧ c.src = a ∧ c.dstTile = dst ∧ c.dst = da ∧ c.nb = nb ∧ c.next = 0 ∧
          c.delivered = 0 ∧ c.start = s.now ∧ c.wafer = isWafer s t (gangOf s t).dmem dst ∧
          c.srcBar = (if b.getLsbD 25 then some (b.extractLsb' 16 9).toNat else none) ∧
          c.dstBar = (if b.getLsbD 35 then some (b.extractLsb' 26 9).toNat else none) ∧ c.post = b.getLsbD 36 ∧
          ∃ e ∈ st.agenda, e.instr = .asyncItemSend ∧ e.arg = .asyncItemSend t c.wafer)) ∧
    (slotRuns s is g 675 → plainIn s is ts src →
      let cs := (slabOf s t).copies
      exec (.kstat g src) s = .next (postLand (fired s is 675) (slotOwner s is 675) (s.now + 1) (.slRes t 155
        ⟨if (w t).getLsbD 7 then BitVec.ofNat 64 cs.length
         else match tabGet cs ((w t).toNat % 128) with
           | some c => BitVec.ofNat 64 (2 ^ 63 + (c.nb - c.delivered) * 2 ^ 32)
           | none => 0, false⟩))) ∧
    (∀ d : BitVec 2, slotRuns s is g (680 + d.toNat) → vecPlain s is src →
      (∀ u ∈ ts, entryOsrc (entryNow s u) d.toNat = 5) →
      ∃ st, exec (.send g d src) s = .next st ∧ quietIn s st is (680 + d.toNat) ∧ st.slabs = s.slabs ∧
        ∀ u ∈ ts, ∀ m, neighbour u d.toNat = some m →
          eventAt st (s.now + linkCost u m) .routerStaticBeat (.routerStaticBeat m (dirOf ((d.toNat + 2) % 4))
            (quarter (readVec s is u src) (entryQs (entryNow s u) d.toNat)))) ∧
    (slotRuns s is g 685 → plainIn s is ts src →
      ∃ st, exec (.routeset g src) s = .next st ∧ quietIn s st is 685 ∧
        eventAt st (s.now + 64) .routesetCheck (.routesetCheck t) ∧ ∀ u ∈ ts,
        (slabOf st u).prog = (slabOf s u).prog ∧
        (slabOf st u).pend = some ⟨slotOwner s is 685, (slOpd s is u 684).val.toNat % 512, (w u).toNat % 2 ^ 22, [], none⟩ ∧
        (∀ q, 8 * q < (slOpd s is u 684).val.toNat % 512 →
          actAt st (slotOwner s is 685) (s.now + 1 + q) (ordWrite + 2) (.routeRow u q))) ∧
    (slotRuns s is g 686 → plainIn s is ts src →
      exec (.nameload g src) s = .next (forTiles (fired s is 686) ts fun st u =>
        postLand st (slotOwner s is 686) (s.now + 4) (.nameLoad u ((w u).extractLsb' 16 6).toNat ((w u).setWidth 16)))) ∧
    (slotRuns s is g 687 → plainIn s is ts src →
      exec (.nameq g src) s = .next (forTiles (fired s is 687) ts fun st u =>
        postAct st (slotOwner s is 687) (s.now + 4) (ordLand + 1) (.nameQuery u ((w u).setWidth 16)))) ∧
    routesLand s

/-- What lands in barrier record n of tile t, 12_barrier R280, R281, R286, R288: BARINIT's record, the counts that BARXIN and
BARXOUT add, HELD, BARTEST's answer, the countdown of a copy beat, which ends its copy with the last, and the completion of
a home record, with its release items; a record that has changed is checked at the end of its cycle. -/
def recordsLand (s : State) : Prop :=
  ∀ (own : Owner) (t n : Nat), s.memWf → n < 512 →
    let r := getBar s t n
    let landing (a : Action) (p : State → Prop) : Prop := ∃ st, exec (.operationLanding own a) s = .next st ∧ p st
    let becomes (st : State) (x : BarRec) : Prop := getBar st t n = x ∧ st.vault = s.vault ∧
      ∀ a, (a < t * 2 ^ 22 + 0x3000 + 16 * n ∨ t * 2 ^ 22 + 0x3000 + 16 * n + 16 ≤ a) → memRead st.mem a = memRead s.mem a
    let checked (st : State) (o : Owner) (u m : Nat) : Prop := actAt st o s.now ordDone (.barCheck u m)
    let complete : Prop := r.state ≠ 0 ∧ r.home.toNat = t ∧ r.arr = r.exp ∧ r.inb = 0 ∧ r.outb = 0
    (∀ x, landing (.barWrite t n x) fun st => becomes st x ∧ checked st own t n) ∧
    (∀ k, landing (.barAdd t n false k) fun st => becomes st { r with inb := r.inb + k } ∧ checked st own t n) ∧
    (∀ k, landing (.barAdd t n true k) fun st => becomes st { r with outb := r.outb + k } ∧ checked st own t n) ∧
    landing (.barHeld t n) (fun st => becomes st { r with state := 3 } ∧ st.agenda = s.agenda) ∧
    (ownerLive s own = true → landing (.barTest t n) fun st => steady s st ∧
      slPort (slabOf st t) own.hand 161 = ⟨if r.state = 1 then 1 else 0, false⟩) ∧
    (complete → landing (.barCheck t n) fun st =>
      becomes st { r with gen := r.gen + 1, arr := 0, state := if r.state = 2 then 1 else r.state } ∧
      (slabOf st t).relList = (slabOf s t).relList.filter (·.1 != n) ∧ ∃ wafer : TileName → Bool,
        (slabOf st t).releases = (slabOf s t).releases ++
          ((slabOf s t).relList.filter (·.1 = n)).map fun e => (e.2, n, r.gen + 1, wafer e.2)) ∧
    (¬ complete → exec (.operationLanding own (.barCheck t n)) s = .next s) ∧
    (∀ b : CopyBeat, b.dst = t → b.dstBar = some n → b.srcBar = none →
      (r.state = 0 → landing (.barBeat b) fun st => steady s st ∧ st.faultSeq = s.faultSeq + 1) ∧
      (r.state ≠ 0 → landing (.barBeat b) fun st => becomes st { r with inb := r.inb - 1 } ∧ checked st b.own t n)) ∧
    (∀ b : CopyBeat, b.src = t → b.srcBar = some n → b.dstBar = none → r.state ≠ 0 → landing (.barBeat b) fun st =>
      becomes st { r with outb := r.outb - 1 } ∧ checked st b.own t n) ∧
    (∀ (b : CopyBeat) c, tabGet (slabOf s b.src).copies b.num = some c → landing (.barBeat b) fun st =>
      tabGet (slabOf st b.src).copies b.num =
        (if c.delivered + 1 < c.nb then some { c with delivered := c.delivered + 1 } else none) ∧
      (∀ g, c.nb ≤ c.delivered + 1 → c.post = true → (slabOf s b.src).gang = some g → takesEvents s g →
        ∃ w, eventPending s st g b.src w ∧ w.extractLsb' 0 8 = 0x40 ∧ w.extractLsb' 8 16 = BitVec.ofNat 16 b.num))

/-- 12_barrier R280 to R283, R285, R286, R288, 11_group R269: the operations of B on slab 0's record: what each starts where none of
its faults applies, what lands in it and its completion (R280, R286), and the faults of a FREE record. That HELD is set at
the start of c+1 is the model's reading (log 42), and so is which record a copy beat counts down at (log 40). -/
def Obligations.BarrierOperations : Prop :=
  ∀ (s : State) (is : Issue) (g : BitVec 5) (src : BitVec 9), plainIn s is (gangTiles s is.gang) src →
    let t := is.gang
    let w := srcIn s is t src
    let n := w.toNat % 512
    let o := bOpa s is
    let r := getBar s t n
    let own (d : Nat) : Owner := slotOwner s is d
    let home := (o.extractLsb' 16 16).toNat
    (slotRuns s is g 705 → r.state ≠ 2 → r.state ≠ 3 → r.arr = 0 → r.inb = 0 → r.outb = 0 →
      (∀ e ∈ (slabOf s t).relList, e.1 ≠ n) →
      (w.getLsbD 9 = true → exec (.barinit g src) s = .next (postAct (fired s is 705) (own 705) (s.now + 2) ordBar
        (.barWrite t n ⟨false, 0, 0, 0, 0, 0, 0, 0⟩))) ∧
      (w.getLsbD 9 = false → namesTile home = true → (home ≠ t ∨ o.extractLsb' 0 16 ≠ 0) →
        exec (.barinit g src) s = .next (postAct (fired s is 705) (own 705) (s.now + 2) ordBar
          (.barWrite t n ⟨o.getLsbD 32, o.extractLsb' 16 16, 1, 0, 0, 0, o.extractLsb' 0 16, 0⟩)))) ∧
    (slotRuns s is g 706 →
      let wafer := isWafer s t (gangOf s t).dmem r.home.toNat
      r.state = 1 → (r.home.toNat ≠ t → (nameEntry (slabOf s t) r.home.toNat).isSome = true) → queueFull s t wafer = false →
      ∃ st, exec (.bararr g src) s = .next st ∧ quietIn s st is 706 ∧
        actAt st (own 706) (s.now + 1) ordLand (.barHeld t n) ∧
        itemQueued st t wafer ⟨own 706, .arrival n r.gen r.send, r.home.toNat, s.now + 1, 8 * s.now + 2⟩) ∧
    (slotRuns s is g 707 → r.state ≠ 0 →
      exec (.barwait g src) s = .next (withBlock s is 707 fun b => { b with waits := b.waits ++ [.barwait n] })) ∧
    (slotRuns s is g 708 →
      exec (.bartest g src) s = .next (postAct (fired s is 708) (own 708) (s.now + 4) (ordLand + 1) (.barTest t n))) ∧
    (∀ out : Bool, let d := if out then 710 else 709
      slotRuns s is g d → r.state ≠ 0 →
      exec (if out then .barxout g src else .barxin g src) s =
        .next (postAct (fired s is d) (own d) (s.now + 2) ordBar (.barAdd t n out (o.extractLsb' 0 32)))) ∧
    (r.state = 0 → ∀ x ∈ [((706 : Nat), Instr.bararr g src), (707, .barwait g src), (709, .barxin g src), (710, .barxout g src)],
      slotRuns s is g x.1 → exec x.2 s = .next (raiseAux (fired s is x.1) (own x.1) 13 1 (BitVec.ofNat 64 n) 0)) ∧
    recordsLand s

/-- 15_queue R355, R357, R358, R360, 18_link R423, R424: tokens, soft events, host rings and collectives: what each operation of
Q starts for operands that pass its checks, and the token that TOKGET takes. The numbering of instances and the cycle on
which a descriptor is read are the model's reading (log 70, log 72). -/
def Obligations.QueueOperations : Prop :=
  ∀ (s : State) (is : Issue) (g : BitVec 5) (src : BitVec 9), plainIn s is (gangTiles s is.gang) src →
    let t := is.gang
    let gg := gangOf s t
    let w := srcIn s is t src
    let a := (slOpd s is t 720).val
    let b := (slOpd s is t 721).val
    let own (d : Nat) : Owner := slotOwner s is d
    (∀ d o, slotRuns s is g 722 → reaches s t true w.toNat d o →
      let wafer := isWafer s t gg.dmem d
      queueFull s t wafer = false →
      ∃ st, exec (.tokput g src) s = .next st ∧ quietIn s st is 722 ∧
        itemQueued st t wafer ⟨own 722,
          if b.getLsbD 1 then .softEvent (a.extractLsb' 0 40) else .token o (commonScope s t d) (b.getLsbD 0) w,
          d, s.now + 1, 8 * s.now + 3⟩) ∧
    (∀ o, slotRuns s is g 723 → reaches s t false w.toNat t o → holdsBank s gg.task t (o / 2 ^ 17) = true →
      exec (.tokget g src) s = .next (postAct (fired s is 723) (own 723) (s.now + 2) (ordWrite + 2) (.tokGet t o))) ∧
    (slotRuns s is g 724 → queueFull s t true = false → (tabGet (ctxOf s gg.ctx).rings (a.toNat % 64)).isSome = true →
      ∃ st, exec (.ringput g src) s = .next st ∧ quietIn s st is 724 ∧
        itemQueued st t true ⟨own 724, .ring gg.ctx (a.toNat % 64) w, t, s.now + 1, 8 * s.now + 3⟩) ∧
    (∀ rs i, slotRuns s is g 725 →
      let m := a.toNat % 64
      let desc := BitVec.ofNat 512 (padRead s t w.toNat 64)
      let n : BitVec 32 := tabGetD 0 (ctxOf s gg.ctx).collCount (collKey m i) + 1
      w.toNat % 64 = 0 → w.toNat + 64 ≤ 2 ^ 22 → tabGet (ctxOf s gg.ctx).comms m = some rs → collRank rs t = some i →
      s.phase = .service → collDescBad desc (some rs.length) = false → collBufBad s gg.task t desc rs.length = none → gg.coll = none →
      queueFull s t true = false → (tabGet s.gangs t).isSome = true →
      ∃ st, exec (.coll g src) s = .next st ∧ st.mem = s.mem ∧ st.vault = s.vault ∧
        (gangOf st t).coll = some ⟨m, i, n, desc⟩ ∧ (gangOf st t).collDone = none ∧
        tabGet (ctxOf st gg.ctx).collCount (collKey m i) = some n ∧
        actAt st (own 725) (s.now + 2) ordRead (.collRead t w.toNat m n) ∧
        itemQueued st t true ⟨own 725, .coll gg.ctx m i n, t, s.now + 1, 8 * s.now + 3⟩) ∧
    (slotRuns s is g 726 →
      exec (.collwait g src) s = .next (withBlock s is 726 fun b => { b with waits := b.waits ++ [.collwait] })) ∧
    (∀ (own : Owner) (u o : Nat), s.memWf →
      let word (st : State) : Word := BitVec.ofNat 64 (memReadN st.mem (u * 2 ^ 22 + o) 8)
      let everySlab (r : Word) (st : State) : State := (gangTiles s own.gang).foldl (fun st v =>
        postLand st own (s.now + 2) (.slRes v 162 ⟨r, false⟩)) st
      ((word s).extractLsb' 0 32 = 0 → exec (.operationLanding own (.tokGet u o)) s = .next (everySlab 0 s)) ∧
      ((word s).extractLsb' 0 32 ≠ 0 → ∃ st, exec (.operationLanding own (.tokGet u o)) s = .next st ∧ st.vault = s.vault ∧
        tokenTaken (word s) (word st) ∧
        (∀ b, (b < u * 2 ^ 22 + o ∨ u * 2 ^ 22 + o + 8 ≤ b) → memRead st.mem b = memRead s.mem b) ∧
        st.agenda = (postLand (everySlab 1 s) own (s.now + 2) (.acquire 2 (BitVec.ofNat 64 (spaceBase 0 + o)))).agenda))

/-- 02_bundle R33, 14_kernel R337, 05_sequencer R108, R109, R131, R132, R134, 06_region R158, R159, R163, R164, R165,
08_accumulator R215 to R217: what lands: a result reaches its port in the bank of its trigger, a control register takes its
value, an engine's flag or bank its state; TAGLOOK finds the lowest valid entry of its page, TAGSET writes an entry, RGNQRY
reads a doubleword of a region's entry or the bank ownership word, RGNUNMAP unmaps the region and clears its tags and slots;
the result of a task that has left its gang is dropped. That a task counts as on the tile from its placement to its end is
the model's reading (log 45). -/
def Obligations.LandingsReachTheirPlace : Prop :=
  ∀ (s : State) (own : Owner),
    let lands (a : Action) (t : State) : Prop := exec (.operationLanding own a) s = .next t
    (ownerLive s own = true →
      (∀ k v, lands (.feRes k v) (modGang s own.gang fun g =>
        if own.hand then { g with hand := tabPut g.hand k v } else { g with main := tabPut g.main k v })) ∧
      (∀ t k v, lands (.slRes t k v) (modSlab s t fun sl =>
        if own.hand = true ∧ bankedPort k = true then { sl with hports := tabPut sl.hports k v }
        else { sl with ports := tabPut sl.ports k v })) ∧
      (∀ (a : MemAccess) v, lands (.reply a v) (a.dests.foldl (fun st t => modSlab st t fun sl =>
        if own.hand = true ∧ bankedPort a.port = true then { sl with hports := tabPut sl.hports a.port v }
        else { sl with ports := tabPut sl.ports a.port v }) s)) ∧
      (∀ t k v, lands (.vRes t k v) (modSlab s t fun sl => { sl with vports := tabPut sl.vports k v })) ∧
      (∀ v, lands (.tctl v) (modGang s own.gang fun g => { g with tctl := tctlPut g.tctl v })) ∧
      (∀ v, lands (.tstclr v) (modGang s own.gang fun g => { g with tst := tstClear g.tst v })) ∧
      (∀ v, lands (.evm v) (modGang s own.gang fun g => { g with tctl := { g.tctl with evm := v } })) ∧
      (∀ f, lands (.fmt f) (modGang s own.gang fun g => { g with fmt := f })) ∧
      (∀ bs, lands (.bnd bs) (modGang s own.gang fun g => { g with bd := tabPuts g.bd bs }))) ∧
    (ownerLive s own = false →
      (∀ k v, lands (.feRes k v) s) ∧ (∀ t k v, lands (.slRes t k v) s) ∧ (∀ t k v, lands (.vRes t k v) s) ∧
      (∀ a v, lands (.reply a v) s) ∧
      (∀ v, lands (.tctl v) s) ∧ (∀ f, lands (.fmt f) s)) ∧
    (∀ t, lands (.xclr t) (modSlab s t fun sl => { sl with xtiles := [] })) ∧
    (∀ t, lands (.mxswap t) (modSlab s t fun sl => { sl with mx := { sl.mx with front := !sl.mx.front } })) ∧
    (∀ t b kind, ∃ st, lands (.mxzero t b kind) st ∧ st.mem = s.mem ∧ st.gangs = s.gangs ∧ st.agenda = s.agenda ∧
      (slabOf st t).mx.acc0 = (if b.getLsbD 0 then ⟨[], [], kind, .idle⟩ else (slabOf s t).mx.acc0) ∧
      (slabOf st t).mx.acc1 = (if b.getLsbD 1 then ⟨[], [], kind, .idle⟩ else (slabOf s t).mx.acc1)) ∧
    (∀ t b kind, ∃ st, lands (.mxzeroEnd t b kind) st ∧ steady s st ∧ st.gangs = s.gangs ∧ st.agenda = s.agenda ∧
      accOf (slabOf st t).mx b = ⟨[], [], kind, .idle⟩ ∧ accOf (slabOf st t).mx (!b) = accOf (slabOf s t).mx (!b)) ∧
    (∀ t b, let x := accOf (slabOf s t).mx b
      ∃ st, lands (.mxsnap t b) st ∧ steady s st ∧ st.gangs = s.gangs ∧ st.agenda = s.agenda ∧
        accOf (slabOf st t).mx b = { x with st := .idle } ∧ accOf (slabOf st t).mx (!b) = { x with st := .idle }) ∧
    (ownerLive s own = true → ∀ t u, ∃ v, lands (.mxstat t (some u)) (modSlab s t fun sl =>
        { sl with ports := tabPut sl.ports 152 ⟨v, false⟩ }) ∧
      let m := (slabOf s u).mx
      v.extractLsb' 48 16 = m.pgrp ∧ v.extractLsb' 38 10 = m.pslot ∧ v.getLsbD 37 = m.popb ∧ v.getLsbD 36 = m.pself ∧
        v.extractLsb' 26 6 = m.ridx ∧ v.extractLsb' 16 8 = m.sig ∧ v.getLsbD 9 = m.acc1.kind ∧ v.getLsbD 8 = m.acc0.kind ∧
        v.getLsbD 7 = m.acc1.lsf.any (·.2) ∧ v.getLsbD 6 = m.acc0.lsf.any (·.2) ∧ v.getLsbD 5 = m.busy ∧
        v.getLsbD 4 = m.front ∧ (v.extractLsb' 2 2).toNat = bankCode m.acc1.st ∧ (v.extractLsb' 0 2).toNat = bankCode m.acc0.st) ∧
    (∀ t e i v, ∃ st, lands (.mxload t e i v) st ∧ steady s st ∧ st.gangs = s.gangs ∧
      (slabOf st t).mx.acc0 = (slabOf s t).mx.acc0 ∧ (slabOf st t).mx.acc1 = (slabOf s t).mx.acc1 ∧
      (slabOf st t).mx.entries = (if e then tabPut (slabOf s t).mx.entries i v.toNat else (slabOf s t).mx.entries) ∧
      (slabOf st t).mx.words = (if e then (slabOf s t).mx.words else tabPut (slabOf s t).mx.words i v)) ∧
    (∀ t n, 16 ≤ n → ∃ st, lands (.winv t n) st ∧ st.mem = s.mem ∧ (slotOf (slabOf st t) n).res = false ∧
      (slotOf (slabOf st t) n).dirty = 0) ∧
    (∀ t i n, lands (.nameLoad t i n) (modSlab s t fun sl =>
      { sl with names := if namesTile n.toNat = true then tabPut sl.names i n else tabDel sl.names i })) ∧
    (∀ t m, lands (.bankRel t m) (modSlab s t fun sl =>
      { sl with banks := sl.banks.filter fun e => !(e.2 = own.task && m.getLsbD e.1) })) ∧
    (let tag (st : State) (t : TileName) (n : Nat) : Word := BitVec.ofNat 64 (memReadN st.mem (t * 2 ^ 22 + 8 * n) 8)
     let holds (t : TileName) (vpn n : Nat) : Prop := (tag s t n).getLsbD 63 = true ∧ (tag s t n).toNat % 2 ^ 36 = vpn
     let results (a : Action) (t : TileName) (p : Nat) (v : Word) : Prop := lands a (postLand s own (s.now + 2) (.slRes t p ⟨v, false⟩))
     (∀ t p vpn, (∀ n < 1024, holds t vpn n → (∀ m < n, ¬ holds t vpn m) → results (.tagLook t p vpn) t p (BitVec.ofNat 64 n)) ∧
       ((∀ n < 1024, ¬ holds t vpn n) → results (.tagLook t p vpn) t p 0xFFFF)) ∧
     (∀ t n v, s.memWf → n < 1024 → ∃ st, lands (.tagWrite t n v) st ∧ st.slabs = s.slabs ∧ st.agenda = s.agenda ∧
       tag st t n = v ∧ ∀ a, a < t * 2 ^ 22 + 8 * n ∨ t * 2 ^ 22 + 8 * n + 8 ≤ a → memRead st.mem a = memRead s.mem a) ∧
     (∀ t p i dw, results (.query t p i dw false) t p (BitVec.ofNat 64 (memReadN s.mem (t * 2 ^ 22 + 0x2000 + 64 * i + 8 * dw) 8))) ∧
     (∀ t p i dw, ∃ w : Word, results (.query t p i dw true) t p w ∧ w.getLsbD 0 = true ∧
       (w.getLsbD 32 = true ↔ ∃ e ∈ s.tasks, e.1 ≠ own.task ∧ e.2.ctx = own.ctx ∧ e.2.st ≠ .ended ∧
         ∃ x ∈ e.2.gangs, x.1 = own.gang ∧ x.2.1 ≠ 3) ∧
       ∀ k, 1 ≤ k → k < 32 → (w.getLsbD k = true ↔ tabGet (slabOf s t).banks k = some own.task) ∧
         (w.getLsbD (32 + k) = true ↔ ∃ h, tabGet (slabOf s t).banks k = some h ∧ h ≠ own.task)) ∧
     (∀ t i, s.memWf → i < 64 →
       let mine (n : Nat) : Prop := ((tag s t n).extractLsb' 52 6).toNat = i
       ∃ st, lands (.unmap t i) st ∧ st.vault = s.vault ∧ st.gangs = s.gangs ∧ rgnState st t i = 0 ∧
         (∀ n, 16 ≤ n → n < 1024 → mine n → tag st t n = tag s t n &&& ~~~(BitVec.twoPow 64 63) ∧
           (slotOf (slabOf st t) n).res = false ∧ (slotOf (slabOf st t) n).dirty = 0) ∧
         (∀ n, 16 ≤ n → n < 1024 → ¬ mine n → tag st t n = tag s t n ∧ slotOf (slabOf st t) n = slotOf (slabOf s t) n) ∧
         (pinsOf s t i ≠ [] → ∃ y, s.now ≤ y ∧
           eventAt st y .pinReleaseComplete (.pinReleaseComplete t i ((pinsOf s t i).map (·.vpn))))) ∧
     (∀ t i, i < 64 → ∃ st, lands (.dirtyRegion t i) st ∧ steady s st ∧ st.agenda = s.agenda ∧ ∀ n, 16 ≤ n → n < 1024 →
       (((tag s t n).extractLsb' 52 6).toNat = i → slotOf (slabOf st t) n = { slotOf (slabOf s t) n with dirty := 0 }) ∧
       (((tag s t n).extractLsb' 52 6).toNat ≠ i → slotOf (slabOf st t) n = slotOf (slabOf s t) n)))

/-- 08_accumulator R208, R209, R221, R222, 03_element R72, R74, R77 to R79: what the matrix engine forms. An access row is the 128
bytes that its descriptor, group and number give, or half a vector register. In a gang of one slab a group of INT8 operands
adds to each element of the bank the exact sum of its products, saturated to 32 bits; a group of floating operands gives each
element the alignment-window sum of R72, with LSF where bits were cut and INVF where an operation was invalid; nothing else of
the bank changes. A Hadamard pass gives each element the exact sum of its row under the signs of R78, rounded once. A row of a
drain stores 128 converted elements, after the bound check, and leaves the bank's elements; a row of flags stores the LSF bits of
128 elements and clears them. -/
def Obligations.GroupsHadamardAndDrain : Prop :=
  ∀ (s : State) (own : Owner),
    let landing (a : Action) (p : State → Prop) : Prop := ∃ st, exec (.operationLanding own a) s = .next st ∧ p st
    let el (st : State) (t : TileName) (acc1 : Bool) (i j : Nat) : BitVec 32 :=
      tabGetD 0 (accOf (slabOf st t).mx acc1).el (128 * i + j)
    (∀ t (b : Bool) q r, (slabOf s t).mx.run = some r →
      let d := if b then r.b else r.a
      let at_ := dBase d + r.gi * dTp d + q * dRp d
      let adr := (at_ / 2 ^ 17 % 32 + r.gi * dRc d) % 32 * 2 ^ 17 + at_ % 2 ^ 17
      (dVec d = true ∨ at_ < 2 ^ 22) →
      landing (.mxrow t b q) fun st => steady s st ∧ ∃ r', (slabOf st t).mx.run = some r' ∧
        (if b then r'.rowsA = r.rowsA else r'.rowsB = r.rowsB) ∧
        tabGet (if b then r'.rowsB else r'.rowsA) q = some
          (if dVec d then (tabGetD 0 (slabOf s t).v (dVf d + q / 2)).extractLsb' (1024 * (q % 2)) 1024
           else BitVec.ofNat 1024 (memReadN s.mem (t * 2 ^ 22 + adr) 128))) ∧
    (∀ g acc1 r, runOf s g = some r → r.own.gang = g → (gangOf s g).width = 1 →
      let inside (i j : Nat) : Prop := i < hmRows r.hm ∧ j < hmCols r.hm
      let a (f i k : Nat) : Nat := tileAt r.rowsA r.a.o f i k
      let b (f j k : Nat) : Nat := tileAt r.rowsB r.b.o f j k
      let summed (p : State → Prop) : Prop := landing (.mxgroup g acc1) fun st =>
        steady s st ∧ st.agenda = s.agenda ∧ (∀ r', runOf st g = some r' → r'.gi = r.gi + 1) ∧
          accOf (slabOf st g).mx (!acc1) = accOf (slabOf s g).mx (!acc1) ∧
          (∀ i < 128, ∀ j < 128, ¬ inside i j → el st g acc1 i j = el s g acc1 i j) ∧ p st
      (r.fmt.afmt = 1 → r.fmt.bfmt = 1 → r.fmt.strict.getLsbD 0 = false →
        let byte (n : Nat) : Int := if n < 128 then n else (n : Int) - 256
        let sum (i j : Nat) : Int := (el s g acc1 i j).toInt +
          ((List.range 32).map fun k =>
            if 32 * r.gi + k < kExtent r.mp then byte (a 1 i k) * byte (b 1 j k) else 0).sum
        summed fun st => ∀ i < 128, ∀ j < 128, inside i j →
          (el st g acc1 i j).toInt = max (-(2 ^ 31)) (min (2 ^ 31 - 1) (sum i j))) ∧
      ((r.fmt.afmt = 0 ∨ r.fmt.afmt = 2 ∨ r.fmt.afmt = 3) → (r.fmt.bfmt = 0 ∨ r.fmt.bfmt = 2 ∨ r.fmt.bfmt = 3) →
        let fa := r.fmt.afmt.toNat
        let fb := r.fmt.bfmt.toNat
        let pairs (i j : Nat) : List (Machine.Num × Machine.Num) := (List.range 32).map fun k =>
          if 32 * r.gi + k < kExtent r.mp then (decodeFmt fa (a fa i k), decodeFmt fb (b fb j k))
          else (.fin false 0 0, .fin false 0 0)
        summed fun st => ∃ f : Nat → Nat → Nat × Bool × Bool,
          (∀ i < 128, ∀ j < 128, inside i j →
            windowRule (16 + 8 * r.fmt.aw.toNat) (decodeFmt 4 (el s g acc1 i j).toNat) (pairs i j)
              (r.fmt.ascl.toInt + r.fmt.bscl.toInt) (f i j) ∧
            el st g acc1 i j = BitVec.ofNat 32 (f i j).1 ∧
            tabGetD false (accOf (slabOf st g).mx acc1).lsf (128 * i + j) =
              (tabGetD false (accOf (slabOf s g).mx acc1).lsf (128 * i + j) || (f i j).2.1)) ∧
          (ownerLive s r.own = true →
            ((gangOf st g).tst.invf = true ↔ (gangOf s g).tst.invf = true ∨ ∃ i < 128, ∃ j < 128, inside i j ∧ (f i j).2.2 = true)))) ∧
    (∀ g acc1, landing (.mxhad g acc1) fun st => steady s st ∧ st.agenda = s.agenda ∧ ∀ t ∈ gangTiles s g,
      (accOf (slabOf st t).mx acc1).lsf = (accOf (slabOf s t).mx acc1).lsf ∧ ∀ i < 128, ∀ j < 128, ∃ c : Nat × Bool,
        let term (k : Nat) : Machine.Num :=
          let x := decodeFmt 4 (el s t acc1 i k).toNat
          if ((List.range 7).filter fun n => k.testBit n && j.testBit n).length % 2 = 0 then x
          else match x with
            | .nan => .nan
            | .inf neg => .inf (!neg)
            | .fin neg m e => .fin (!neg) m e
        let ts := (List.range 128).map term
        sumRule (ts.any Machine.Num.isNan) false ts c ∧ el st t acc1 i j = BitVec.ofNat 32 c.1) ∧
    (∀ t i r b, (slabOf s t).mx.run = some r → r.bg = some b → b.flag = false → b.fmt.toNat < 6 → i < hmDrows r.hm →
      let fmt := b.fmt.toNat
      let n := fmtBits fmt / 8
      let base := drainBase r.mp + i * drainPitch r.hm fmt
      let src := if (accOf (slabOf s t).mx b.acc1).kind then 5 else 4
      base + 128 * n ≤ 2 ^ 22 → s.memWf →
      (i = 0 → t = r.own.gang → (gangOf s t).width = 1 ∧ r.fmt.strict = 0 ∧ ∀ bd, r.bound = some bd → bd.act ≠ 3) →
      landing (.mxdrainRow t i) fun st => st.vault = s.vault ∧ st.agenda = s.agenda ∧
        (accOf (slabOf st t).mx b.acc1).el = (accOf (slabOf s t).mx b.acc1).el ∧
        (∀ a, a < t * 2 ^ 22 + base ∨ t * 2 ^ 22 + base + 128 * n ≤ a → memRead st.mem a = memRead s.mem a) ∧
        ∀ j < 128,
          let v := decodeFmt src (el s t b.acc1 i j).toNat
          let plain : Nat := (convertFmt src fmt r.fmt.drnd.toNat (el s t b.acc1 i j).toNat).1
          let code : Nat := match r.bound with
            | some bd => if bd.act = 2 ∧ outsideBound bd v = true then
                (convertFmt 4 fmt r.fmt.drnd.toNat (clampTo bd v).toNat).1 else plain
            | none => plain
          (∀ bd, r.bound = some bd → bd.act = 3 → outsideBound bd v = false) →
          memReadN st.mem (t * 2 ^ 22 + base + n * j) n = code % 2 ^ fmtBits fmt) ∧
    (∀ t i r b, (slabOf s t).mx.run = some r → r.bg = some b → b.flag = true → i < 128 → s.memWf →
      let base := t * 2 ^ 22 + flagBase r.mp + i * hmFrp r.hm
      let lsf (st : State) (k j : Nat) : Bool := tabGetD false (accOf (slabOf st t).mx b.acc1).lsf (128 * k + j)
      landing (.mxdrainRow t i) fun st => st.vault = s.vault ∧ st.agenda = s.agenda ∧ st.gangs = s.gangs ∧
        (accOf (slabOf st t).mx b.acc1).el = (accOf (slabOf s t).mx b.acc1).el ∧
        (∀ j < 128, (memReadN st.mem base 16).testBit j = lsf s i j) ∧
        (∀ a, (a < base ∨ base + 16 ≤ a) → memRead st.mem a = memRead s.mem a) ∧
        (∀ k j, j < 128 → lsf st k j = (decide (k ≠ i) && lsf s k j)) ∧
        (i = 127 → (accOf (slabOf st t).mx b.acc1).st = .idle ∧ (slabOf st t).mx.run = some { r with bg := none }))

/-- 02_bundle R33, R51, 05_sequencer R110 to R117, R122, R124, R133, R134, 16_context R378: a bundle opens and closes; a
block end takes its exit, its loop's back-edge, its waits, its quiet point or its event, pops the levels that a break or a last
iteration ends, pushes the level of a loop, and answers two exits as EXITSTRICT says. That EVRET's block end delivers
nothing is the model's reading (log 27). -/
def Obligations.BundlesAndBlockEnds : Prop :=
  ∀ (s : State) (is : Issue),
    let n := is.gang
    let g := gangOf s n
    let ends (st : State) : Prop := exec (.bundleIssue n) s = .next st
    (s.issue = none → (g.seq = .issuing ∨ g.seq = .handler) → g.pc ≤ 8191 →
      let b := fetchBundle (ctxOf s g.ctx) g.pc
      bundleOffender b = none → (hdrEnd (bundleHeader b) = true ∨ g.blk.bpos ≠ 15) → (ctxOf s g.ctx).bps = [] →
      ∃ st x, ends st ∧ st.mem = s.mem ∧ st.vault = s.vault ∧ st.agenda = s.agenda ∧ st.issue = some x ∧ x.gang = n ∧
        x.pc = g.pc ∧ x.hdr = bundleHeader b ∧ x.words = bundleWork g b ∧ x.fired = 0 ∧ x.snap.isSome = true) ∧
    (s.issue = some is → (tabGet s.gangs n).isSome = true → hdrEnd is.hdr = false →
      ∃ st, ends st ∧ goesTo s st n (is.pc + 1) ∧ (gangOf st n).blk.bpos = g.blk.bpos + 1) ∧
    (atBlockEnd s is →
      (∀ tr, g.blk.trap = some tr → ∃ st, ends st ∧ goesTo s st n (is.pc + 1) ∧ (gangOf st n).blk = .empty ∧
        st.faultSeq = s.faultSeq + 1 ∧ (gangOf st n).calls = g.calls ∧ (gangOf st n).loops = g.loops) ∧
      (bareBlock g → noEvent g →
        (g.blk.exit = none → (g.handler = true ∨ ∀ l rest, g.loops = l :: rest → l.last ≠ is.pc) →
          ∃ st, ends st ∧ goesTo s st n (is.pc + 1) ∧ (gangOf st n).loops = g.loops) ∧
        (∀ l rest, g.handler = false → g.blk.exit = none → g.loops = l :: rest → l.last = is.pc → l.iter.toNat + 1 < l.trips.toNat →
          ∃ st, ends st ∧ goesTo s st n l.start ∧ (gangOf st n).loops = { l with iter := l.iter + 1 } :: rest ∧
            ∀ i < 4, (tabGetD TV.zero (gangOf st n).s (60 + i)).val = (tabGetD TV.zero g.s (60 + i)).val +
              (l.strides.extractLsb' (16 * i) 16).signExtend 64) ∧
        (∀ x, g.blk.exit = some x → (x.port = 258 ∨ x.port = 259 ∨ x.port = 266 ∨ x.port = 267) → x.tgt.toNat ≤ 8191 →
          ∃ st, ends st ∧ goesTo s st n x.tgt.toNat ∧ (gangOf st n).calls = g.calls ∧ (gangOf st n).loops = g.loops) ∧
        (∀ x, g.blk.exit = some x → (x.port = 260 ∨ x.port = 261) → x.tgt.toNat ≤ 8191 → g.calls.length < 16 →
          ∃ st, ends st ∧ goesTo s st n x.tgt.toNat ∧ (gangOf st n).calls = (is.pc + 1) :: g.calls) ∧
        (∀ x c rest, g.blk.exit = some x → x.port = 262 → g.calls = c :: rest →
          ∃ st, ends st ∧ goesTo s st n c ∧ (gangOf st n).calls = rest) ∧
        (∀ x, g.blk.exit = some x → x.port = 280 →
          ∃ st, ends st ∧ goesTo s st n (is.pc + 1) ∧ st.faultSeq = s.faultSeq + 1) ∧
        (∀ x, g.blk.exit = some x → x.port = 281 → ∃ st, ends st ∧ st.mem = s.mem ∧ (gangOf st n).seq = .waiting ∧
          (gangOf st n).pc = is.pc + 1 ∧ (gangOf st n).waits = [.sys x.tgt x.aux] ∧
          ∃ e ∈ st.agenda, s.now < e.at_ ∧ e.instr = .sysAnswer ∧
            (Config.sysServed x.tgt.toNat = false → e.arg = .sysAnswer n (BitVec.allOnes 64))) ∧
        (∀ x, g.blk.exit = some x → x.port = 282 → g.handler = true →
          ∃ st, ends st ∧ goesTo s st n g.eret ∧ (gangOf st n).handler = false ∧ (gangOf st n).seq = .issuing ∧
            newSegment s st n 1) ∧
        (∀ x, g.blk.exit = some x → x.port = 284 → ∃ st, ends st ∧ st.mem = s.mem ∧ (gangOf st n).seq = .halting ∧
          (gangOf st n).haltCode = x.tgt.setWidth 8 ∧
          ∃ e ∈ st.agenda, s.now < e.at_ ∧ e.instr = .haltDrainComplete)) ∧
      (g.blk.trap = none → g.blk.waits = [] → g.blk.qp = 0 → noEvent g →
        let fault : Prop := ∃ st, ends st ∧ goesTo s st n (is.pc + 1) ∧ st.faultSeq = s.faultSeq + 1 ∧
          (gangOf st n).loops = g.loops ∧ (gangOf st n).tst.excol = g.tst.excol
        let goes (pc : Nat) (loops : List LoopLevel) : Prop :=
          ∃ st, ends st ∧ goesTo s st n pc ∧ (gangOf st n).loops = loops ∧ (gangOf st n).s = g.s
        let strided (pc : Nat) (ls loops : List LoopLevel) : Prop :=
          ∃ st, ends st ∧ goesTo s st n pc ∧ (gangOf st n).loops = loops ∧ ∀ i < 4,
            (tabGetD TV.zero (gangOf st n).s (60 + i)).val = ls.foldl (fun v l => v + (l.strides.extractLsb' (16 * i) 16).signExtend 64)
              (tabGetD TV.zero g.s (60 + i)).val
        let noEdge (ls : List LoopLevel) : Prop := g.handler = true ∨ ∀ l rest, ls = l :: rest → l.last ≠ is.pc
        let jump (x : ExitRec) : Prop := g.blk.exit = some x ∧ x.port = 258 ∧ x.tgt.toNat ≤ 8191
        (∀ l, g.blk.xcol = false → g.blk.lop = some l → l.port = 265 →
          (l.n = 7 ∨ g.loops.length < l.n → fault) ∧
          (l.n < 7 → l.n ≤ g.loops.length →
            (g.blk.exit = none → noEdge (g.loops.drop l.n) → goes (is.pc + 1) (g.loops.drop l.n)) ∧
            (∀ x, jump x → goes x.tgt.toNat (g.loops.drop l.n)))) ∧
        (∀ l rest, g.blk.lop = none → g.blk.exit = none → g.handler = false → g.loops = l :: rest → l.last = is.pc →
          l.trips.toNat ≤ l.iter.toNat + 1 → l.iter.toNat + 1 < 2 ^ 32 →
          (noEdge rest → strided (is.pc + 1) [l] rest) ∧
          (∀ x more, rest = x :: more → x.last = is.pc → x.iter.toNat + 1 < x.trips.toNat →
            strided x.start [l, x] ({ x with iter := x.iter + 1 } :: more))) ∧
        (∀ l next, g.blk.xcol = false → g.blk.lop = some l → l.port ≠ 265 →
          (g.blk.exit = none ∧ noEdge g.loops ∧ next = is.pc + 1) ∨ (∃ x, jump x ∧ next = x.tgt.toNat) →
          (8191 < l.e.toNat ∨ l.e.toNat < next ∨ 6 ≤ g.loops.length → fault) ∧
          (next ≤ l.e.toNat → l.e.toNat ≤ 8191 → g.loops.length < 6 →
            (l.n = 0 → goes (l.e.toNat + 1) g.loops) ∧
            (0 < l.n → goes next (⟨next, l.e.toNat, BitVec.ofNat 32 l.n, 0, l.strides⟩ :: g.loops)))) ∧
        (∀ x, g.blk.lop = none → g.blk.xcol = true → jump x →
          (g.tctl.exitstrict = true → fault) ∧
          (g.tctl.exitstrict = false → ∃ st, ends st ∧ goesTo s st n x.tgt.toNat ∧ (gangOf st n).tst.excol = true ∧
            (gangOf st n).loops = g.loops))) ∧
      (bareBlock g → g.tctl.event = true → g.handler = false → g.blk.exit = none →
        (∀ l rest, g.loops = l :: rest → l.last ≠ is.pc) → ∀ w, pickEvent g.events g.tctl.evm = some w →
        (tabGetD TV.zero g.e 6).val.toNat ≤ 8191 →
        ∃ st, ends st ∧ goesTo s st n (tabGetD TV.zero g.e 6).val.toNat ∧ (gangOf st n).handler = true ∧
          (gangOf st n).seq = .handler ∧ (gangOf st n).eret = is.pc + 1 ∧
          tabGetD TV.zero (gangOf st n).e 7 = ⟨w, false⟩ ∧ (gangOf st n).events = dropEvent g.events w ∧ newSegment s st n 1) ∧
      (soundBlock g → g.blk.exit = none → g.loops = [] → g.blk.qp = 0 → g.blk.waits ≠ [] → .cycalign ∉ g.blk.waits →
        (∀ l, g.blk.lop = some l → l.port ≠ 265 ∧ l.e.toNat ≤ 8191 ∧ is.pc + 1 ≤ l.e.toNat ∧ 0 < l.n) →
        ∃ st, ends st ∧ st.mem = s.mem ∧ (gangOf st n).seq = .waiting ∧ (gangOf st n).waits = g.blk.waits ∧
          (gangOf st n).pc = is.pc + 1 ∧ (gangOf st n).waitStart = s.now ∧
          (gangOf st n).loops = match g.blk.lop with
            | some l => [⟨is.pc + 1, l.e.toNat, BitVec.ofNat 32 l.n, 0, l.strides⟩]
            | none => []) ∧
      (bareBlock { g with blk := { g.blk with qp := 0 } } → g.blk.exit = none → g.loops = [] → quietBusy s n = false →
        g.blk.qp &&& requestKinds s n ≠ 0 →
        ∃ st, ends st ∧ st.mem = s.mem ∧ (gangOf st n).seq = .stopped ∧ (gangOf st n).pc = is.pc + 1 ∧
          (gangOf st n).stopKinds = g.blk.qp &&& requestKinds s n))

/-- 08_accumulator R213, 09_window R235, R239, R241, 10_route R253, R254, R258, R260, 06_region R147: what the events of
the engines do, with their operands: landings, vault atomics, switch programs, beats, sends and remote accesses. When
an arrival may leave, how a blocked path is judged and which frame is whose turn are the model's reading (log 39, log
41). -/
def Obligations.EngineEvents : Prop :=
  ∀ (s : State), s.memWf →
    (∀ g, handles s (.routineLanding g) .routineLanding fun st => steady s st ∧ st.agenda = s.agenda ∧
      ∀ t ∈ gangTiles s g, (slabOf st t).mx.busy = false ∧
        (slabOf st t).mx.run = (slabOf s t).mx.run.filter fun r => r.parked.isSome) ∧
    (∀ t n x, 16 ≤ n → tabGet (slabOf s t).stage n = some x →
      handles s (.wfillLanding t n) .wfillLanding (fun st => steady s st ∧ (slotOf (slabOf st t) n).pend = false ∧
        ((slotOf (slabOf st t) n).res = true ↔ (slotOf (slabOf s t) n).res = true ∨
          (x.here = true ∧ x.failed = false ∧ x.noRes = false ∧ tagValid (tagWord s t n) = true ∧ tagVpn (tagWord s t n) = x.vpn))) ∧
      handles s (.wflushLanding t n) .wflushLanding fun st => steady s st ∧ (slotOf (slabOf st t) n).pend = false ∧
        (slotOf (slabOf st t) n).res = (slotOf (slabOf s t) n).res) ∧
    (∀ w : WAtomOp, w.gva % 8 = 0 →
      (∀ i < 8, (wrongCells (slabOf s w.home) w.frame (w.gva % 4096 / 64) i).length ≤ 1) →
      let key := vaultKey w.home w.frame (w.gva % 4096)
      let old : Word := BitVec.ofNat 64 (memReadN s.vault key 8)
      let line := vaultLineKey w.home w.frame (w.gva % 4096 / 64)
      let full := undoFull s w.own.ctx w.home w.frame (w.gva % 4096 / 64) = true ∧ atomNew w.op old w.t w.cmp ≠ none
      let done (st : State) : Prop := st.mem = s.mem ∧
        (atomNew w.op old w.t w.cmp = none → st.vault = s.vault) ∧
        (∀ v, atomNew w.op old w.t w.cmp = some v → (∃ e ∈ (ctxOf s w.own.ctx).undo, e.1 = line) →
          memReadN st.vault key 8 = v.toNat ∧ ∀ a, (a < key ∨ key + 8 ≤ a) → memRead st.vault a = memRead s.vault a)
      let stops (st : State) : Prop := steady s st ∧ st.faultSeq = s.faultSeq + 1 ∧
        ∀ y i x, eventAt st y i x → eventAt s y i x ∨ i = .freezeEdge
      handles s (.watomApply w) .watomApply (fun st =>
        (full → stops st) ∧ (¬ full → done st ∧
          ∀ t ∈ w.dests, actAt st w.own (s.now + 128) ordLand (.slRes t 154 ⟨old, false⟩))) ∧
      handles s (.remoteWatomApply w) .remoteWatomApply fun st =>
        (full → stops st) ∧ (¬ full → done st ∧
          eventAt st (w.trigAt + 2 * bound w.src w.home + 128) .remoteWatomReply (.remoteWatomReply w old))) ∧
    (∀ (w : WAtomOp) (old : Word), ordAcquires (ordTaken w.op old w.cmp w.ordc w.ford) = false → ownerLive s w.own = true →
      handles s (.remoteWatomReply w old) .remoteWatomReply fun st => steady s st ∧ st.agenda = s.agenda ∧
        ∀ t ∈ w.dests, tabGet (slabOf st t).ports 154 = some ⟨old, false⟩) ∧
    (∀ (w : WAtomOp) (i : Nat), i < 8 →
      2 ≤ (wrongCells (slabOf s w.home) w.frame (w.gva % 4096 / 64) i).length →
      handles s (.watomApply w) .watomApply (fun st => steady s st ∧ eventAt st s.now .uncorrectableErrorDetect
        (.uncorrectableErrorDetect ⟨1, some w.own.ctx, w.home, w.own.pc, w.own.slot, w.own.trig,
          BitVec.ofNat 64 (w.gva / 4096 * 4096 + 64 * (w.gva % 4096 / 64))⟩))) ∧
    (∀ g own, s.own = some own → own.gang = g →
      let ts := loadingTiles s own
      let y (t : TileName) : Nat := (tileCyc s t).toNat
      let t0 (t : TileName) : Nat := takeEffect (slabOf s t).prog (y t)
      let refused (t : TileName) : Prop := ∀ p, (slabOf s t).pend = some p →
        progBad t (gangOf s p.own.gang).dmem p.p p.addr (t0 t) p.entries = true
      ((∀ t ∈ ts, ¬ refused t) →
        handles s (.routesetCheck g) .routesetCheck fun st => steady s st ∧ ∀ t ∈ ts,
          (slabOf st t).pend = (slabOf s t).pend.map (fun p => { p with t0 := some (t0 t) }) ∧
          (slabOf st t).prog = (slabOf s t).prog ∧
          eventAt st (s.now + (t0 t - y t)) .switchProgramStart (.switchProgramStart t)) ∧
      ((∃ t ∈ ts, refused t) →
        handles s (.routesetCheck g) .routesetCheck fun st => steady s st ∧ st.faultSeq = s.faultSeq + 1 ∧
          ∀ t ∈ ts, (slabOf st t).pend = none ∧ (slabOf st t).prog = (slabOf s t).prog)) ∧
    (∀ t p t1, (slabOf s t).pend = some p → p.t0 = some t1 →
      handles s (.switchProgramStart t) .switchProgramStart fun st => steady s st ∧
        (slabOf st t).prog = ⟨p.p, t1, p.entries, false⟩ ∧ (slabOf st t).pend = none) ∧
    (∀ t input data,
      let e := entryNow s t
      let i := dirIndex input
      handles s (.routerStaticBeat t input data) .routerStaticBeat fun st => steady s st ∧
        slVPort (slabOf st t) (156 + i) = (if entryRx e i = true ∧ (∀ own, s.own = some own → ownerLive s own = true)
          then putQuarter (slVPort (slabOf s t) (156 + i)) (entryRq e i) data else slVPort (slabOf s t) (156 + i)) ∧
        ∀ d < 4, ∀ n, entryOsrc e d = i + 1 → neighbour t d = some n →
          eventAt st (s.now + linkCost t n) .routerStaticBeat (.routerStaticBeat n (dirOf ((d + 2) % 4)) data)) ∧
    (∀ t wafer, mayInject s t →
      (∀ x, (injQueue s t wafer).find? (mayLeave s t) = some x →
        handles s (.asyncItemSend t wafer) .asyncItemSend fun st => st.vault = s.vault ∧
          injQueue st t wafer = (injQueue s t wafer).erase x ∧
          (∀ n gen send, x.kind = .arrival n gen send →
            eventAt st (s.now + bound t x.dst) .arrivalDelivery (.arrivalDelivery x.dst t n gen send) ∧
            (n < 512 → getBar st t n = { getBar s t n with state := if send then 1 else 2 })) ∧
          (∀ a sc post sync, x.kind = .token a sc post sync →
            eventAt st (s.now + bound t x.dst) .tokenDelivery (.tokenDelivery x.dst t a sc post)) ∧
          (∀ p, x.kind = .softEvent p →
            eventAt st (s.now + bound t x.dst) .softEventDelivery (.softEventDelivery x.dst t p)) ∧
          (x.kind = .align → eventAt st (s.now + bound t x.dst) .alignmentArrival (.alignmentArrival x.dst t)) ∧
          (∀ w, x.kind = .watom w →
            eventAt st (s.now + bound t x.dst) .remoteWatomApply (.remoteWatomApply { w with trigAt := s.now }) ∧
            (w.ordc = 2 ∨ w.ordc = 3 ∨ w.ordc = 4 → ∃ a o, actAt st x.own (s.now + bound t x.dst) ordCheck (.relCheck a) ∧
              a.port = 154 ∧ a.ord = some o ∧ o.sync = BitVec.ofNat 64 (2 ^ 48 + w.gva))) ∧
          (∀ ctx ring v, x.kind = .ring ctx ring v → ∃ y, s.now < y ∧
            eventAt st y .hostRingEntryWrite (.hostRingEntryWrite ctx ring v (BitVec.ofNat 16 t) 0)) ∧
          (∀ ctx comm rank inst, x.kind = .coll ctx comm rank inst → ∃ y, s.now < y ∧
            eventAt st y .collContributionArrival (.collContributionArrival ctx comm rank inst)) ∧
          (∀ ctx gen req vpn, x.kind = .pageReq ctx gen req vpn → ∃ y, s.now < y ∧
            eventAt st y .pageRequestArrival (.pageRequestArrival ctx gen x.dst req vpn))) ∧
      ((injQueue s t wafer).find? (mayLeave s t) = none →
        (∀ r, ((slabOf s t).releases.find? fun r => r.2.2.2 = wafer) = some r →
          handles s (.asyncItemSend t wafer) .asyncItemSend fun st => steady s st ∧
            (slabOf st t).releases = (slabOf s t).releases.erase r ∧
            eventAt st (s.now + bound t r.1) .releaseDelivery (.releaseDelivery r.1 t r.2.1 r.2.2.1)) ∧
        (∀ num c, ((slabOf s t).releases.find? fun r => r.2.2.2 = wafer) = none → nextCopy (slabOf s t) s.now wafer = some (num, c) →
          handles s (.asyncItemSend t wafer) .asyncItemSend fun st => steady s st ∧
            tabGet (slabOf st t).copies num = some { c with next := c.next + 1 } ∧
            actAt st c.own s.now ordRead (.copyRead t num c.next)))) ∧
    (∀ (own : Owner) (t : TileName) (addr port path back : Nat) (dests : List TileName),
      let acc (op : MemOp) : MemAccess := ⟨t, addr, op, port, dests, none, path, none⟩
      (∀ n, s.arg = .remoteAccessArrival ⟨own, acc (.load n), back⟩ → exec .remoteAccessArrival s =
        .next (postLand s own (s.now + back) (.reply (acc (.load n))
          ⟨BitVec.ofNat 64 (memReadN s.mem (t * 2 ^ 22 + addr) n), false⟩))) ∧
      (∀ n data, handles s (.remoteAccessArrival ⟨own, acc (.store n data), back⟩) .remoteAccessArrival fun st =>
        st.vault = s.vault ∧ st.agenda = s.agenda ∧
        (∀ i < n, memRead st.mem (t * 2 ^ 22 + addr + i) = BitVec.ofNat 8 (data.toNat / 256 ^ i)) ∧
        ∀ a, (a < t * 2 ^ 22 + addr ∨ t * 2 ^ 22 + addr + n ≤ a) → memRead st.mem a = memRead s.mem a))

/-- 12_barrier R284, R286, 10_route R263, 15_queue R357 to R361, 05_sequencer R129, 17_page R398, 18_link R423: what is
delivered: arrivals, releases, copy beats, tokens, soft events, ring entries, alignment, page requests, contributions.
Which record a copy beat counts down at is the model's reading (log 40), and so is that all of SRC is read on the arrival's
cycle (log 73); bits of events that no rule gives are free (log 17), engines take items at open times (log 10), and ring 64
stands for the sampler's HEAD (log 151). -/
def Obligations.Deliveries : Prop :=
  ∀ (s : State), s.memWf →
    (∀ dst src n gen send,
      let r := getBar s dst n
      r.state ≠ 0 → r.home.toNat = dst → gen = r.gen → r.arr ≠ r.exp →
      (send = true ∨ src = dst ∨ (slabOf s dst).relList.length < 8192) → n < 512 →
      handles s (.arrivalDelivery dst src n gen send) .arrivalDelivery fun st => st.vault = s.vault ∧
        getBar st dst n = { r with arr := r.arr + 1 } ∧
        (slabOf st dst).relList = (slabOf s dst).relList ++ (if send = false ∧ src ≠ dst then [(n, src)] else []) ∧
        actAt st (receiver s dst) s.now ordDone (.barCheck dst n)) ∧
    (∀ dst src n gen, let r := getBar s dst n
      r.state = 2 → r.home.toNat = src → n < 512 →
      handles s (.releaseDelivery dst src n gen) .releaseDelivery fun st => st.vault = s.vault ∧ st.agenda = s.agenda ∧
        getBar st dst n = { r with gen := gen, state := 1 }) ∧
    (∀ b : CopyBeat, handles s (.copyBeatDelivery b) .copyBeatDelivery fun st => st.vault = s.vault ∧
      memReadN st.mem (b.dst * 2 ^ 22 + b.addr) 64 = b.data.toNat ∧
      (∀ a, (a < b.dst * 2 ^ 22 + b.addr ∨ b.dst * 2 ^ 22 + b.addr + 64 ≤ a) → memRead st.mem a = memRead s.mem a) ∧
      actAt st b.own s.now ordBeat (.barBeat b)) ∧
    (∀ d src a sc ev, handles s (.tokenDelivery d src a sc ev) .tokenDelivery fun st => st.vault = s.vault ∧
      tokenCounted (padWord s d a) (padWord st d a) sc ∧
      (∀ b, (b < d * 2 ^ 22 + a ∨ d * 2 ^ 22 + a + 8 ≤ b) → memRead st.mem b = memRead s.mem b) ∧
      ∀ g, ev = true → (slabOf s d).gang = some g → takesEvents s g →
        eventPending s st g src (eventWord 2 (BitVec.ofNat 16 src) (BitVec.ofNat 40 a))) ∧
    (∀ d src p, (∀ g, (slabOf s d).gang = some g → takesEvents s g →
        handles s (.softEventDelivery d src p) .softEventDelivery fun st => steady s st ∧
          eventPending s st g src (eventWord 7 (BitVec.ofNat 16 src) p)) ∧
      ((slabOf s d).gang = none → s.arg = .softEventDelivery d src p →
        exec .softEventDelivery s = .next { s with dropSoft := s.dropSoft + 1 })) ∧
    (∀ c r p src d h, tabGet (ctxOf s c).rings r = some h →
      handles s (.hostRingEntryWrite c r p src d) .hostRingEntryWrite fun st => steady s st ∧
        ∃ h', tabGet (ctxOf st c).rings r = some h' ∧ h'.head = h.head ∧
          if 2 ^ h.set.logsize ≤ ringUsed h then h'.tail = h.tail ∧ h'.drops = h.drops + 1 ∧ h'.entries = h.entries
          else h'.tail = (h.tail + 1) % 2 ^ 32 ∧ h'.drops = h.drops ∧ h'.entries = h.entries ++ [(p, src, d, h.tail)] ∧
            .posted (hostPort s) (h.set.base + BitVec.ofNat 64 (16 * (h.tail % 2 ^ h.set.logsize)))
              (ringEntryBytes r (p, src, d, h.tail)) ∈ st.out ∧
            (h.set.count ≤ h.pending + 1 → h'.pending = 0 ∧ .irq c r h.set.vector ∈ st.out)) ∧
    (∀ c r e h, tabGet (ctxOf s c).rings r = some h → h.epoch = e → h.pending ≠ 0 →
      handles s (.ringCoalesceTimeout c r e) .ringCoalesceTimeout fun st => steady s st ∧
        .irq c r h.set.vector ∈ st.out ∧ ∃ h', tabGet (ctxOf st c).rings r = some h' ∧ h'.pending = 0) ∧
    (∀ c r hd h, tabGet (ctxOf s c).rings r = some h →
      handles s (.ringHeadAdvance c r hd) .ringHeadAdvance fun st => steady s st ∧
        ∃ h', tabGet (ctxOf st c).rings r = some h' ∧ h'.head = hd % 2 ^ 32 ∧ h'.tail = h.tail) ∧
    (∀ c hd m, tabGet (ctxOf s c).rings 64 = none → (ctxOf s c).sampler = some m →
      handles s (.ringHeadAdvance c 64 hd) .ringHeadAdvance fun st => steady s st ∧
        (ctxOf st c).sampler = some { m with head := hd % 2 ^ 32 }) ∧
    (∀ dst src, (tabGet s.gangs dst).isSome = true → dst ∈ taskGangs s (gangOf s dst).task →
      (∃ h ∈ taskGangs s (gangOf s dst).task, h ≠ src ∧ ∀ a ∈ (gangOf s dst).aligned, a.1 ≠ h) →
      s.arg = .alignmentArrival dst src → exec .alignmentArrival s =
        .next (modGang s dst fun gg => { gg with aligned := gg.aligned ++ [(src, s.now)] })) ∧
    (∀ c t num i r, findReq (slabOf s t) num = some (i, r) → r.st = .issued →
      handles s (.pageRequestArrival c (ctxOf s c).gen t num r.vpn) .pageRequestArrival fun st => steady s st ∧
        (∀ l, walk (ctxOf s c) r.vpn = some l → l.home = t → tabGet (slabOf st t).requests i = none ∧ st.out = s.out ∧
          (holderOf s t = some c → ∀ j, ∀ p ∈ pinsOf st t j, p.vpn = r.vpn → p.home = t ∧ p.frame = l.frame)) ∧
        (homedAt (ctxOf s c) r.vpn t = false → tabGet (slabOf st t).requests i = some { r with st := .hostPending } ∧
          .pageRequest (hostPort s) c (ctxOf s c).gen num r.vpn t ∈ st.out)) ∧
    (∀ c comm rank inst t x rs, ((collGangs s c comm inst).find? fun e => e.2.rank = rank) = some (t, x) →
      tabGet (ctxOf s c).comms comm = some rs → 2 ≤ rs.length → (∀ r ∈ rs, r.1 = Config.moduleIndex) →
      (∀ i ∈ (ctxOf s c).colls, i.comm ≠ comm ∨ i.inst ≠ inst) →
      handles s (.collContributionArrival c comm rank inst) .collContributionArrival fun st =>
        ∃ i ∈ (ctxOf st c).colls, i.comm = comm ∧ i.inst = inst ∧ i.got = [⟨rank, collOp x.desc, collFmt x.desc,
          collRoot x.desc, collElems x.desc, memReadBytes s.mem (padKey t (collSrc x.desc)) (collSrcBytes x.desc)⟩])

/-- 02_bundle R52, 05_sequencer R125, R128, R129, R133, 12_barrier R285, 13_binding R296, R303, 06_region R162, R167,
18_link R424, 14_kernel R334, R336, 15_queue R345, R346, R349, R350: how waits end, how a task starts and ends, and what the
dispatcher decides. The events on the agenda are the model's own (log 29, log 123), durations that no rule gives are free
(log 10), a wait of C ends on its origin (log 125), where BARWAIT's acquire takes its turn too (log 43), the age of a
time-table record is counted from the next decision (log 88), and the clock that slots follow is log 14's. -/
def Obligations.WaitsTasksAndDispatch : Prop :=
  ∀ (s : State),
    (∀ g m w, waitsFor s g (.waitev m) → m ≠ 0 → pickEvent (gangOf s g).events m = some w →
      handles s (.waitevComplete g) .waitevComplete fun st => steady s st ∧ waitOver s st g 0 ∧ cResult s st g w ∧
        (gangOf st g).events = dropEvent (gangOf s g).events w) ∧
    (∀ g m, waitsFor s g (.waitev m) → m ≠ 0 → pickEvent (gangOf s g).events m = none → s.arg = .waitevComplete g →
      exec .waitevComplete s = .next (looksAgain s g .waitevComplete)) ∧
    (∀ g t, waitsFor s g (.cycwait t) →
      handles s (.cycwaitComplete g) .cycwaitComplete fun st => steady s st ∧ waitOver s st g 0) ∧
    (∀ g, waitsFor s g .cycalign →
      handles s (.cycalignComplete g) .cycalignComplete fun st => steady s st ∧ waitOver s st g 0) ∧
    (∀ g n a v, waitsFor s g (.sys n a) →
      handles s (.sysAnswer g v) .sysAnswer fun st => steady s st ∧ waitOver s st g 1 ∧ cResult s st g v) ∧
    (∀ g n, waitsFor s g (.barwait n) →
      ((getBar s g n).state = 1 → handles s (.barwaitComplete g n) .barwaitComplete fun st => steady s st ∧ waitOver s st g 1 ∧
        actAt st (gangOwner s g) (max (gangOf s g).waitEnd (s.now + 1)) (ordWait + 1) (.acquire 1 (BitVec.ofNat 64 (barAddr n)))) ∧
      ((getBar s g n).state ≠ 1 → s.arg = .barwaitComplete g n →
        exec .barwaitComplete s = .next (looksAgain s g .barwaitComplete))) ∧
    (∀ g u mask, waitsFor s g (.bankwait u mask false) →
      let task := (gangOf s g).task
      let free := ∀ t ∈ gangTiles s g, ∀ b < 32, mask.getLsbD b = true → ∀ k, tabGet (slabOf s t).banks b = some k → k = task
      (free → handles s (.bankwaitComplete g u mask) .bankwaitComplete fun st => steady s st ∧ waitOver s st g 1 ∧
        ∀ t ∈ gangTiles s g, ∀ b < 32, mask.getLsbD b = true → tabGet (slabOf st t).banks b = some task) ∧
      (¬ free → s.arg = .bankwaitComplete g u mask →
        exec .bankwaitComplete s = .next (looksAgain s g .bankwaitComplete))) ∧
    (∀ g u i d, waitsFor s g (.rgnmap u i d) →
      ((∀ t ∈ gangTiles s g, mapPending s t i = false) →
        handles s (.rgnmapComplete g u i) .rgnmapComplete fun st => steady s st ∧ waitOver s st g 1) ∧
      ((∃ t ∈ gangTiles s g, mapPending s t i = true) → s.arg = .rgnmapComplete g u i →
        exec .rgnmapComplete s = .next (looksAgain s g .rgnmapComplete))) ∧
    (∀ g x v, waitsFor s g .collwait → (gangOf s g).coll = some x → (gangOf s g).collDone = some v →
      handles s (.collwaitComplete g) .collwaitComplete fun st => steady s st ∧ waitOver s st g 1 ∧
        (gangOf st g).coll = none ∧
        ∀ t ∈ gangTiles s g, slPort (slabOf st t) (gangOf s g).handler 163 = ⟨v, false⟩) ∧
    (∀ t i, rgnState s t i ≠ 1 → s.arg = .rgnmapWalkEnd t i → exec .rgnmapWalkEnd s = .next s) ∧
    (∀ t i l, s.memWf → i < 64 → rgnState s t i = 1 → rgnNslot s t i = 1 → rgnFtouch s t i = false →
      let c := (s.own.getD ⟨0, 0, t, false, 0, 0xFF, 0, s.now⟩).ctx
      let v := rgnGva s t i / 4096
      walk (ctxOf s c) v = some l → l.pcnt < 4095 → (rgnWr s t i = true → l.w = true) →
      handles s (.rgnmapWalkEnd t i) .rgnmapWalkEnd fun st => st.vault = s.vault ∧ rgnState st t i = 2 ∧
        pinsOf st t i = pinsOf s t i ++ [⟨v, l.key, l.home, l.frame, l.w⟩]) ∧
    (∀ t i ls, handles s (.pinReleaseComplete t i ls) .pinReleaseComplete fun st => st.vault = s.vault ∧
      pinsOf st t i = (pinsOf s t i).filter fun p => !ls.contains p.vpn) ∧
    (∀ g id t, unitOps s g id = [] → queuedAtom s g id = false → tabGet s.tasks id = some t → (gangOf s g).task = id → (ctxOf s t.ctx).invals = [] →
      (∃ e ∈ t.gangs, e.1 ≠ g ∧ e.2.1 ≠ 3) →
      handles s (.haltDrainComplete g id) .haltDrainComplete fun st => steady s st ∧ tabGet st.gangs g = none ∧
        (∃ t', tabGet st.tasks id = some t' ∧ ∀ e ∈ t'.gangs, e.1 = g → e.2.1 = 3) ∧
        ∀ u ∈ gangTilesOf g t.width, (slabOf st u).gang = none ∧ ∀ e ∈ (slabOf st u).banks, e.2 ≠ id) ∧
    (∀ id t o k, tabGet s.tasks id = some t → t.st = .placed → startable s id t = true →
      tabGet (ctxOf s t.ctx).objects t.object = some o → o.kernels[t.kernel]? = some k →
      handles s (.taskStart id) .taskStart fun st => st.vault = s.vault ∧
        (∃ t', tabGet st.tasks id = some t' ∧ t'.st = .running) ∧
        ∀ e ∈ t.gangs, let gg := gangOf st e.1
          gg.seq = .issuing ∧ gg.pc = t.entry ∧ gg.task = id ∧ gg.ctx = t.ctx ∧ gg.width = t.width ∧ gg.dmem = t.dmem ∧
            gg.tctl.event = t.event ∧ gg.handler = false ∧ bundleAt st e.1 s.now) ∧
    (∀ s', s' = (if s.phase = .service ∨ s.phase = .merging then decide64 s else s) →
      exec .dispatchDecision s = .next (postEv s' (s'.now + 64) ordInput 0 none .dispatchDecision .none)) ∧
    (∀ fs x, bestCand fs = some x → x ∈ fs ∧ ∀ y ∈ fs, candBetter y.1 x.1 = false) ∧
    (∀ (slot : Nat) i r rec, s.timeTable = [(i, r)] → r.e.valid = true → r.active = false → r.held = false →
      ((slot : Int) - r.e.offset) % r.e.period = 0 → ctxState s r.ctx = .running →
      checkRecord s r.ctx r.e.record false = .ok rec →
      handles s (.timeTableFiring slot) .timeTableFiring fun st => steady s st ∧
        st.cands = s.cands ++ [⟨r.ctx, r.e.queue, queuePrio s r.ctx r.e.queue, 1, i, rec, nextDecision s.now, 0, none⟩] ∧
        st.timeTable = [(i, { r with active := true })] ∧
        eventAt st (clockReaches s ((slot + 1) * (1000 * s.ttGran))) .timeTableFiring (.timeTableFiring (slot + 1)))

/-- 16_context R365, R366, 17_page R401, 18_link R414, R421, 21_marker R461 to R468: each command is refused with BADSTATE
in the states that do not take it, and has its effect in one that does. The edge of FREEZE (log 37), BADARG for
operands no rule names (log 63, log 64, log 91, log 94) and the counts of a new communicator (log 71) are the model's; so are
the phases that take START, RESUME, STEP and COMM.SET (log 145), what PG.INVAL opens and does on slabs that no gang drives
(log 136), CYCBASE at CREATE (log 93), RUNNING from a resume's acceptance (log 66) and that MK.READ takes the oldest
records (log 95). -/
def Obligations.ContextCommands : Prop :=
  ∀ (s : State) (c : Nat), c < 256 →
    let k := ctxOf s c
    let parked := ctxState s c ∈ parkedStates
    let res := ctxState s c ∈ residentStates
    (∀ o us kinds n i b a x g w base en tr ix vpn t num gn code m rs r rg te,
      ∀ q ∈ [(⟨.create c o, .create, [.free]⟩ : CommandRow), ⟨.loaddone c, .loaddone, [.loading]⟩,
        ⟨.start c, .start, [.loading, .ready]⟩, ⟨.quiesce c kinds us, .quiesce, [.running]⟩,
        ⟨.freeze c, .freeze, [.running, .quiescing]⟩, ⟨.resume c, .resume, parkedStates⟩, ⟨.stepCmd c n, .stepCmd, parkedStates⟩,
        ⟨.kill c, .kill, residentStates⟩, ⟨.release c, .release, [.dead]⟩, ⟨.bkSet c i b, .bkSet, residentStates⟩,
        ⟨.bkClear c i, .bkClear, residentStates⟩, ⟨.trArm c a, .trArm, residentStates⟩, ⟨.smpSet c x, .smpSet, residentStates⟩,
        ⟨.mkRead c g n, .mkRead, .dead :: residentStates⟩, ⟨.winSet c w base en, .winSet, residentStates⟩,
        ⟨.exportImage c tr, .exportImage, parkedStates⟩, ⟨.restore c ix tr, .restore, [.free]⟩,
        ⟨.pgInval c vpn n us, .pgInval, pageStates⟩, ⟨.pgMigrate c vpn t r gn us, .pgMigrate, pageStates⟩,
        ⟨.pgAnswer c num gn code, .pgAnswer, pageStates⟩, ⟨.commSet c m rs, .commSet, [.loading, .ready, .quiesced]⟩,
        ⟨.ringSet c r rg, .ringSet, [.loading, .ready, .quiesced]⟩, ⟨.ttSet c i te, .ttSet, residentStates⟩],
      s.arg = q.arg → ctxState s c ∉ q.st → exec q.ins s = .next (answer s c 1 0)) ∧
    (∀ o, ctxState s c = .free →
      (createSound o → handles s (.create c o) .create fun st => steady s st ∧ answered st c 0 ∧
        ctxOf st c = { Ctx.free with
          st := .loading, gen := (k.gen + 1) % 2 ^ 32, ops := o, nkeys := (o.keys.getD []).length, root := newRoot s,
          cycBase := s.now }) ∧
      (¬ createSound o → s.arg = .create c o → exec .create s = .next (answer s c 2 0))) ∧
    (ctxState s c = .loading → s.arg = .loaddone c →
      exec .loaddone s = .next (answer (modCtx s c fun k => { k with st := .ready }) c 0 0)) ∧
    (s.phase ≠ .merging → s.phase ≠ .service →
      ∀ q ∈ [(⟨.start c, .start, []⟩ : CommandRow), ⟨.resume c, .resume, []⟩, ⟨.stepCmd c 1, .stepCmd, []⟩],
        s.arg = q.arg → exec q.ins s = .next (answer s c 1 0)) ∧
    (s.phase = .merging ∨ s.phase = .service → ctxState s c = .loading ∨ ctxState s c = .ready →
      handles s (.start c) .start fun st => steady s st ∧ answered st c 0 ∧ ctxState st c = .running ∧
        (ctxOf st c).boundary.isSome = true ∧ (ctxOf st c).undo = [] ∧ (ctxOf st c).cycBase = s.now) ∧
    (∀ kinds us, ctxState s c = .running → 0 < us → us < 2 ^ 32 →
      handles s (.quiesce c kinds us) .quiesce fun st => steady s st ∧ answered st c 0 ∧ ctxState st c = .quiescing ∧
        (ctxOf st c).quiesce = some (kinds, s.now + usCycles s us) ∧ eventAt st s.now .quiesceCut (.quiesceCut c) ∧
        eventAt st (s.now + usCycles s us) .quiesceBoundExpiry (.quiesceBoundExpiry c)) ∧
    (ctxState s c = .running ∨ ctxState s c = .quiescing → k.edge = none →
      handles s (.freeze c) .freeze fun st => steady s st ∧ answered st c 0 ∧ ∃ f, s.now + 64 ≤ f ∧ edgeAt st c f) ∧
    (s.phase = .merging ∨ s.phase = .service → parked → k.needRollback = false →
      handles s (.resume c) .resume fun st => steady s st ∧ answered st c 0 ∧ ctxState st c = .running ∧
        (ctxOf st c).faults = [] ∧ ∃ g, resumesAt s st c g) ∧
    (∀ n, s.phase = .merging ∨ s.phase = .service → parked → k.needRollback = false → 0 < n → n < 2 ^ 32 →
      handles s (.stepCmd c n) .stepCmd fun st => steady s st ∧ answered st c 0 ∧ ctxState st c = .running ∧
        ∃ g, resumesAt s st c g ∧ (ctxOf st c).stepEdge = some (g + n) ∧ eventAt st (g + n) .stepStopEdge (.stepStopEdge c)) ∧
    (res → handles s (.kill c) .kill fun st => steady s st ∧ answered st c 0 ∧ ctxState st c = .dead ∧
      (∀ e ∈ st.gangs, e.2.ctx ≠ c) ∧ (∀ e ∈ st.tasks, e.2.ctx ≠ c)) ∧
    (ctxState s c = .dead → handles s (.release c) .release fun st => steady s st ∧ answered st c 0 ∧
      ctxOf st c = { Ctx.free with gen := k.gen } ∧ ∀ e ∈ st.timeTable, e.2.ctx ≠ c) ∧
    (∀ i b, res → i < 8 → b.kind ≠ 0 → b.count ≤ 65535 → (b.kind = 1 → (BitVec.ofNat 64 (ctxCyc s c)).toNat + 64 ≤ b.value.toNat) →
      handles s (.bkSet c i b) .bkSet fun st => steady s st ∧ answered st c 0 ∧
        tabGet (ctxOf st c).bps i = some { b with count := max 1 b.count }) ∧
    (∀ i, res → i < 8 → handles s (.bkClear c i) .bkClear fun st => steady s st ∧ answered st c 0 ∧
      tabGet (ctxOf st c).bps i = none) ∧
    (∀ a j, res → 0 < a.thr → a.thr < 2 ^ 31 → 8 ≤ j → j ≤ 16 → a.tlen = 2 ^ j →
      handles s (.trArm c a) .trArm fun st => steady s st ∧ answered st c 0 ∧
        (ctxOf st c).trace = if Config.developmentModule then some ⟨a, none, a.tlen, 0, 0⟩ else k.trace) ∧
    (∀ x, res → 10 ≤ x.k → x.k ≤ 30 → 4 ≤ x.logsize → x.logsize ≤ 20 →
      handles s (.smpSet c (some x)) .smpSet fun st => steady s st ∧ answered st c 0 ∧
        (ctxOf st c).sampler = some ⟨x, x.head, x.head, 0⟩ ∧
        ∃ y, eventAt st y .sampleTick (.sampleTick c) ∧ (y + ctxAhead s c) % 2 ^ x.k = 0 ∧ s.now < y ∧ y ≤ s.now + 2 ^ x.k) ∧
    (res → handles s (.smpSet c none) .smpSet fun st => steady s st ∧ answered st c 0 ∧ (ctxOf st c).sampler = none) ∧
    (∀ g n, ctxState s c ≠ .free → handles s (.mkRead c g n) .mkRead fun st => steady s st ∧ answered st c 0 ∧
      .markers c ((tabGetD [] k.markers g).take n) ∈ st.out ∧
      tabGetD [] (ctxOf st c).markers g = (tabGetD [] k.markers g).drop n) ∧
    (∀ w base en, res → w < 256 → base.toNat % 2 ^ 32 = 0 →
      handles s (.winSet c w base en) .winSet fun st => steady s st ∧ answered st c 0 ∧
        tabGet st.windows w = some (base, c, en)) ∧
    (∀ tr, parked → handles s (.exportImage c tr) .exportImage fun st => steady s st ∧ st.ctxs = s.ctxs ∧
      .command c 0 s.images.length ∈ st.out ∧ ∃ x, st.images = s.images ++ [x] ∧ x.transport = tr ∧
        x.ctx = { ctxOf (inCounts s c) c with ptes := [], openLeaves := [] } ∧ (ctxAhead s c = 0 → inCounts s c = s)) ∧
    (∀ ix tr x, ctxState s c = .free → s.images[ix]? = some x → handles s (.restore c ix tr) .restore fun st =>
      if imageCode s x tr ≠ 0 then st = answer s c (imageCode s x tr) 0
      else if restoreImage s c x = none then st = answer s c 8 0
      else answered st c 0 ∧ (ctxOf st c).gen = (k.gen + 1) % 2 ^ 32 ∧
        ctxState st c = (if ∀ e ∈ x.tiles.gangs, e.2.seq = .stopped then .quiesced else .frozen)) ∧
    (∀ vpn n us, ctxState s c ∈ pageStates →
      (¬ gangPins s c vpn n → idleTiles s c = [] → handles s (.pgInval c vpn n us) .pgInval fun st => steady s st ∧
        answered st c 0 ∧ st.slabs = s.slabs ∧ st.gangs = s.gangs ∧ (ctxOf st c).ptes = k.ptes) ∧
      (¬ gangPins s c vpn n → handles s (.pgInval c vpn n us) .pgInval fun st => st.vault = s.vault ∧ answered st c 0 ∧
        ∀ t ∈ heldTiles st c, ∀ e ∈ (slabOf st t).pins, ∀ p ∈ e.2, vpn ≤ p.vpn → p.vpn < vpn + n →
          p.key ∈ (ctxOf st c).openLeaves) ∧
      (gangPins s c vpn n → handles s (.pgInval c vpn n us) .pgInval fun st => st.vault = s.vault ∧
        ∃ i, (ctxOf st c).invals = k.invals ++ [i] ∧ i.vpn = vpn ∧ i.count = n ∧ i.deadline = s.now + usCycles s us ∧
          eventAt st (s.now + usCycles s us) .invalTimeout (.invalTimeout c))) ∧
    (∀ vpn t gn us l f, s.memWf → idleTiles s c = [] → ctxState s c ∈ pageStates → namesTile t = true → walk k vpn = some l → l.home ≠ t →
      let v0 := (pageSpan k vpn l).1
      let n := (pageSpan k vpn l).2
      ¬ gangPins s c v0 n → freeRun s t n = some f →
      handles s (.pgMigrate c vpn t 0xFFFF gn us) .pgMigrate fun st => st.mem = s.mem ∧ answered st c 0 ∧
        (∀ j < n * 4096, memRead st.vault (vaultKey t f j) = memRead s.vault (vaultKey l.home (l.frame - (vpn - v0)) j)) ∧
        ∀ a, (a < vaultKey t f 0 ∨ vaultKey t f 0 + n * 4096 ≤ a) → memRead st.vault a = memRead s.vault a) ∧
    (∀ num gn code, ctxState s c ∈ pageStates → code ≠ 0 →
      (∀ t i r, namedReq s c gn num = some (t, i, r) →
        (r.st = .hostPending → handles s (.pgAnswer c num gn code) .pgAnswer fun st => steady s st ∧
          answered st c 0 ∧ tabGet (slabOf st t).requests i = none) ∧
        (r.st ≠ .hostPending → s.arg = .pgAnswer c num gn code → exec .pgAnswer s = .next (answer s c 0 0))) ∧
      (namedReq s c gn num = none → s.arg = .pgAnswer c num gn code →
        exec .pgAnswer s = .next (answer { s with staleAns := s.staleAns + 1 } c 0 0))) ∧
    (∀ m rs, s.phase = .service → ctxState s c ∈ [.loading, .ready, .quiesced] → m < 64 → rs ≠ [] → rs.length ≤ 4096 →
      rs.Nodup → (∀ r ∈ rs, r.1 < 256 ∧ namesTile r.2 = true) →
      handles s (.commSet c m rs) .commSet fun st => steady s st ∧ answered st c 0 ∧
        tabGet (ctxOf st c).comms m = some rs ∧ ∀ i ∈ (ctxOf st c).colls, i.comm ≠ m) ∧
    (∀ r x, ctxState s c ∈ [.loading, .ready, .quiesced] → r < 64 → 4 ≤ x.logsize → x.logsize ≤ 16 → 0 < x.count →
      x.count ≤ 65535 → x.timeUs ≤ 65535 →
      handles s (.ringSet c r x) .ringSet fun st => steady s st ∧ answered st c 0 ∧
        ∃ h, tabGet (ctxOf st c).rings r = some h ∧ h.set = x ∧ h.head = x.head % 2 ^ 32 ∧ h.tail = h.head ∧ h.drops = 0 ∧
          h.entries = []) ∧
    (∀ i e, res → i < 256 → e.queue < 1024 → e.record % 64 = 0 → 0 < e.period → e.period < 2 ^ 32 → e.offset < 2 ^ 32 →
      (∀ n, e.gran = some n → 1 ≤ n ∧ n ≤ 65535) → (∀ r, tabGet s.timeTable i = some r → r.e.valid = false ∨ r.ctx = c) →
      handles s (.ttSet c i e) .ttSet fun st => steady s st ∧ answered st c 0 ∧
        (∀ n, e.gran = some n → st.ttGran = n) ∧ ∃ r, tabGet st.timeTable i = some r ∧ r.e = e ∧ r.ctx = c) ∧
    (∀ o,
      (ctxState s c ∉ [.loading, .ready, .quiesced] → s.arg = .loadObject c o →
        exec .loadObject s = .next (tell s (.load c 14))) ∧
      (ctxState s c ∈ [.loading, .ready, .quiesced] → handles s (.loadObject c o) .loadObject fun st =>
        match loadSteps s c o with
        | .error e => st = tell s (.load c (loadWord e))
        | .ok (s', h) => st = tell s' (.load c (BitVec.ofNat 64 (h * 2 ^ 32)))))

/-- 04_scalar R90, 18_link R411 to R415, 17_page R390, R396: what the host does through its ports: a mailbox write is seen
at once where no tile issues and held for the next segment elsewhere, a doorbell becomes an event of an EVENT gang, a
window reaches the vault through the page table, a leaf is written unless it is pinned and no invalidation has opened it
(log 136). A disabled window as an absent page, reads of read-only pages (log 96), and a doorbell's place after the events of
tiles (log 68) are the model's reading. -/
def Obligations.HostPortAccesses : Prop :=
  ∀ (s : State),
    (∀ t i v, (tabGet s.gangs t).isSome = true → (gangOf s t).seq ≠ .idle →
      let st0 := ctxState s (gangOf s t).ctx
      (st0 ∈ [.loading, .ready, .quiesced, .frozen] →
        handles s (.hostMailboxWrite t i v) .hostMailboxWrite fun st => steady s st ∧
          tabGet (gangOf st t).mbx i.toNat = some v) ∧
      (st0 ∉ [.loading, .ready, .quiesced, .frozen] →
        handles s (.hostMailboxWrite t i v) .hostMailboxWrite fun st => steady s st ∧ (gangOf st t).mbx = (gangOf s t).mbx ∧
          tabGet (gangOf st t).mbxPend i.toNat = some v)) ∧
    (∀ t i v, tabGet s.gangs t = none → s.arg = .hostMailboxWrite t i v →
      exec .hostMailboxWrite s = .next { s with dropMbx := s.dropMbx + 1 }) ∧
    (∀ port t v g, (slabOf s t).gang = some g → takesEvents s g → (gangOf s g).tctl.event = true →
      handles s (.doorbellWrite port t v) .doorbellWrite fun st => steady s st ∧
        eventPending s st g 0x10000 (eventWord 0 (BitVec.ofNat 16 port) (v.setWidth 40))) ∧
    (∀ port t v, (slabOf s t).gang = none ∨ (∃ g, (slabOf s t).gang = some g ∧ (gangOf s g).tctl.event = false) →
      s.arg = .doorbellWrite port t v → exec .doorbellWrite s = .next { s with dropDb := s.dropDb + 1 }) ∧
    (∀ w off bs base c l, s.memWf → off + bs.length ≤ 2 ^ 32 → tabGet s.windows w = some (base, c, true) →
      let va := base.toNat + off
      let key := vaultKey l.home l.frame (va % 4096 / 64 * 64)
      walk (ctxOf s c) (va / 4096) = some l → bs ≠ [] → va % 64 + bs.length ≤ 64 →
      (l.w = true → (∃ e ∈ (ctxOf s c).undo, e.1 = key) →
        handles s (.hostWindowWrite w off bs) .hostWindowWrite fun st => st.mem = s.mem ∧
          (∀ i < bs.length, some (memRead st.vault (vaultKey l.home l.frame (va % 4096 + i))) = bs[i]?) ∧
          ∀ a, (a < vaultKey l.home l.frame (va % 4096) ∨ vaultKey l.home l.frame (va % 4096) + bs.length ≤ a) →
            memRead st.vault a = memRead s.vault a) ∧
      (l.w = false → s.arg = .hostWindowWrite w off bs →
        exec .hostWindowWrite s = .next { s with dropWin := s.dropWin + 1 })) ∧
    (∀ w off n base c, tabGet s.windows w = some (base, c, true) → off + n ≤ 2 ^ 32 → s.arg = .hostWindowRead w off n →
      exec .hostWindowRead s = .next (tell s (.windowRead ((List.range n).map fun i =>
        let va := base.toNat + off + i
        match walk (ctxOf s c) (va / 4096) with
        | some l => if l.w then memRead s.vault (vaultKey l.home l.frame (va % 4096)) else 0xFF
        | none => 0xFF)))) ∧
    (∀ c level va entry,
      let vpn := va / 4096
      let k := ctxOf s c
      let writable (key : Nat) : Prop := pinnedBelow k level (tabGetD 0 k.ptes key) = false ∨
        (pteLeaf (tabGetD 0 k.ptes key) = true ∧ key ∈ k.openLeaves)
      (∀ key, pteKey k level vpn = some key → writable key →
        handles s (.hostLeafWrite c level va entry) .hostLeafWrite fun st => steady s st ∧
          ∃ e, tabGet (ctxOf st c).ptes key = some e ∧ e.extractLsb' 47 12 = (tabGetD 0 k.ptes key).extractLsb' 47 12 ∧
            e.extractLsb' 0 47 = entry.extractLsb' 0 47 ∧ e.extractLsb' 59 5 = entry.extractLsb' 59 5) ∧
      ((∀ key, pteKey k level vpn = some key → ¬ writable key) → s.arg = .hostLeafWrite c level va entry →
        exec .hostLeafWrite s = .next (tell s (.report 396 va))))

/-- 16_context R372 to R377, R386, 17_page R403, 19_tile R440 to R444, 20_fault R447 to R459, 21_marker R464 to R468: what
the service controller's events do. Resume cycles and edges beyond the stated minimum are free (log 10), as a dump's size is
(log 19); counting microseconds in cycles is the model's (log 114), and so are when a heartbeat starts (log 115), a beacon's
correction of a tile that no gang drives (log 116), the counting of CYCLE breakpoints (log 91) and their notices (log 151), no
boundary while an edge stands (log 148) or before a point is reached (log 119), what the replay queue holds (log 60), and what
becomes of a context whose dump meets errors (log 152). -/
def Obligations.ServiceEvents : Prop :=
  ∀ (s : State) (c : Nat),
    let k := ctxOf s c
    let calm := k.resumeAt = none ∧ k.edge = none
    (∀ g, (tabGet s.gangs g).isSome = true → (gangOf s g).seq = .issuing →
      ctxState s (gangOf s g).ctx = .running →
      handles s (.heartbeat g) .heartbeat fun st => steady s st ∧ (gangOf st g).lastBeat = s.now ∧
        eventAt st (s.now + 2 ^ 20 + 4096) .heartbeatTimeout (.heartbeatTimeout g) ∧
        eventAt st (s.now + (2 ^ 20 - (tileCyc s g).toNat % 2 ^ 20)) .heartbeat (.heartbeat g)) ∧
    (∀ g dl t, (tabGet s.gangs g).isSome = true → (gangOf s g).seq = .waiting → (gangOf s g).ctx = c → runsFree s c →
      (gangOf s g).waits = [.cycwait t] → k.ops.waitdl = some dl → 0 < dl → dl ≤ s.now - (gangOf s g).waitStart →
      handles s (.heartbeat g) .heartbeat fun st => steady s st ∧ faultIs s st c 19 0 ∧ edgeAt st c (s.now + 64)) ∧
    (∀ g, (tabGet s.gangs g).isSome = true → (gangOf s g).seq = .issuing → (gangOf s g).ctx = c → runsFree s c →
      ((gangOf s g).lastBeat + (2 ^ 20 + 4096) ≤ s.now →
        handles s (.heartbeatTimeout g) .heartbeatTimeout fun st => steady s st ∧ faultIs s st c 18 0 ∧
          ∃ f, s.now + 64 ≤ f ∧ edgeAt st c f) ∧
      (s.now < (gangOf s g).lastBeat + (2 ^ 20 + 4096) → s.arg = .heartbeatTimeout g →
        exec .heartbeatTimeout s = .next s)) ∧
    ((s.phase = .service → ∃ st, exec .bellwetherRoundStart s = .next st ∧ steady s st ∧ st.gangs = s.gangs ∧
        eventAt st (s.now + 1) .beaconReceive (.beaconReceive 0 (BitVec.ofNat 64 (islandCyc s 0)) 1) ∧
        eventAt st (s.now + 4096) .bellwetherRoundStart .none) ∧
      (s.phase ≠ .service → exec .bellwetherRoundStart s = .next s)) ∧
    (∀ t b l, s.phase = .service →
      let y := tileCyc s t
      let d := (y - (b + BitVec.ofNat 64 l)).toInt
      d ≤ 32767 → -32768 ≤ d →
      handles s (.beaconReceive t b l) .beaconReceive fun st => steady s st ∧
        (∀ x ∈ beaconTargets t, eventAt st (s.now + 1 + x.2) .beaconReceive (.beaconReceive x.1 (y + 1 - BitVec.ofInt 64 d) x.2)) ∧
        (d = 0 → st.gangs = s.gangs ∧ st.slabs = s.slabs) ∧
        (d ≠ 0 → (slabOf s t).gang = none → (slabOf st t).skew = (slabOf s t).skew - d) ∧
        (∀ g, d ≠ 0 → (slabOf s t).gang = some g → (tabGet s.gangs g).isSome = true →
          (gangOf st g).tst.drift = true ∧ (gangOf st g).tst.diff = BitVec.ofInt 16 d ∧
            ((gangOf s g).seq = .issuing → (gangOf s g).tst.drift = false → (gangOf s g).ctx = c → runsFree s c →
              faultIs s st c 14 1))) ∧
    (∀ g m, k.sampler = some m → m.set.rect = none → ctxGangs s c = [g] → ctxState s c = .running → k.resumeAt = none →
      handles s (.sampleTick c) .sampleTick fun st => steady s st ∧
        (∃ y, eventAt st y .sampleTick (.sampleTick c) ∧ s.now < y ∧ (y + ctxAhead s c) % 2 ^ m.set.k = 0) ∧
        if 2 ^ m.set.logsize ≤ sampleUsed m then (ctxOf st c).sampler = some { m with drops := m.drops + 1 }
        else (ctxOf st c).sampler = some { m with tail := (m.tail + 1) % 2 ^ 32 } ∧
          .sample c (islandCyc s g) g ((gangOf s g).seq = .waiting || endsWaiting s g) m.tail (countersNow s g) ∈ st.out) ∧
    (∀ i t b, ctxState s c = .running → calm → tabGet k.bps i = some b →
      (b.kind ≠ 1 → handles s (.breakpointHit c i t) .breakpointHit fun st => steady s st ∧
        broken s st c i b.kind.toNat (s.now + 64)) ∧
      (b.kind = 1 → b.value = BitVec.ofNat 64 (ctxCyc s c) → b.count = 1 →
        handles s (.breakpointHit c i t) .breakpointHit fun st => steady s st ∧ broken s st c i 1 s.now) ∧
      (b.kind = 1 → b.value = BitVec.ofNat 64 (ctxCyc s c) → 1 < b.count →
        handles s (.breakpointHit c i t) .breakpointHit fun st => steady s st ∧ (ctxOf st c).edge = none ∧
          tabGet (ctxOf st c).bps i = some { b with count := b.count - 1 })) ∧
    (ctxState s c = .running → k.edge = none →
      (k.stepEdge = some s.now → handles s (.stepStopEdge c) .stepStopEdge fun st => steady s st ∧ edgeAt st c s.now ∧
        (ctxOf st c).stepEdge = none) ∧
      (k.stepEdge ≠ some s.now → s.arg = .stepStopEdge c → exec .stepStopEdge s = .next s)) ∧
    (noFillDue s → ctxState s c = .running →
      k.resumeAt = none → k.edge = some s.now → k.waferStop = false → k.needRollback = false →
      (k.faults = [] → handles s (.freezeEdge c) .freezeEdge fun st => steady s st ∧ ctxState st c = .frozen ∧
        (ctxOf st c).frozenAt = s.now ∧ (ctxOf st c).edge = none ∧
        (∀ g ∈ ctxGangs s c, (gangOf s g).seq ≠ .stopped → (gangOf s g).seq ≠ .frozen →
          (gangOf st g).seq = .frozen ∧ (gangOf st g).saved = (gangOf s g).seq ∧ (gangOf st g).pc = (gangOf s g).pc) ∧
        (∀ r ∈ k.breaks, .brk r ∈ st.out) ∧ (ctxOf st c).breaks = [] ∧
        (∀ e ∈ st.agenda, heldBy s c e = false) ∧ (∀ f ∈ st.frames, f.own.ctx ≠ c) ∧
        (ctxOf st c).replayQ = (s.agenda.filter (heldBy s c)).map (holdEv s c)) ∧
      (∀ r, k.faults = [r] → r.primary = true → r.cls < 15 → k.mustDump = false → s.dumpQueue = [] →
        handles s (.freezeEdge c) .freezeEdge fun st => steady s st ∧ .fault r ∈ st.out ∧
          ctxState st c = if (k.ops.hold.getD 0).getLsbD r.cls then .frozen else .dumping) ∧
      (∀ r i, k.faults = [r] → r.primary = true → r.cls = 20 → k.mustDump = false → k.invals = [i] → i.expired = true →
        i.told = false →
        handles s (.freezeEdge c) .freezeEdge fun st => steady s st ∧ .fault r ∈ st.out ∧ answered st c 3 ∧
          ctxState st c = .frozen ∧ (ctxOf st c).invals = [{ i with told := true }])) ∧
    (∀ e : MemError,
      (e.cause = 0 → s.arg = .uncorrectableErrorDetect e →
        exec .uncorrectableErrorDetect s = .next { s with softErrors := s.softErrors + 1 }) ∧
      (e.cause ≠ 0 → e.ctx = none → s.arg = .uncorrectableErrorDetect e →
        exec .uncorrectableErrorDetect s = .next { s with memErrors := s.memErrors + 1 }) ∧
      (e.cause ≠ 0 → e.ctx = some c → runsFree s c →
        handles s (.uncorrectableErrorDetect e) .uncorrectableErrorDetect fun st => steady s st ∧
          faultIs s st c 15 e.cause.toNat ∧ (ctxOf st c).needRollback = true ∧
          ∀ d, ctxState s d = .running → (ctxOf s d).edge = none → edgeAt st d (s.now + 64))) ∧
    (s.phase = .outOfService → handles s (.rollback c) .rollback fun st => steady s st ∧ st.ctxs = s.ctxs) ∧
    (s.phase ≠ .outOfService → ctxState s c = .frozen → k.needRollback = true →
      (∀ b, k.boundary = some b → k.replays < 4 → boundaryTaken s c b = true →
        handles s (.rollback c) .rollback fun st => steady s st ∧ ctxOf st c = k ∧ c ∈ st.rollQueue) ∧
      (∀ b, k.boundary = some b → k.replays < 4 → boundaryTaken s c b = false → b.queues = [] →
        handles s (.rollback c) .rollback fun st => .rollback c b.cut ∈ st.out ∧ (ctxOf st c).replays = k.replays + 1 ∧
          (ctxOf st c).needRollback = false ∧ (ctxOf st c).undo = [] ∧ ctxState st c = .running ∧
          (∃ g, s.now + 64 ≤ g ∧ (ctxOf st c).resumeAt = some g ∧ eventAt st g .contextResumeStart (.contextResumeStart c)) ∧
          st.vault = k.undo.foldl (fun v e => memPutLine v e.1 e.2) s.vault) ∧
      (k.boundary = none ∨ 4 ≤ k.replays → s.dumpQueue = [] →
        handles s (.rollback c) .rollback fun st => steady s st ∧ ctxState st c = .dumping)) ∧
    (∀ n, ctxState s c = .running → k.replayReq = false → k.ops.replayint = some (n + 1) → k.lastBoundary + n + 1 ≤ s.now →
      handles s (.replayRequest c) .replayRequest fun st => steady s st ∧ (ctxOf st c).replayReq = true ∧
        eventAt st s.now .replayBoundaryCut (.replayBoundaryCut c)) ∧
    (ctxState s c = .running → k.replayReq = true →
      (atCut s c 2 → cutPoint s c → k.quiesce = none → handles s (.replayBoundaryCut c) .replayBoundaryCut fun st => steady s st ∧
        (ctxOf st c).boundary.isSome = true ∧ (ctxOf st c).undo = [] ∧ (ctxOf st c).replays = 0 ∧
        (ctxOf st c).lastBoundary = s.now ∧ (ctxOf st c).replayReq = false ∧ ∃ g, s.now + 64 ≤ g ∧
        (ctxOf st c).resumeAt = some g) ∧
      (¬ (atCut s c 2 ∧ cutPoint s c) → s.arg = .replayBoundaryCut c →
        exec .replayBoundaryCut s = .next (postEv s (s.now + 1) (ordEnd - 1) c none .replayBoundaryCut (.replayBoundaryCut c)))) ∧
    (∀ m dl, ctxState s c = .quiescing → k.quiesce = some (m, dl) →
      (atCut s c m → handles s (.quiesceCut c) .quiesceCut fun st => steady s st ∧ ctxState st c = .quiesced ∧
        (ctxOf st c).quiesce = none ∧ (ctxOf st c).cycBase = s.now) ∧
      (¬ atCut s c m → s.arg = .quiesceCut c →
        exec .quiesceCut s = .next (postEv s (s.now + 1) ordEnd c none .quiesceCut (.quiesceCut c))) ∧
      (dl ≤ s.now → k.edge = none → handles s (.quiesceBoundExpiry c) .quiesceBoundExpiry fun st => steady s st ∧
        ∃ f, s.now + 64 ≤ f ∧ edgeAt st c f)) ∧
    (∀ i, k.invals = [i] → i.deadline ≤ s.now → i.expired = false → (gangOf s (i.gangs.headD 0)).ctx = c → runsFree s c →
      handles s (.invalTimeout c) .invalTimeout fun st => steady s st ∧ faultIs s st c 20 0 ∧
        (∃ f, s.now + 64 ≤ f ∧ edgeAt st c f) ∧ (ctxOf st c).invals = [{ i with expired := true, told := false }]) ∧
    (∀ i, k.invals = [i] → i.deadline ≤ s.now → i.expired = false → ctxState s c ∈ parkedStates →
      handles s (.invalTimeout c) .invalTimeout fun st => steady s st ∧ answered st c 3 ∧
        (ctxOf st c).invals = [{ i with expired := true, told := true }]) ∧
    ((s.gangs.map (·.1)).Nodup → k.resumeAt = some s.now → k.invals = [] → k.colls = [] → k.bps = [] →
      (∀ g ∈ ctxGangs s c, (gangOf s g).seq = .frozen) →
      handles s (.contextResumeStart c) .contextResumeStart fun st => steady s st ∧ (ctxOf st c).resumeAt = none ∧
        (ctxOf st c).replayQ = [] ∧
        (∀ e ∈ k.replayQ, ∃ e' ∈ st.agenda, e'.at_ = s.now + e.at_ ∧ e'.ord = e.ord ∧
          e'.own.map (·.gang) = e.own.map (·.gang)) ∧
        ∀ g ∈ ctxGangs s c, (gangOf st g).seq = (gangOf s g).saved ∧ (gangOf st g).pc = (gangOf s g).pc ∧
          (gangOf st g).origin = (gangOf s g).origin + BitVec.ofNat 64 s.now - BitVec.ofNat 64 k.cycBase) ∧
    (ctxState s c = .dumping →
      (Config.dumpSize s.freeCount ≤ k.ops.dumpBytes.getD 0 → 0 < k.ops.dumpBytes.getD 0 →
        handles s (.dumpWrite c) .dumpWrite fun st => steady s st ∧ ctxState st c = .dead ∧
          if Config.dumpKeyOk (k.ops.dumpKey.getD 0) then st.images.length = s.images.length + 1 ∧
            ∃ rs tr n, .dump c rs tr n s.images.length ∈ st.out ∧
              (unreadable s c = [] → tr = k.trunc ∧ n = k.droppedFaults ∧ ∀ r, r ∈ rs ↔ r ∈ k.faults) ∧
              (unreadable s c ≠ [] → (∀ r ∈ k.faults, r.nested = false) →
                ∃ r ∈ rs, r.cls = 15 ∧ r.cause = 1 ∧ r.nested = true ∧ r.depth = 1)
          else st.images = s.images ∧ ∀ r, primaryOf k = some r → { r with aux := 3 } ∈ st.flash) ∧
      (k.ops.dumpBytes.getD 0 = 0 → ∀ r, primaryOf k = some r →
        handles s (.dumpWrite c) .dumpWrite fun st => steady s st ∧ ctxState st c = .dead ∧ st.images = s.images ∧
          { r with aux := 2 } ∈ st.flash) ∧
      (∀ cause r, primaryOf k = some r →
        handles s (.dumpAbort c cause) .dumpAbort fun st => steady s st ∧ ctxState st c = .dead ∧
          { r with aux := cause.setWidth 64 } ∈ st.flash))

/-- 18_link R408 to R410, R418 to R420, R426: links train, stop and fail, and the pod transport delivers in order,
acknowledges and sends again; the module's time follows a two-step exchange or the host. Which frames an ACKSEQ releases and
the resends that count are the model's reading (log 104 to 107), and so is what the module's time is between two messages
(log 14). -/
def Obligations.LinkAndTransportEvents : Prop :=
  ∀ (s : State),
    (∀ l pass, seamFixed s l = false →
      (linkState s l = .down ∨ linkState s l = .failed →
        handles s (.linkTraining l pass) .linkTraining fun st => steady s st ∧ linkState st l = .training ∧ attemptDue s st l) ∧
      (linkState s l = .training → pass = true →
        handles s (.linkTraining l pass) .linkTraining fun st => steady s st ∧ linkState st l = .up) ∧
      (linkState s l = .training → pass = false → linkTries s l < 2 →
        handles s (.linkTraining l pass) .linkTraining fun st => steady s st ∧ linkState st l = .training ∧
          linkTries st l = linkTries s l + 1 ∧ attemptDue s st l) ∧
      (linkState s l = .training → pass = false → 2 ≤ linkTries s l →
        handles s (.linkTraining l pass) .linkTraining fun st => steady s st ∧ linkState st l = .failed)) ∧
    (∀ l, linkState s l = .up →
      (noneRuns s → handles s (.linkStop l) .linkStop fun st => steady s st ∧ linkState st l = .down) ∧
      (seamFixed s l = false →
        handles s (.linkUnrecoverableError l) .linkUnrecoverableError fun st => linkState st l = .failed) ∧
      (seamFixed s l = true → s.arg = .linkUnrecoverableError l → exec .linkUnrecoverableError s = .next s)) ∧
    (∀ l, linkState s l ≠ .up → (s.arg = .linkStop l → exec .linkStop s = .next s) ∧
      (s.arg = .linkUnrecoverableError l → exec .linkUnrecoverableError s = .next s)) ∧
    (∀ a b x, let l := LinkId.seam a b
      (s.arg = .seamBeatError l true x → exec .seamBeatError s = .next s) ∧
      ((∀ e ∈ s.seamErr, e.1 ≠ l) → handles s (.seamBeatError l false x) .seamBeatError fun st => steady s st ∧
        st.links = s.links ∧ eventAt st s.now .uncorrectableErrorDetect (.uncorrectableErrorDetect ⟨5, x, a, 0, 0xFF, 0, 0⟩)) ∧
      (∀ n, 1 ≤ n → s.seamErr = [(l, n)] → handles s (.seamBeatError l false x) .seamBeatError fun st => steady s st ∧
        st.links = s.links ∧ eventAt st (s.now + 64) .linkUnrecoverableError (.linkUnrecoverableError l))) ∧
    (∀ p f, frameTaken s p f →
      (f.crcOk = true → f.kind = 1 → f.seq = (portOf s p).recvSeq →
        handles s (.transportDataReceive p f) .transportDataReceive fun st =>
          (portOf st p).recvSeq = f.seq + 1 ∧ replyFrame s p 2 f (f.seq + 1) ∈ st.out ∧
          (¬ jobKnown s f → steady s st ∧ st.dropJob = s.dropJob + 1 ∧ (portOf st p).inbox = (portOf s p).inbox) ∧
          (jobKnown s f → st.dropJob = s.dropJob) ∧
          (jobKnown s f →
            (let own := ((portOf s p).inbox.filter fun x => x.1 = f.job).map (·.2) ++ [f.payload]
             Config.contributionIn own = none ∧
               Config.contributionIn ((portsBeside p).flatMap (inboxOf s f.job) ++ own) = none) →
            steady s st ∧ (portOf st p).inbox = (portOf s p).inbox ++ [(f.job, f.payload)])) ∧
      (f.crcOk = false → s.arg = .transportDataReceive p f →
        exec .transportDataReceive s = .next (tell s (replyFrame s p 3 f (portOf s p).recvSeq))) ∧
      (f.crcOk = true → f.kind = 1 → f.seq ≠ (portOf s p).recvSeq → ∀ s', jobCounted s s' f →
        s.arg = .transportDataReceive p f →
        exec .transportDataReceive s = .next (tell s' (replyFrame s p 3 f (portOf s p).recvSeq))) ∧
      (f.crcOk = true → f.kind ≠ 1 → s.arg = .transportDataReceive p f → exec .transportDataReceive s = .next s) ∧
      (∀ q0 q, f.crcOk = true → f.kind = 2 → jobKnown s f → (portOf s p).unacked = q0 :: q →
        let n := (f.ackseq - q0.1).toNat
        0 < n → n ≤ q.length + 1 →
        handles s (.transportAckReceive p f) .transportAckReceive fun st => steady s st ∧
          (portOf st p).unacked = (q0 :: q).drop n ∧
          (∀ e ∈ (q0 :: q).drop n, resendsOf st p e.1 = resendsOf s p e.1) ∧
          ∀ x ∈ (portOf st p).resends, ∃ e ∈ (q0 :: q).drop n, e.1.toNat = x.1) ∧
      (f.crcOk = false ∨ f.kind ≠ 2 → s.arg = .transportAckReceive p f → exec .transportAckReceive s = .next s) ∧
      (f.crcOk = true → f.kind = 2 → ¬ jobKnown s f → s.arg = .transportAckReceive p f →
        exec .transportAckReceive s = .next { s with dropJob := s.dropJob + 1 }) ∧
      (∀ q0 q, f.crcOk = true → f.kind = 3 → jobKnown s f → (portOf s p).unacked = q0 :: q → f.ackseq = q0.1 → mayResend s p →
        handles s (.transportNakReceive p f) .transportNakReceive fun st => steady s st ∧ sentAgain s st p) ∧
      (f.crcOk = false ∨ f.kind ≠ 3 → s.arg = .transportNakReceive p f → exec .transportNakReceive s = .next s) ∧
      (f.crcOk = true → f.kind = 3 → ¬ jobKnown s f → s.arg = .transportNakReceive p f →
        exec .transportNakReceive s = .next { s with dropJob := s.dropJob + 1 })) ∧
    (∀ p f, ¬ frameTaken s p f →
      (s.arg = .transportDataReceive p f → exec .transportDataReceive s = .next s) ∧
      (s.arg = .transportAckReceive p f → exec .transportAckReceive s = .next s) ∧
      (s.arg = .transportNakReceive p f → exec .transportNakReceive s = .next s)) ∧
    (∀ p, linkState s (.scale p) = .up → (portOf s p).unacked ≠ [] →
      (mayResend s p → handles s (.transportResendTimeout p (portOf s p).epoch) .transportResendTimeout fun st =>
        steady s st ∧ sentAgain s st p) ∧
      (¬ mayResend s p → handles s (.transportResendTimeout p (portOf s p).epoch) .transportResendTimeout fun st =>
        linkState st (.scale p) = .failed)) ∧
    (∀ p e, e ≠ (portOf s p).epoch ∨ linkState s (.scale p) ≠ .up → s.arg = .transportResendTimeout p e →
      exec .transportResendTimeout s = .next s) ∧
    (let set (n : Nat) (st : State) : Prop := steady s st ∧ st.moduleTime = n ∧ st.timeAt = s.now ∧ st.timeLocked = true ∧ st.ptp = none
     (∀ n, s.timeSource = .hostPort → handles s (.ptpMessage .hostPort (.ptm n)) .ptpMessage (set n)) ∧
     (∀ p q, s.timeSource = .scalePort p →
       (s.arg = .ptpMessage (.scalePort p) (.sync q) →
         exec .ptpMessage s = .next { s with ptp := some ⟨q, none, clockAt s s.now, none⟩ }) ∧
       (∀ sent came asked, s.ptp = some ⟨q, none, came, asked⟩ → s.arg = .ptpMessage (.scalePort p) (.followUp q sent) →
         exec .ptpMessage s =
           .next (tell { s with ptp := some ⟨q, some sent, came, some (clockAt s s.now)⟩ } (.delayReq p q))) ∧
       (∀ sent came asked received : Nat, s.ptp = some ⟨q, some sent, came, some asked⟩ →
         handles s (.ptpMessage (.scalePort p) (.delayResp q received)) .ptpMessage
           (set ((clockAt s s.now : Int) - (((came : Int) - sent) - (received - asked)) / 2).toNat)))) ∧
    (∀ src m, src ≠ s.timeSource → s.arg = .ptpMessage src m → exec .ptpMessage s = .next s) ∧
    (s.timeSource ≠ .freeRunning →
      exec .timeSourceLoss s = .next (tell { s with timeLocked := false, ptp := none } .timeLost)) ∧
    (s.timeSource = .freeRunning → exec .timeSourceLoss s = .next s ∧
      ∀ src m, s.arg = .ptpMessage src m → exec .ptpMessage s = .next s) ∧
    (∀ x, s.arg = .timeSourceSelect x →
      exec .timeSourceSelect s = .next { s with timeSource := x, timeLocked := false, ptp := none })

/-- 01_wafer R14 to R19, R25, 19_tile R429 to R439: power-on, self-test, the merging of islands, the binding map and its
changes, reinstatement, voltage, power-off. Outcomes of tests and training are free (log 20); when a merge ends, GEN,
lanes of a moved tile, what power-off keeps and the first voltage are the model's (log 108 to 112, log 117), and so are when
SELFTEST begins and REMAP's BADSTATE (log 145), what a withheld edge is (log 113), the trim's period in cycles (log 114), the
fate of a RETIRING unit over a power cycle (log 161), and the bytes that a repair record signs (log 21). -/
def Obligations.BringUpAndUnits : Prop :=
  ∀ (s : State),
    (s.phase = .off → ∃ st, exec .powerOn s = .next st ∧ steady s st ∧ st.phase = .starting ∧
      st.islands = (List.range 48).map (fun r => [r]) ∧ st.ahead = [] ∧ st.powerCycle = s.powerCycle + 1 ∧
      st.units = (s.units.filter fun e => e.2.1 = .retired || e.2.1 = .retiring) ∧
      (∀ p < 4, linkState st (.host p) = .training) ∧ ∀ p < 64, linkState st (.scale p) = .training) ∧
    (s.phase ≠ .off → exec .powerOn s = .next s) ∧
    (∀ p < 4, s.phase = .starting → linkState s (.host p) = .training →
      (∀ q < 4, q ≠ p → linkState s (.host q) = .up ∨ linkState s (.host q) = .failed) →
      handles s (.linkTraining (.host p) true) .linkTraining fun st => steady s st ∧ st.phase = .selftest ∧
        ∀ r < 48, ∃ y a b, s.now < y ∧ eventAt st y .selftestResult (.selftestResult r a b)) ∧
    (∀ r bs bf, s.phase = .selftest → r < 48 → r ∉ s.tested →
      handles s (.selftestResult r bs bf) .selftestResult fun st => steady s st ∧ st.tested = s.tested ++ [r] ∧
        (∀ row < 11, ∀ col < 13, (unitOf s ⟨false, r, col, row⟩).1 ≠ .retired → (unitOf s ⟨false, r, col, row⟩).1 ≠ .retiring →
          (unitOf st ⟨false, r, col, row⟩).1 = if 13 * row + col ∈ bs then .retired else .spare) ∧
        (∀ row < 11, ∀ col < 13, ∀ n,
          (unitOf s ⟨false, r, col, row⟩ = (.retired, n) →
            unitOf st ⟨false, r, col, row⟩ = (.retired, if 13 * row + col ∈ bs then 0 else n + 1)) ∧
          (unitOf s ⟨false, r, col, row⟩ = (.retiring, n) →
            (unitOf st ⟨false, r, col, row⟩).1 = if 13 * row + col ∈ bs then .retired else .retiring)) ∧
        (s.tested.length < 47 → st.phase = .selftest) ∧
        (s.tested.length = 47 → st.phase = .merging ∧
          ∃ y, eventAt st y .dispatchDecision .none ∧ y % 64 = 0 ∧ s.now ≤ y ∧ y < s.now + 64)) ∧
    (∀ r bs bf, s.phase ≠ .selftest ∨ r ∈ s.tested → s.arg = .selftestResult r bs bf → exec .selftestResult s = .next s) ∧
    (∀ a b, s.phase = .merging → islandOf s a ≠ islandOf s b → noneRuns s →
      (∀ e ∈ s.ctxs, e.2.svcStop = false) → (∃ i ∈ s.islands, i ≠ islandOf s a ∧ i ≠ islandOf s b) →
      let rs := islandOf s a ++ islandOf s b
      let larger := max (s.now + tabGetD 0 s.ahead a) (s.now + tabGetD 0 s.ahead b)
      (s.now % 256 = 0 → handles s (.islandMerge a b) .islandMerge fun st => steady s st ∧ st.phase = .merging ∧
        st.islands = rs :: (s.islands.filter fun i => i != islandOf s a && i != islandOf s b) ∧
        ∀ t, islandCyc st t = if reticleOf t ∈ rs then (larger + 4095) / 4096 * 4096 else islandCyc s t) ∧
      (s.now % 256 ≠ 0 → s.arg = .islandMerge a b → exec .islandMerge s =
        .next (postEv s ((s.now / 256 + 1) * 256) (ordEnd + 1) 0 none .islandMerge (.islandMerge a b)))) ∧
    (∀ m, s.phase = .binding → handles s (.bindingMapWrite m) .bindingMapWrite fun st =>
      let digest := Config.sha512 (mapBytes s.bindGen m)
      let sound : Prop := mapOk s m = true ∧ keepsSpares s m = true ∧ Config.edVerify digest (Config.ed25519 digest) = true
      (sound → st.phase = .service ∧ st.binding = some m ∧ st.attested = some (digest, Config.ed25519 digest) ∧
        ∃ y, eventAt st y .bellwetherRoundStart .none ∧ s.now < y ∧ y ≤ s.now + 4096 ∧ (y + aheadOf s 0) % 4096 = 0) ∧
      (¬ sound → st.phase = .outOfService ∧ st.binding = s.binding)) ∧
    (∀ m, s.phase ≠ .binding → s.arg = .bindingMapWrite m → exec .bindingMapWrite s = .next s) ∧
    (∀ choice, s.binding = none ∨ s.phase ≠ .service → s.arg = .remap choice → exec .remap s = .next (answer s 0 1 0)) ∧
    (∀ m choice, s.binding = some m → s.phase = .service →
      (allParked s = false → s.arg = .remap choice → exec .remap s = .next { s with remapDue := true }) ∧
      (allParked s = true → handles s (.remap choice) .remap fun st =>
        let swapped := swapTiles s (s.slabs.map (·.1))
        (newSkips swapped m = none → st.phase = .outOfService) ∧
        (∀ sk, newSkips swapped m = some sk →
          let m' : BindingMap := { choice with skips := sk }
          let digest := Config.sha512 (mapBytes (s.bindGen + 1) m')
          let sound : Prop := mapOk swapped m' = true ∧ Config.edVerify digest (Config.ed25519 digest) = true
          (sound → st.binding = some m' ∧ st.bindGen = s.bindGen + 1) ∧
          (¬ sound → st.phase = .outOfService)))) ∧
    (∀ u (r : RepairRecord) n, unitOf s u = (.retired, n) →
      let sound : Prop := r.unit = u ∧ r.second = r.first + 1 ∧ r.second ≤ s.powerCycle ∧ s.powerCycle < r.first + n ∧
        Config.edVerify (Config.sha512 (repairBytes r)) r.sig = true
      (sound → handles s (.reinstatement u r) .reinstatement fun st => steady s st ∧ unitOf st u = (.spare, 0) ∧ u ∈ st.reinstated) ∧
      (¬ sound → s.arg = .reinstatement u r → exec .reinstatement s = .next s)) ∧
    (s.phase = .merging ∨ s.phase = .binding ∨ s.phase = .service → ∃ st, exec .voltageTrim s = .next st ∧ steady s st ∧
      eventAt st (s.now + usCycles s 1000) .voltageTrim .none ∧
      ∀ i < 768, let v := tabGetD 600 s.volts i
        560 ≤ v → v ≤ 660 → tabGetD 600 st.volts i = v ∨ tabGetD 600 st.volts i = max 560 (v - 5) ∨
          tabGetD 600 st.volts i = min 660 (v + 5)) ∧
    (s.phase ≠ .merging → s.phase ≠ .binding → s.phase ≠ .service → exec .voltageTrim s = .next { s with duty := 0 }) ∧
    (∀ x, let recent := s.stretch.filter fun e => s.now + s.withheld < e + 4096
      (x < 768 → recent.length < 2048 → handles s (.droopAlarm x) .droopAlarm fun st => steady s st ∧
        st.withheld = s.withheld + 1 ∧ st.stretch = recent ++ [s.now + s.withheld]) ∧
      (x < 768 → 2048 ≤ recent.length → s.arg = .droopAlarm x → exec .droopAlarm s = .next { s with stretch := recent }) ∧
      (768 ≤ x → s.arg = .droopAlarm x → exec .droopAlarm s = .next s)) ∧
    (∃ st, exec .powerOff s = .next st ∧ st.phase = .off ∧ st.mem = [] ∧ st.vault = [] ∧ st.gangs = [] ∧ st.ctxs = [] ∧
      st.units = s.units ∧ st.flash = s.flash ∧ st.bindGen = s.bindGen ∧ ∀ e ∈ st.agenda, e.instr = .powerOn)

/-- 02_bundle R31, 16_context R379, 06_region R139: a slot whose guard does not hold does nothing; in HANDLER a port that a
handler may not write is a control trap; and whatever a slot does, it leaves both memories, time, every other gang and every
slab outside its gang as they are, and unless it is a move it leaves every register and port too. -/
def Obligations.SlotGuardsAndFrame : Prop :=
  ∀ (s : State) (is : Issue) (i : Instr) (d : BitVec 10) (g : BitVec 5) (src : BitVec 9), s.issue = some is → i.wf = true →
    slotDest i = some d → slotGuardSrc i = some (g, src) →
    (guardHolds g (srcGang s is).p = false → exec i s = .next s) ∧
    (guardHolds g (srcGang s is).p = true → (gangOf s is.gang).handler = true → handlerMay d.toNat = false →
      exec i s = .next (modGang (fired s is d.toNat) is.gang fun gg => { gg with blk := { gg.blk with
        trap := some (gg.blk.trap.getD (if 263 ≤ d.toNat ∧ d.toNat ≤ 265 then 9 else 10, is.slot, d.toNat)) } })) ∧
    ∃ t, exec i s = .next t ∧ slotFrame s t is ∧ ((∀ g d src, i ≠ .registerWrite g d src) → registersKept s t is)

/-- 02_bundle R31, R40 to R48, 08_accumulator R218: words written out from the encodings decode to what they stand for, and
reserved ports and constant destinations are refused by name. -/
def Obligations.WordsDecode : Prop :=
  decodeSlot 0x010003 = .ok (.registerWrite 0 128 3) ∧
  decodeSlot 0x010580 = .ok (.add 0 0 384) ∧
  decodeSlot 0x900E80 = .ok (.registerWrite 18 7 128) ∧
  decodeSlot 0x000000 = .ok (.registerWrite 0 0 0) ∧
  decodeSlot 0x021C3C = .ok (.cycrd 0 60) ∧ decodeSlot 0x0A9A8D = .ok (.stW 1 1 141) ∧
  decodeSlot 0x039A44 = .ok (.viadd 0 68) ∧ decodeSlot 0x04C001 = .ok (.mxcall 0 1) ∧
  decodeSlot 0x050405 = .ok (.wfill 0 5) ∧ decodeSlot 0x050A07 = .ok (.watom 0 7) ∧
  refusesWord 0x00C003 .constantDest ∧ refusesWord 0x00E003 .constantDest ∧
  refusesWord 0x0100A4 .reservedSource ∧ refusesWord 0x00F003 .reservedDest ∧
  decodeMicro 5 0x3800000000000000 = .mstep 5 true false false ∧ decodeMicro 5 0x6000000000000000 = .mend 5 ∧
  decodeMicro 5 0x500000000000000C = .mloop 5 12

/-- 02_bundle R27 to R31, R53, 08_accumulator R218: decode and encode agree: every well-formed slot instruction has one word, which
decodes to it, as bits and as bytes; every word that decodes is that instruction's; microwords with no unused bit set and bundles
of eight slots come back whole. -/
def Obligations.EncodingRoundTrip : Prop :=
  (∀ i d, i.wf = true → slotDest i = some d → ∃ w bs, encodeSlot i = some w ∧ decodeSlot w = .ok i ∧ encodeBytes i = some bs ∧
    bs.length = 3 ∧ ∀ rest, decodeBytes (bs ++ rest) = .ok (i, rest)) ∧
  (∀ w i, decodeSlot w = .ok i → i.wf = true ∧ encodeSlot i = some w) ∧
  (∀ g w, microReserved w = false → encodeMicro (decodeMicro g w) = some w) ∧
  (∀ i w, encodeMicro i = some w → microReserved w = false ∧ ∃ g, decodeMicro g w = i) ∧
  (∀ h ws, ws.length = 8 → bundleHeader (encodeBundle h ws) = h ∧ bundleSlots (encodeBundle h ws) = ws)

/-- 02_bundle R33, 00_scope R10: a step runs the next slot of the bundle in hand, then that bundle's end; with no bundle
in hand it runs the first event of the agenda, at that event's cycle. Nothing due is a stop, and so is a word in hand
that is no slot. The agenda and the order of a bundle's slots are the model's own (log 16, log 123). -/
def Obligations.StepRunsTheNextWork : Prop :=
  ∀ (s : State),
    (∀ is k w rest i, s.issue = some is → is.words = (k, w) :: rest → decodeSlot w = .ok i →
      step s = exec i { s with issue := some { is with slot := k, trig := (w.extractLsb' 9 10).toNat, words := rest } }) ∧
    (∀ is, s.issue = some is → is.words = [] → step s = exec (.bundleIssue is.gang) s) ∧
    (∀ e rest, s.issue = none → s.agenda = e :: rest →
      step s = exec e.instr { s with now := max s.now e.at_, agenda := rest, own := e.own, arg := e.arg }) ∧
    (s.issue = none → s.agenda = [] → step s = .fault .idle) ∧
    (∀ is k w rest e, s.issue = some is → is.words = (k, w) :: rest → decodeSlot w = .error e →
      step s = .refused .reservedEncoding)

/-- 19_tile R429, 16_context R367, 03_element R69, R76: what reset leaves: power off and POWER_ON the one event due, every context
FREE, no gang with a task; and the values R69 and R76 give fmt and the bound registers of a front end that a task takes.  That
both memories are empty is the model's choice (log 6). -/
def Obligations.ResetState : Prop :=
  State.reset.phase = .off ∧ State.reset.issue = none ∧ State.reset.agenda.map (·.instr) = [.powerOn] ∧
  (∀ c, ctxState State.reset c = .free) ∧ (∀ g, tabGet State.reset.gangs g = none) ∧
  (∀ l, linkState State.reset l = .down) ∧ State.reset.binding = none ∧
  State.reset.memWf ∧ agendaSorted State.reset.agenda = true ∧
  (∀ c t w, let g := Gang.fresh c t w
    fmtWord g.fmt g.bd = 0x10000400 ∧ (∀ b < 8, tabGetD boundReset g.bd b = ⟨0xFF800000, 0x7F800000, 0⟩) ∧ g.p = 0 ∧
      g.loops = [] ∧ g.handler = false)

/-- 00_scope R7, 06_region R142, 09_window R231: both byte memories keep their canonical form (addresses strictly rising,
no entry equal to what an unlisted byte reads as) through every step that answers a next state. That an unlisted byte
reads 0 is the model's choice (log 6). -/
def Obligations.MemoryFormIsKept : Prop :=
  ∀ s t : State, s.memWf → step s = .next t → t.memWf

/-- 00_scope R10: every step that answers a next state keeps the agenda in the order in which its events act, and time
never goes back. The agenda is the model's own (log 123). -/
def Obligations.AgendaOrderIsKept : Prop :=
  ∀ s t : State, agendaSorted s.agenda = true → step s = .next t → agendaSorted t.agenda = true ∧ s.now ≤ t.now
end

