-- ==== Sys2Proof/Laws/Memory.lean ====
section
/-! SUPPORT. Byte memories: read after write, and every operation keeps the canonical form. -/

namespace Sys2Proof.Machine

theorem tabGet_lt_of_wfFrom {lo a : Nat} {m : List Host.Cell} (h : memWfFrom lo m = true) (ha : a < lo) :
    tabGet m a = none := by
  induction m generalizing lo with
  | nil => rfl
  | cons c t ih =>
    simp only [memWfFrom, Bool.and_eq_true, decide_eq_true_eq] at h
    have hk : ¬ c.1 = a := by omega
    simp only [tabGet, hk, if_false]
    exact ih h.2 (by omega)

theorem memRead_lt_of_wfFrom {lo a : Nat} {m : List Host.Cell} (h : memWfFrom lo m = true) (ha : a < lo) :
    memRead m a = 0 := by simp [memRead, tabGetD, tabGet_lt_of_wfFrom h ha]

theorem memWfFrom_mono {lo lo' : Nat} {m : List Host.Cell} (h : memWfFrom lo m = true) (hl : lo' ≤ lo) :
    memWfFrom lo' m = true := by
  cases m with
  | nil => rfl
  | cons c t =>
    simp only [memWfFrom, Bool.and_eq_true, decide_eq_true_eq] at h ⊢
    exact ⟨⟨by omega, h.1.2⟩, h.2⟩

/-- A write at or above a bound keeps the form above that bound. -/
theorem memWrite_wfFrom {lo a : Nat} {b : Byte} {m : List Host.Cell} (h : memWfFrom lo m = true) (ha : lo ≤ a) :
    memWfFrom lo (memWrite m a b) = true := by
  induction m generalizing lo with
  | nil =>
    by_cases hb : b = 0
    · simp [memWrite, hb, memWfFrom]
    · rw [memWrite, if_neg hb]
      simpa [memWfFrom, ha] using hb
  | cons c t ih =>
    have h0 := h
    simp only [memWfFrom, Bool.and_eq_true, decide_eq_true_eq, bne_iff_ne, ne_eq] at h
    obtain ⟨⟨h1, h2⟩, h3⟩ := h
    simp only [memWrite]
    split
    · rename_i hlt
      split
      · exact h0
      · rename_i hb
        simp only [memWfFrom, Bool.and_eq_true, decide_eq_true_eq, bne_iff_ne, ne_eq]
        exact ⟨⟨ha, hb⟩, ⟨⟨by omega, h2⟩, h3⟩⟩
    · split
      · rename_i heq
        split
        · exact memWfFrom_mono h3 (by omega)
        · rename_i hb
          subst heq
          simp only [memWfFrom, Bool.and_eq_true, decide_eq_true_eq, bne_iff_ne, ne_eq]
          exact ⟨⟨ha, hb⟩, h3⟩
      · simp only [memWfFrom, Bool.and_eq_true, decide_eq_true_eq, bne_iff_ne, ne_eq]
        exact ⟨⟨h1, h2⟩, ih h3 (by omega)⟩

/-- A write keeps the canonical form. -/
theorem memWrite_wf {m : List Host.Cell} (h : Memory.wf m = true) (a : Nat) (b : Byte) :
    Memory.wf (memWrite m a b) = true := memWrite_wfFrom h (Nat.zero_le a)

theorem memWriteN_wf {m : List Host.Cell} (h : Memory.wf m = true) (a n v : Nat) :
    Memory.wf (memWriteN m a n v) = true := by
  induction n generalizing m a v with
  | zero => exact h
  | succ n ih => exact ih (memWrite_wf h a _) (a + 1) (v / 256)

theorem memWriteBytes_wf {m : List Host.Cell} (h : Memory.wf m = true) (a : Nat) (bs : List Byte) :
    Memory.wf (memWriteBytes m a bs) = true := by
  induction bs generalizing m a with
  | nil => exact h
  | cons b bs ih => exact ih (memWrite_wf h a b) (a + 1)

theorem memPutLine_wf {m : List Host.Cell} (h : Memory.wf m = true) (a : Nat) (l : BitVec 512) :
    Memory.wf (memPutLine m a l) = true := memWriteN_wf h a 64 _

theorem memFill_wf {m : List Host.Cell} (h : Memory.wf m = true) (lo : Nat) (cs : List Host.Cell) :
    Memory.wf (memFill m lo cs) = true := by
  induction cs generalizing m with
  | nil => exact h
  | cons c cs ih => exact ih (memWrite_wf h _ _)

/-- Dropping cells keeps the form. -/
theorem filter_wfFrom {lo : Nat} {m : List Host.Cell} (p : Host.Cell → Bool) (h : memWfFrom lo m = true) :
    memWfFrom lo (m.filter p) = true := by
  induction m generalizing lo with
  | nil => rfl
  | cons c t ih =>
    have h0 := h
    simp only [memWfFrom, Bool.and_eq_true, decide_eq_true_eq] at h
    simp only [List.filter]
    split
    · simp only [memWfFrom, Bool.and_eq_true, decide_eq_true_eq]
      exact ⟨h.1, ih h.2⟩
    · exact memWfFrom_mono (ih h.2) (by omega)

theorem memClear_wf {m : List Host.Cell} (h : Memory.wf m = true) (lo n : Nat) : Memory.wf (memClear m lo n) = true :=
  filter_wfFrom _ h

/-- Reading after one write above a bound. -/
theorem memRead_memWrite_wfFrom {lo a a' : Nat} {b : Byte} {m : List Host.Cell} (h : memWfFrom lo m = true) :
    memRead (memWrite m a b) a' = if a' = a then b else memRead m a' := by
  induction m generalizing lo with
  | nil =>
    simp only [memWrite]
    split
    · rename_i hb; subst hb; split <;> rfl
    · simp only [memRead, tabGetD, tabGet]
      by_cases e : a = a'
      · simp [e]
      · have : ¬ a' = a := fun x => e x.symm
        simp [e, this]
  | cons c t ih =>
    simp only [memWfFrom, Bool.and_eq_true, decide_eq_true_eq] at h
    obtain ⟨⟨h1, -⟩, h3⟩ := h
    simp only [memWrite]
    split
    · rename_i hlt
      split
      · rename_i hb; subst hb
        split
        · rename_i e; subst e
          have hk : ¬ c.1 = a' := by omega
          have := tabGet_lt_of_wfFrom h3 (a := a') (by omega)
          simp [memRead, tabGetD, tabGet, hk, this]
        · rfl
      · simp only [memRead, tabGetD, tabGet]
        by_cases e : a = a'
        · simp [e]
        · have : ¬ a' = a := fun x => e x.symm
          simp [e, this]
    · split
      · rename_i hge heq
        subst heq
        split
        · rename_i hb; subst hb
          split
          · rename_i e; subst e; exact memRead_lt_of_wfFrom h3 (by omega)
          · rename_i hne
            have hk : ¬ c.1 = a' := fun e => hne e.symm
            simp [memRead, tabGetD, tabGet, hk]
        · simp only [memRead, tabGetD, tabGet]
          by_cases e : c.1 = a'
          · simp [e]
          · have : ¬ a' = c.1 := fun x => e x.symm
            simp [e, this]
      · rename_i hge hne
        have hi := ih h3
        simp only [memRead, tabGetD, tabGet] at hi ⊢
        split
        · rename_i e
          have : ¬ a' = a := by omega
          simp [this]
        · exact hi

/-- A byte reads as written, every other byte as before. -/
theorem memRead_memWrite {m : List Host.Cell} (h : Memory.wf m = true) (a a' : Nat) (b : Byte) :
    memRead (memWrite m a b) a' = if a' = a then b else memRead m a' := memRead_memWrite_wfFrom h

/-- A write of several bytes leaves the bytes outside them alone. -/
theorem memRead_memWriteN_other {m : List Host.Cell} (h : Memory.wf m = true) (a n v a' : Nat) (ha : a' < a ∨ a + n ≤ a') :
    memRead (memWriteN m a n v) a' = memRead m a' := by
  induction n generalizing m a v with
  | zero => rfl
  | succ n ih =>
    simp only [memWriteN]
    rw [ih (memWrite_wf h a _) _ _ (by omega), memRead_memWrite h]
    split
    · omega
    · rfl

/-- A number read back from the bytes it was written to. -/
theorem memReadN_memWriteN {m : List Host.Cell} (h : Memory.wf m = true) (a n v : Nat) :
    memReadN (memWriteN m a n v) a n = v % 256 ^ n := by
  induction n generalizing m a v with
  | zero => simp [memReadN, Nat.mod_one]
  | succ n ih =>
    simp only [memWriteN, memReadN]
    rw [ih (memWrite_wf h a _), memRead_memWriteN_other (memWrite_wf h a _) _ _ _ _ (by omega), memRead_memWrite h,
      if_pos rfl]
    rw [BitVec.toNat_ofNat]
    have e : 256 ^ (n + 1) = 256 * 256 ^ n := by rw [Nat.pow_succ, Nat.mul_comm]
    rw [e, Nat.mod_mul]

end Sys2Proof.Machine
end

