-- ==== Sys2Proof/Laws/State.lean ====
section
/-! SUPPORT. What each named operation over the state leaves alone: one lemma for each field it does not write. -/

namespace Sys2Proof.Machine

@[simp] theorem modGang_now (s : State) (n : TileName) (f : Gang → Gang) : (modGang s n f).now = s.now := by unfold modGang; split <;> rfl
@[simp] theorem modGang_phase (s : State) (n : TileName) (f : Gang → Gang) : (modGang s n f).phase = s.phase := by unfold modGang; split <;> rfl
@[simp] theorem modGang_issue (s : State) (n : TileName) (f : Gang → Gang) : (modGang s n f).issue = s.issue := by unfold modGang; split <;> rfl
@[simp] theorem modGang_arg (s : State) (n : TileName) (f : Gang → Gang) : (modGang s n f).arg = s.arg := by unfold modGang; split <;> rfl
@[simp] theorem modGang_own (s : State) (n : TileName) (f : Gang → Gang) : (modGang s n f).own = s.own := by unfold modGang; split <;> rfl
@[simp] theorem modGang_agenda (s : State) (n : TileName) (f : Gang → Gang) : (modGang s n f).agenda = s.agenda := by unfold modGang; split <;> rfl
@[simp] theorem modGang_slabs (s : State) (n : TileName) (f : Gang → Gang) : (modGang s n f).slabs = s.slabs := by unfold modGang; split <;> rfl
@[simp] theorem modGang_ctxs (s : State) (n : TileName) (f : Gang → Gang) : (modGang s n f).ctxs = s.ctxs := by unfold modGang; split <;> rfl
@[simp] theorem modGang_tasks (s : State) (n : TileName) (f : Gang → Gang) : (modGang s n f).tasks = s.tasks := by unfold modGang; split <;> rfl
@[simp] theorem modGang_mem (s : State) (n : TileName) (f : Gang → Gang) : (modGang s n f).mem = s.mem := by unfold modGang; split <;> rfl
@[simp] theorem modGang_vault (s : State) (n : TileName) (f : Gang → Gang) : (modGang s n f).vault = s.vault := by unfold modGang; split <;> rfl
@[simp] theorem modGang_frames (s : State) (n : TileName) (f : Gang → Gang) : (modGang s n f).frames = s.frames := by unfold modGang; split <;> rfl
@[simp] theorem modGang_timeTable (s : State) (n : TileName) (f : Gang → Gang) : (modGang s n f).timeTable = s.timeTable := by unfold modGang; split <;> rfl
@[simp] theorem modGang_cands (s : State) (n : TileName) (f : Gang → Gang) : (modGang s n f).cands = s.cands := by unfold modGang; split <;> rfl
@[simp] theorem modGang_graphs (s : State) (n : TileName) (f : Gang → Gang) : (modGang s n f).graphs = s.graphs := by unfold modGang; split <;> rfl
@[simp] theorem modGang_links (s : State) (n : TileName) (f : Gang → Gang) : (modGang s n f).links = s.links := by unfold modGang; split <;> rfl
@[simp] theorem modGang_ports (s : State) (n : TileName) (f : Gang → Gang) : (modGang s n f).ports = s.ports := by unfold modGang; split <;> rfl
@[simp] theorem modGang_windows (s : State) (n : TileName) (f : Gang → Gang) : (modGang s n f).windows = s.windows := by unfold modGang; split <;> rfl
@[simp] theorem modGang_units (s : State) (n : TileName) (f : Gang → Gang) : (modGang s n f).units = s.units := by unfold modGang; split <;> rfl
@[simp] theorem modGang_binding (s : State) (n : TileName) (f : Gang → Gang) : (modGang s n f).binding = s.binding := by unfold modGang; split <;> rfl
@[simp] theorem modGang_images (s : State) (n : TileName) (f : Gang → Gang) : (modGang s n f).images = s.images := by unfold modGang; split <;> rfl
@[simp] theorem modGang_islands (s : State) (n : TileName) (f : Gang → Gang) : (modGang s n f).islands = s.islands := by unfold modGang; split <;> rfl
@[simp] theorem modGang_ahead (s : State) (n : TileName) (f : Gang → Gang) : (modGang s n f).ahead = s.ahead := by unfold modGang; split <;> rfl
@[simp] theorem modGang_lastSkips (s : State) (n : TileName) (f : Gang → Gang) : (modGang s n f).lastSkips = s.lastSkips := by unfold modGang; split <;> rfl
@[simp] theorem modGang_former (s : State) (n : TileName) (f : Gang → Gang) : (modGang s n f).former = s.former := by unfold modGang; split <;> rfl
@[simp] theorem modGang_flash (s : State) (n : TileName) (f : Gang → Gang) : (modGang s n f).flash = s.flash := by unfold modGang; split <;> rfl
@[simp] theorem modGang_out (s : State) (n : TileName) (f : Gang → Gang) : (modGang s n f).out = s.out := by unfold modGang; split <;> rfl
@[simp] theorem modGang_freeCount (s : State) (n : TileName) (f : Gang → Gang) : (modGang s n f).freeCount = s.freeCount := by unfold modGang; split <;> rfl

@[simp] theorem modSlab_now (s : State) (n : TileName) (f : Slab → Slab) : (modSlab s n f).now = s.now := rfl
@[simp] theorem modSlab_phase (s : State) (n : TileName) (f : Slab → Slab) : (modSlab s n f).phase = s.phase := rfl
@[simp] theorem modSlab_issue (s : State) (n : TileName) (f : Slab → Slab) : (modSlab s n f).issue = s.issue := rfl
@[simp] theorem modSlab_arg (s : State) (n : TileName) (f : Slab → Slab) : (modSlab s n f).arg = s.arg := rfl
@[simp] theorem modSlab_own (s : State) (n : TileName) (f : Slab → Slab) : (modSlab s n f).own = s.own := rfl
@[simp] theorem modSlab_agenda (s : State) (n : TileName) (f : Slab → Slab) : (modSlab s n f).agenda = s.agenda := rfl
@[simp] theorem modSlab_gangs (s : State) (n : TileName) (f : Slab → Slab) : (modSlab s n f).gangs = s.gangs := rfl
@[simp] theorem modSlab_ctxs (s : State) (n : TileName) (f : Slab → Slab) : (modSlab s n f).ctxs = s.ctxs := rfl
@[simp] theorem modSlab_tasks (s : State) (n : TileName) (f : Slab → Slab) : (modSlab s n f).tasks = s.tasks := rfl
@[simp] theorem modSlab_mem (s : State) (n : TileName) (f : Slab → Slab) : (modSlab s n f).mem = s.mem := rfl
@[simp] theorem modSlab_vault (s : State) (n : TileName) (f : Slab → Slab) : (modSlab s n f).vault = s.vault := rfl
@[simp] theorem modSlab_frames (s : State) (n : TileName) (f : Slab → Slab) : (modSlab s n f).frames = s.frames := rfl
@[simp] theorem modSlab_timeTable (s : State) (n : TileName) (f : Slab → Slab) : (modSlab s n f).timeTable = s.timeTable := rfl
@[simp] theorem modSlab_cands (s : State) (n : TileName) (f : Slab → Slab) : (modSlab s n f).cands = s.cands := rfl
@[simp] theorem modSlab_graphs (s : State) (n : TileName) (f : Slab → Slab) : (modSlab s n f).graphs = s.graphs := rfl
@[simp] theorem modSlab_links (s : State) (n : TileName) (f : Slab → Slab) : (modSlab s n f).links = s.links := rfl
@[simp] theorem modSlab_ports (s : State) (n : TileName) (f : Slab → Slab) : (modSlab s n f).ports = s.ports := rfl
@[simp] theorem modSlab_windows (s : State) (n : TileName) (f : Slab → Slab) : (modSlab s n f).windows = s.windows := rfl
@[simp] theorem modSlab_units (s : State) (n : TileName) (f : Slab → Slab) : (modSlab s n f).units = s.units := rfl
@[simp] theorem modSlab_binding (s : State) (n : TileName) (f : Slab → Slab) : (modSlab s n f).binding = s.binding := rfl
@[simp] theorem modSlab_images (s : State) (n : TileName) (f : Slab → Slab) : (modSlab s n f).images = s.images := rfl
@[simp] theorem modSlab_islands (s : State) (n : TileName) (f : Slab → Slab) : (modSlab s n f).islands = s.islands := rfl
@[simp] theorem modSlab_ahead (s : State) (n : TileName) (f : Slab → Slab) : (modSlab s n f).ahead = s.ahead := rfl
@[simp] theorem modSlab_lastSkips (s : State) (n : TileName) (f : Slab → Slab) : (modSlab s n f).lastSkips = s.lastSkips := rfl
@[simp] theorem modSlab_former (s : State) (n : TileName) (f : Slab → Slab) : (modSlab s n f).former = s.former := rfl
@[simp] theorem modSlab_flash (s : State) (n : TileName) (f : Slab → Slab) : (modSlab s n f).flash = s.flash := rfl
@[simp] theorem modSlab_out (s : State) (n : TileName) (f : Slab → Slab) : (modSlab s n f).out = s.out := rfl
@[simp] theorem modSlab_freeCount (s : State) (n : TileName) (f : Slab → Slab) : (modSlab s n f).freeCount = s.freeCount := rfl

@[simp] theorem modCtx_now (s : State) (i : Nat) (f : Ctx → Ctx) : (modCtx s i f).now = s.now := rfl
@[simp] theorem modCtx_phase (s : State) (i : Nat) (f : Ctx → Ctx) : (modCtx s i f).phase = s.phase := rfl
@[simp] theorem modCtx_issue (s : State) (i : Nat) (f : Ctx → Ctx) : (modCtx s i f).issue = s.issue := rfl
@[simp] theorem modCtx_arg (s : State) (i : Nat) (f : Ctx → Ctx) : (modCtx s i f).arg = s.arg := rfl
@[simp] theorem modCtx_own (s : State) (i : Nat) (f : Ctx → Ctx) : (modCtx s i f).own = s.own := rfl
@[simp] theorem modCtx_agenda (s : State) (i : Nat) (f : Ctx → Ctx) : (modCtx s i f).agenda = s.agenda := rfl
@[simp] theorem modCtx_gangs (s : State) (i : Nat) (f : Ctx → Ctx) : (modCtx s i f).gangs = s.gangs := rfl
@[simp] theorem modCtx_slabs (s : State) (i : Nat) (f : Ctx → Ctx) : (modCtx s i f).slabs = s.slabs := rfl
@[simp] theorem modCtx_tasks (s : State) (i : Nat) (f : Ctx → Ctx) : (modCtx s i f).tasks = s.tasks := rfl
@[simp] theorem modCtx_mem (s : State) (i : Nat) (f : Ctx → Ctx) : (modCtx s i f).mem = s.mem := rfl
@[simp] theorem modCtx_vault (s : State) (i : Nat) (f : Ctx → Ctx) : (modCtx s i f).vault = s.vault := rfl
@[simp] theorem modCtx_frames (s : State) (i : Nat) (f : Ctx → Ctx) : (modCtx s i f).frames = s.frames := rfl
@[simp] theorem modCtx_timeTable (s : State) (i : Nat) (f : Ctx → Ctx) : (modCtx s i f).timeTable = s.timeTable := rfl
@[simp] theorem modCtx_cands (s : State) (i : Nat) (f : Ctx → Ctx) : (modCtx s i f).cands = s.cands := rfl
@[simp] theorem modCtx_graphs (s : State) (i : Nat) (f : Ctx → Ctx) : (modCtx s i f).graphs = s.graphs := rfl
@[simp] theorem modCtx_links (s : State) (i : Nat) (f : Ctx → Ctx) : (modCtx s i f).links = s.links := rfl
@[simp] theorem modCtx_ports (s : State) (i : Nat) (f : Ctx → Ctx) : (modCtx s i f).ports = s.ports := rfl
@[simp] theorem modCtx_windows (s : State) (i : Nat) (f : Ctx → Ctx) : (modCtx s i f).windows = s.windows := rfl
@[simp] theorem modCtx_units (s : State) (i : Nat) (f : Ctx → Ctx) : (modCtx s i f).units = s.units := rfl
@[simp] theorem modCtx_binding (s : State) (i : Nat) (f : Ctx → Ctx) : (modCtx s i f).binding = s.binding := rfl
@[simp] theorem modCtx_images (s : State) (i : Nat) (f : Ctx → Ctx) : (modCtx s i f).images = s.images := rfl
@[simp] theorem modCtx_islands (s : State) (i : Nat) (f : Ctx → Ctx) : (modCtx s i f).islands = s.islands := rfl
@[simp] theorem modCtx_ahead (s : State) (i : Nat) (f : Ctx → Ctx) : (modCtx s i f).ahead = s.ahead := rfl
@[simp] theorem modCtx_lastSkips (s : State) (i : Nat) (f : Ctx → Ctx) : (modCtx s i f).lastSkips = s.lastSkips := rfl
@[simp] theorem modCtx_former (s : State) (i : Nat) (f : Ctx → Ctx) : (modCtx s i f).former = s.former := rfl
@[simp] theorem modCtx_flash (s : State) (i : Nat) (f : Ctx → Ctx) : (modCtx s i f).flash = s.flash := rfl
@[simp] theorem modCtx_out (s : State) (i : Nat) (f : Ctx → Ctx) : (modCtx s i f).out = s.out := rfl
@[simp] theorem modCtx_freeCount (s : State) (i : Nat) (f : Ctx → Ctx) : (modCtx s i f).freeCount = s.freeCount := rfl

@[simp] theorem modTask_now (s : State) (i : Nat) (f : Task → Task) : (modTask s i f).now = s.now := rfl
@[simp] theorem modTask_phase (s : State) (i : Nat) (f : Task → Task) : (modTask s i f).phase = s.phase := rfl
@[simp] theorem modTask_issue (s : State) (i : Nat) (f : Task → Task) : (modTask s i f).issue = s.issue := rfl
@[simp] theorem modTask_arg (s : State) (i : Nat) (f : Task → Task) : (modTask s i f).arg = s.arg := rfl
@[simp] theorem modTask_own (s : State) (i : Nat) (f : Task → Task) : (modTask s i f).own = s.own := rfl
@[simp] theorem modTask_agenda (s : State) (i : Nat) (f : Task → Task) : (modTask s i f).agenda = s.agenda := rfl
@[simp] theorem modTask_gangs (s : State) (i : Nat) (f : Task → Task) : (modTask s i f).gangs = s.gangs := rfl
@[simp] theorem modTask_slabs (s : State) (i : Nat) (f : Task → Task) : (modTask s i f).slabs = s.slabs := rfl
@[simp] theorem modTask_ctxs (s : State) (i : Nat) (f : Task → Task) : (modTask s i f).ctxs = s.ctxs := rfl
@[simp] theorem modTask_mem (s : State) (i : Nat) (f : Task → Task) : (modTask s i f).mem = s.mem := rfl
@[simp] theorem modTask_vault (s : State) (i : Nat) (f : Task → Task) : (modTask s i f).vault = s.vault := rfl
@[simp] theorem modTask_frames (s : State) (i : Nat) (f : Task → Task) : (modTask s i f).frames = s.frames := rfl
@[simp] theorem modTask_timeTable (s : State) (i : Nat) (f : Task → Task) : (modTask s i f).timeTable = s.timeTable := rfl
@[simp] theorem modTask_cands (s : State) (i : Nat) (f : Task → Task) : (modTask s i f).cands = s.cands := rfl
@[simp] theorem modTask_graphs (s : State) (i : Nat) (f : Task → Task) : (modTask s i f).graphs = s.graphs := rfl
@[simp] theorem modTask_links (s : State) (i : Nat) (f : Task → Task) : (modTask s i f).links = s.links := rfl
@[simp] theorem modTask_ports (s : State) (i : Nat) (f : Task → Task) : (modTask s i f).ports = s.ports := rfl
@[simp] theorem modTask_windows (s : State) (i : Nat) (f : Task → Task) : (modTask s i f).windows = s.windows := rfl
@[simp] theorem modTask_units (s : State) (i : Nat) (f : Task → Task) : (modTask s i f).units = s.units := rfl
@[simp] theorem modTask_binding (s : State) (i : Nat) (f : Task → Task) : (modTask s i f).binding = s.binding := rfl
@[simp] theorem modTask_images (s : State) (i : Nat) (f : Task → Task) : (modTask s i f).images = s.images := rfl
@[simp] theorem modTask_islands (s : State) (i : Nat) (f : Task → Task) : (modTask s i f).islands = s.islands := rfl
@[simp] theorem modTask_ahead (s : State) (i : Nat) (f : Task → Task) : (modTask s i f).ahead = s.ahead := rfl
@[simp] theorem modTask_lastSkips (s : State) (i : Nat) (f : Task → Task) : (modTask s i f).lastSkips = s.lastSkips := rfl
@[simp] theorem modTask_former (s : State) (i : Nat) (f : Task → Task) : (modTask s i f).former = s.former := rfl
@[simp] theorem modTask_flash (s : State) (i : Nat) (f : Task → Task) : (modTask s i f).flash = s.flash := rfl
@[simp] theorem modTask_out (s : State) (i : Nat) (f : Task → Task) : (modTask s i f).out = s.out := rfl
@[simp] theorem modTask_freeCount (s : State) (i : Nat) (f : Task → Task) : (modTask s i f).freeCount = s.freeCount := rfl

@[simp] theorem post_now (s : State) (e : Ev) : (post s e).now = s.now := rfl
@[simp] theorem post_phase (s : State) (e : Ev) : (post s e).phase = s.phase := rfl
@[simp] theorem post_issue (s : State) (e : Ev) : (post s e).issue = s.issue := rfl
@[simp] theorem post_arg (s : State) (e : Ev) : (post s e).arg = s.arg := rfl
@[simp] theorem post_own (s : State) (e : Ev) : (post s e).own = s.own := rfl
@[simp] theorem post_gangs (s : State) (e : Ev) : (post s e).gangs = s.gangs := rfl
@[simp] theorem post_slabs (s : State) (e : Ev) : (post s e).slabs = s.slabs := rfl
@[simp] theorem post_ctxs (s : State) (e : Ev) : (post s e).ctxs = s.ctxs := rfl
@[simp] theorem post_tasks (s : State) (e : Ev) : (post s e).tasks = s.tasks := rfl
@[simp] theorem post_mem (s : State) (e : Ev) : (post s e).mem = s.mem := rfl
@[simp] theorem post_vault (s : State) (e : Ev) : (post s e).vault = s.vault := rfl
@[simp] theorem post_frames (s : State) (e : Ev) : (post s e).frames = s.frames := rfl
@[simp] theorem post_timeTable (s : State) (e : Ev) : (post s e).timeTable = s.timeTable := rfl
@[simp] theorem post_cands (s : State) (e : Ev) : (post s e).cands = s.cands := rfl
@[simp] theorem post_graphs (s : State) (e : Ev) : (post s e).graphs = s.graphs := rfl
@[simp] theorem post_links (s : State) (e : Ev) : (post s e).links = s.links := rfl
@[simp] theorem post_ports (s : State) (e : Ev) : (post s e).ports = s.ports := rfl
@[simp] theorem post_windows (s : State) (e : Ev) : (post s e).windows = s.windows := rfl
@[simp] theorem post_units (s : State) (e : Ev) : (post s e).units = s.units := rfl
@[simp] theorem post_binding (s : State) (e : Ev) : (post s e).binding = s.binding := rfl
@[simp] theorem post_images (s : State) (e : Ev) : (post s e).images = s.images := rfl
@[simp] theorem post_islands (s : State) (e : Ev) : (post s e).islands = s.islands := rfl
@[simp] theorem post_ahead (s : State) (e : Ev) : (post s e).ahead = s.ahead := rfl
@[simp] theorem post_lastSkips (s : State) (e : Ev) : (post s e).lastSkips = s.lastSkips := rfl
@[simp] theorem post_former (s : State) (e : Ev) : (post s e).former = s.former := rfl
@[simp] theorem post_flash (s : State) (e : Ev) : (post s e).flash = s.flash := rfl
@[simp] theorem post_out (s : State) (e : Ev) : (post s e).out = s.out := rfl
@[simp] theorem post_freeCount (s : State) (e : Ev) : (post s e).freeCount = s.freeCount := rfl

@[simp] theorem postEv_now (s : State) (t o u : Nat) (w : Option Owner) (i : Instr) (a : Operand) : (postEv s t o u w i a).now = s.now := rfl
@[simp] theorem postEv_phase (s : State) (t o u : Nat) (w : Option Owner) (i : Instr) (a : Operand) : (postEv s t o u w i a).phase = s.phase := rfl
@[simp] theorem postEv_issue (s : State) (t o u : Nat) (w : Option Owner) (i : Instr) (a : Operand) : (postEv s t o u w i a).issue = s.issue := rfl
@[simp] theorem postEv_arg (s : State) (t o u : Nat) (w : Option Owner) (i : Instr) (a : Operand) : (postEv s t o u w i a).arg = s.arg := rfl
@[simp] theorem postEv_own (s : State) (t o u : Nat) (w : Option Owner) (i : Instr) (a : Operand) : (postEv s t o u w i a).own = s.own := rfl
@[simp] theorem postEv_gangs (s : State) (t o u : Nat) (w : Option Owner) (i : Instr) (a : Operand) : (postEv s t o u w i a).gangs = s.gangs := rfl
@[simp] theorem postEv_slabs (s : State) (t o u : Nat) (w : Option Owner) (i : Instr) (a : Operand) : (postEv s t o u w i a).slabs = s.slabs := rfl
@[simp] theorem postEv_ctxs (s : State) (t o u : Nat) (w : Option Owner) (i : Instr) (a : Operand) : (postEv s t o u w i a).ctxs = s.ctxs := rfl
@[simp] theorem postEv_tasks (s : State) (t o u : Nat) (w : Option Owner) (i : Instr) (a : Operand) : (postEv s t o u w i a).tasks = s.tasks := rfl
@[simp] theorem postEv_mem (s : State) (t o u : Nat) (w : Option Owner) (i : Instr) (a : Operand) : (postEv s t o u w i a).mem = s.mem := rfl
@[simp] theorem postEv_vault (s : State) (t o u : Nat) (w : Option Owner) (i : Instr) (a : Operand) : (postEv s t o u w i a).vault = s.vault := rfl
@[simp] theorem postEv_frames (s : State) (t o u : Nat) (w : Option Owner) (i : Instr) (a : Operand) : (postEv s t o u w i a).frames = s.frames := rfl
@[simp] theorem postEv_timeTable (s : State) (t o u : Nat) (w : Option Owner) (i : Instr) (a : Operand) : (postEv s t o u w i a).timeTable = s.timeTable := rfl
@[simp] theorem postEv_cands (s : State) (t o u : Nat) (w : Option Owner) (i : Instr) (a : Operand) : (postEv s t o u w i a).cands = s.cands := rfl
@[simp] theorem postEv_graphs (s : State) (t o u : Nat) (w : Option Owner) (i : Instr) (a : Operand) : (postEv s t o u w i a).graphs = s.graphs := rfl
@[simp] theorem postEv_links (s : State) (t o u : Nat) (w : Option Owner) (i : Instr) (a : Operand) : (postEv s t o u w i a).links = s.links := rfl
@[simp] theorem postEv_ports (s : State) (t o u : Nat) (w : Option Owner) (i : Instr) (a : Operand) : (postEv s t o u w i a).ports = s.ports := rfl
@[simp] theorem postEv_windows (s : State) (t o u : Nat) (w : Option Owner) (i : Instr) (a : Operand) : (postEv s t o u w i a).windows = s.windows := rfl
@[simp] theorem postEv_units (s : State) (t o u : Nat) (w : Option Owner) (i : Instr) (a : Operand) : (postEv s t o u w i a).units = s.units := rfl
@[simp] theorem postEv_binding (s : State) (t o u : Nat) (w : Option Owner) (i : Instr) (a : Operand) : (postEv s t o u w i a).binding = s.binding := rfl
@[simp] theorem postEv_images (s : State) (t o u : Nat) (w : Option Owner) (i : Instr) (a : Operand) : (postEv s t o u w i a).images = s.images := rfl
@[simp] theorem postEv_islands (s : State) (t o u : Nat) (w : Option Owner) (i : Instr) (a : Operand) : (postEv s t o u w i a).islands = s.islands := rfl
@[simp] theorem postEv_ahead (s : State) (t o u : Nat) (w : Option Owner) (i : Instr) (a : Operand) : (postEv s t o u w i a).ahead = s.ahead := rfl
@[simp] theorem postEv_lastSkips (s : State) (t o u : Nat) (w : Option Owner) (i : Instr) (a : Operand) : (postEv s t o u w i a).lastSkips = s.lastSkips := rfl
@[simp] theorem postEv_former (s : State) (t o u : Nat) (w : Option Owner) (i : Instr) (a : Operand) : (postEv s t o u w i a).former = s.former := rfl
@[simp] theorem postEv_flash (s : State) (t o u : Nat) (w : Option Owner) (i : Instr) (a : Operand) : (postEv s t o u w i a).flash = s.flash := rfl
@[simp] theorem postEv_out (s : State) (t o u : Nat) (w : Option Owner) (i : Instr) (a : Operand) : (postEv s t o u w i a).out = s.out := rfl
@[simp] theorem postEv_freeCount (s : State) (t o u : Nat) (w : Option Owner) (i : Instr) (a : Operand) : (postEv s t o u w i a).freeCount = s.freeCount := rfl

@[simp] theorem postAct_now (s : State) (o : Owner) (t r : Nat) (a : Action) : (postAct s o t r a).now = s.now := rfl
@[simp] theorem postAct_phase (s : State) (o : Owner) (t r : Nat) (a : Action) : (postAct s o t r a).phase = s.phase := rfl
@[simp] theorem postAct_issue (s : State) (o : Owner) (t r : Nat) (a : Action) : (postAct s o t r a).issue = s.issue := rfl
@[simp] theorem postAct_arg (s : State) (o : Owner) (t r : Nat) (a : Action) : (postAct s o t r a).arg = s.arg := rfl
@[simp] theorem postAct_own (s : State) (o : Owner) (t r : Nat) (a : Action) : (postAct s o t r a).own = s.own := rfl
@[simp] theorem postAct_gangs (s : State) (o : Owner) (t r : Nat) (a : Action) : (postAct s o t r a).gangs = s.gangs := rfl
@[simp] theorem postAct_slabs (s : State) (o : Owner) (t r : Nat) (a : Action) : (postAct s o t r a).slabs = s.slabs := rfl
@[simp] theorem postAct_ctxs (s : State) (o : Owner) (t r : Nat) (a : Action) : (postAct s o t r a).ctxs = s.ctxs := rfl
@[simp] theorem postAct_tasks (s : State) (o : Owner) (t r : Nat) (a : Action) : (postAct s o t r a).tasks = s.tasks := rfl
@[simp] theorem postAct_mem (s : State) (o : Owner) (t r : Nat) (a : Action) : (postAct s o t r a).mem = s.mem := rfl
@[simp] theorem postAct_vault (s : State) (o : Owner) (t r : Nat) (a : Action) : (postAct s o t r a).vault = s.vault := rfl
@[simp] theorem postAct_frames (s : State) (o : Owner) (t r : Nat) (a : Action) : (postAct s o t r a).frames = s.frames := rfl
@[simp] theorem postAct_timeTable (s : State) (o : Owner) (t r : Nat) (a : Action) : (postAct s o t r a).timeTable = s.timeTable := rfl
@[simp] theorem postAct_cands (s : State) (o : Owner) (t r : Nat) (a : Action) : (postAct s o t r a).cands = s.cands := rfl
@[simp] theorem postAct_graphs (s : State) (o : Owner) (t r : Nat) (a : Action) : (postAct s o t r a).graphs = s.graphs := rfl
@[simp] theorem postAct_links (s : State) (o : Owner) (t r : Nat) (a : Action) : (postAct s o t r a).links = s.links := rfl
@[simp] theorem postAct_ports (s : State) (o : Owner) (t r : Nat) (a : Action) : (postAct s o t r a).ports = s.ports := rfl
@[simp] theorem postAct_windows (s : State) (o : Owner) (t r : Nat) (a : Action) : (postAct s o t r a).windows = s.windows := rfl
@[simp] theorem postAct_units (s : State) (o : Owner) (t r : Nat) (a : Action) : (postAct s o t r a).units = s.units := rfl
@[simp] theorem postAct_binding (s : State) (o : Owner) (t r : Nat) (a : Action) : (postAct s o t r a).binding = s.binding := rfl
@[simp] theorem postAct_images (s : State) (o : Owner) (t r : Nat) (a : Action) : (postAct s o t r a).images = s.images := rfl
@[simp] theorem postAct_islands (s : State) (o : Owner) (t r : Nat) (a : Action) : (postAct s o t r a).islands = s.islands := rfl
@[simp] theorem postAct_ahead (s : State) (o : Owner) (t r : Nat) (a : Action) : (postAct s o t r a).ahead = s.ahead := rfl
@[simp] theorem postAct_lastSkips (s : State) (o : Owner) (t r : Nat) (a : Action) : (postAct s o t r a).lastSkips = s.lastSkips := rfl
@[simp] theorem postAct_former (s : State) (o : Owner) (t r : Nat) (a : Action) : (postAct s o t r a).former = s.former := rfl
@[simp] theorem postAct_flash (s : State) (o : Owner) (t r : Nat) (a : Action) : (postAct s o t r a).flash = s.flash := rfl
@[simp] theorem postAct_out (s : State) (o : Owner) (t r : Nat) (a : Action) : (postAct s o t r a).out = s.out := rfl
@[simp] theorem postAct_freeCount (s : State) (o : Owner) (t r : Nat) (a : Action) : (postAct s o t r a).freeCount = s.freeCount := rfl

@[simp] theorem postLand_now (s : State) (o : Owner) (t : Nat) (a : Action) : (postLand s o t a).now = s.now := rfl
@[simp] theorem postLand_phase (s : State) (o : Owner) (t : Nat) (a : Action) : (postLand s o t a).phase = s.phase := rfl
@[simp] theorem postLand_issue (s : State) (o : Owner) (t : Nat) (a : Action) : (postLand s o t a).issue = s.issue := rfl
@[simp] theorem postLand_arg (s : State) (o : Owner) (t : Nat) (a : Action) : (postLand s o t a).arg = s.arg := rfl
@[simp] theorem postLand_own (s : State) (o : Owner) (t : Nat) (a : Action) : (postLand s o t a).own = s.own := rfl
@[simp] theorem postLand_gangs (s : State) (o : Owner) (t : Nat) (a : Action) : (postLand s o t a).gangs = s.gangs := rfl
@[simp] theorem postLand_slabs (s : State) (o : Owner) (t : Nat) (a : Action) : (postLand s o t a).slabs = s.slabs := rfl
@[simp] theorem postLand_ctxs (s : State) (o : Owner) (t : Nat) (a : Action) : (postLand s o t a).ctxs = s.ctxs := rfl
@[simp] theorem postLand_tasks (s : State) (o : Owner) (t : Nat) (a : Action) : (postLand s o t a).tasks = s.tasks := rfl
@[simp] theorem postLand_mem (s : State) (o : Owner) (t : Nat) (a : Action) : (postLand s o t a).mem = s.mem := rfl
@[simp] theorem postLand_vault (s : State) (o : Owner) (t : Nat) (a : Action) : (postLand s o t a).vault = s.vault := rfl
@[simp] theorem postLand_frames (s : State) (o : Owner) (t : Nat) (a : Action) : (postLand s o t a).frames = s.frames := rfl
@[simp] theorem postLand_timeTable (s : State) (o : Owner) (t : Nat) (a : Action) : (postLand s o t a).timeTable = s.timeTable := rfl
@[simp] theorem postLand_cands (s : State) (o : Owner) (t : Nat) (a : Action) : (postLand s o t a).cands = s.cands := rfl
@[simp] theorem postLand_graphs (s : State) (o : Owner) (t : Nat) (a : Action) : (postLand s o t a).graphs = s.graphs := rfl
@[simp] theorem postLand_links (s : State) (o : Owner) (t : Nat) (a : Action) : (postLand s o t a).links = s.links := rfl
@[simp] theorem postLand_ports (s : State) (o : Owner) (t : Nat) (a : Action) : (postLand s o t a).ports = s.ports := rfl
@[simp] theorem postLand_windows (s : State) (o : Owner) (t : Nat) (a : Action) : (postLand s o t a).windows = s.windows := rfl
@[simp] theorem postLand_units (s : State) (o : Owner) (t : Nat) (a : Action) : (postLand s o t a).units = s.units := rfl
@[simp] theorem postLand_binding (s : State) (o : Owner) (t : Nat) (a : Action) : (postLand s o t a).binding = s.binding := rfl
@[simp] theorem postLand_images (s : State) (o : Owner) (t : Nat) (a : Action) : (postLand s o t a).images = s.images := rfl
@[simp] theorem postLand_islands (s : State) (o : Owner) (t : Nat) (a : Action) : (postLand s o t a).islands = s.islands := rfl
@[simp] theorem postLand_ahead (s : State) (o : Owner) (t : Nat) (a : Action) : (postLand s o t a).ahead = s.ahead := rfl
@[simp] theorem postLand_lastSkips (s : State) (o : Owner) (t : Nat) (a : Action) : (postLand s o t a).lastSkips = s.lastSkips := rfl
@[simp] theorem postLand_former (s : State) (o : Owner) (t : Nat) (a : Action) : (postLand s o t a).former = s.former := rfl
@[simp] theorem postLand_flash (s : State) (o : Owner) (t : Nat) (a : Action) : (postLand s o t a).flash = s.flash := rfl
@[simp] theorem postLand_out (s : State) (o : Owner) (t : Nat) (a : Action) : (postLand s o t a).out = s.out := rfl
@[simp] theorem postLand_freeCount (s : State) (o : Owner) (t : Nat) (a : Action) : (postLand s o t a).freeCount = s.freeCount := rfl

@[simp] theorem tell_now (s : State) (h : HostOut) : (tell s h).now = s.now := rfl
@[simp] theorem tell_phase (s : State) (h : HostOut) : (tell s h).phase = s.phase := rfl
@[simp] theorem tell_issue (s : State) (h : HostOut) : (tell s h).issue = s.issue := rfl
@[simp] theorem tell_arg (s : State) (h : HostOut) : (tell s h).arg = s.arg := rfl
@[simp] theorem tell_own (s : State) (h : HostOut) : (tell s h).own = s.own := rfl
@[simp] theorem tell_agenda (s : State) (h : HostOut) : (tell s h).agenda = s.agenda := rfl
@[simp] theorem tell_gangs (s : State) (h : HostOut) : (tell s h).gangs = s.gangs := rfl
@[simp] theorem tell_slabs (s : State) (h : HostOut) : (tell s h).slabs = s.slabs := rfl
@[simp] theorem tell_ctxs (s : State) (h : HostOut) : (tell s h).ctxs = s.ctxs := rfl
@[simp] theorem tell_tasks (s : State) (h : HostOut) : (tell s h).tasks = s.tasks := rfl
@[simp] theorem tell_mem (s : State) (h : HostOut) : (tell s h).mem = s.mem := rfl
@[simp] theorem tell_vault (s : State) (h : HostOut) : (tell s h).vault = s.vault := rfl
@[simp] theorem tell_frames (s : State) (h : HostOut) : (tell s h).frames = s.frames := rfl
@[simp] theorem tell_timeTable (s : State) (h : HostOut) : (tell s h).timeTable = s.timeTable := rfl
@[simp] theorem tell_cands (s : State) (h : HostOut) : (tell s h).cands = s.cands := rfl
@[simp] theorem tell_graphs (s : State) (h : HostOut) : (tell s h).graphs = s.graphs := rfl
@[simp] theorem tell_links (s : State) (h : HostOut) : (tell s h).links = s.links := rfl
@[simp] theorem tell_ports (s : State) (h : HostOut) : (tell s h).ports = s.ports := rfl
@[simp] theorem tell_windows (s : State) (h : HostOut) : (tell s h).windows = s.windows := rfl
@[simp] theorem tell_units (s : State) (h : HostOut) : (tell s h).units = s.units := rfl
@[simp] theorem tell_binding (s : State) (h : HostOut) : (tell s h).binding = s.binding := rfl
@[simp] theorem tell_images (s : State) (h : HostOut) : (tell s h).images = s.images := rfl
@[simp] theorem tell_islands (s : State) (h : HostOut) : (tell s h).islands = s.islands := rfl
@[simp] theorem tell_ahead (s : State) (h : HostOut) : (tell s h).ahead = s.ahead := rfl
@[simp] theorem tell_lastSkips (s : State) (h : HostOut) : (tell s h).lastSkips = s.lastSkips := rfl
@[simp] theorem tell_former (s : State) (h : HostOut) : (tell s h).former = s.former := rfl
@[simp] theorem tell_flash (s : State) (h : HostOut) : (tell s h).flash = s.flash := rfl
@[simp] theorem tell_freeCount (s : State) (h : HostOut) : (tell s h).freeCount = s.freeCount := rfl

@[simp] theorem padWrite_now (s : State) (t : TileName) (a n v : Nat) : (padWrite s t a n v).now = s.now := rfl
@[simp] theorem padWrite_phase (s : State) (t : TileName) (a n v : Nat) : (padWrite s t a n v).phase = s.phase := rfl
@[simp] theorem padWrite_issue (s : State) (t : TileName) (a n v : Nat) : (padWrite s t a n v).issue = s.issue := rfl
@[simp] theorem padWrite_arg (s : State) (t : TileName) (a n v : Nat) : (padWrite s t a n v).arg = s.arg := rfl
@[simp] theorem padWrite_own (s : State) (t : TileName) (a n v : Nat) : (padWrite s t a n v).own = s.own := rfl
@[simp] theorem padWrite_agenda (s : State) (t : TileName) (a n v : Nat) : (padWrite s t a n v).agenda = s.agenda := rfl
@[simp] theorem padWrite_gangs (s : State) (t : TileName) (a n v : Nat) : (padWrite s t a n v).gangs = s.gangs := rfl
@[simp] theorem padWrite_slabs (s : State) (t : TileName) (a n v : Nat) : (padWrite s t a n v).slabs = s.slabs := rfl
@[simp] theorem padWrite_ctxs (s : State) (t : TileName) (a n v : Nat) : (padWrite s t a n v).ctxs = s.ctxs := rfl
@[simp] theorem padWrite_tasks (s : State) (t : TileName) (a n v : Nat) : (padWrite s t a n v).tasks = s.tasks := rfl
@[simp] theorem padWrite_vault (s : State) (t : TileName) (a n v : Nat) : (padWrite s t a n v).vault = s.vault := rfl
@[simp] theorem padWrite_frames (s : State) (t : TileName) (a n v : Nat) : (padWrite s t a n v).frames = s.frames := rfl
@[simp] theorem padWrite_timeTable (s : State) (t : TileName) (a n v : Nat) : (padWrite s t a n v).timeTable = s.timeTable := rfl
@[simp] theorem padWrite_cands (s : State) (t : TileName) (a n v : Nat) : (padWrite s t a n v).cands = s.cands := rfl
@[simp] theorem padWrite_graphs (s : State) (t : TileName) (a n v : Nat) : (padWrite s t a n v).graphs = s.graphs := rfl
@[simp] theorem padWrite_links (s : State) (t : TileName) (a n v : Nat) : (padWrite s t a n v).links = s.links := rfl
@[simp] theorem padWrite_ports (s : State) (t : TileName) (a n v : Nat) : (padWrite s t a n v).ports = s.ports := rfl
@[simp] theorem padWrite_windows (s : State) (t : TileName) (a n v : Nat) : (padWrite s t a n v).windows = s.windows := rfl
@[simp] theorem padWrite_units (s : State) (t : TileName) (a n v : Nat) : (padWrite s t a n v).units = s.units := rfl
@[simp] theorem padWrite_binding (s : State) (t : TileName) (a n v : Nat) : (padWrite s t a n v).binding = s.binding := rfl
@[simp] theorem padWrite_images (s : State) (t : TileName) (a n v : Nat) : (padWrite s t a n v).images = s.images := rfl
@[simp] theorem padWrite_islands (s : State) (t : TileName) (a n v : Nat) : (padWrite s t a n v).islands = s.islands := rfl
@[simp] theorem padWrite_ahead (s : State) (t : TileName) (a n v : Nat) : (padWrite s t a n v).ahead = s.ahead := rfl
@[simp] theorem padWrite_lastSkips (s : State) (t : TileName) (a n v : Nat) : (padWrite s t a n v).lastSkips = s.lastSkips := rfl
@[simp] theorem padWrite_former (s : State) (t : TileName) (a n v : Nat) : (padWrite s t a n v).former = s.former := rfl
@[simp] theorem padWrite_flash (s : State) (t : TileName) (a n v : Nat) : (padWrite s t a n v).flash = s.flash := rfl
@[simp] theorem padWrite_out (s : State) (t : TileName) (a n v : Nat) : (padWrite s t a n v).out = s.out := rfl
@[simp] theorem padWrite_freeCount (s : State) (t : TileName) (a n v : Nat) : (padWrite s t a n v).freeCount = s.freeCount := rfl

@[simp] theorem bumpCounter_now (s : State) (g : TileName) (k n : Nat) : (bumpCounter s g k n).now = s.now := modGang_now _ _ _
@[simp] theorem bumpCounter_phase (s : State) (g : TileName) (k n : Nat) : (bumpCounter s g k n).phase = s.phase := modGang_phase _ _ _
@[simp] theorem bumpCounter_issue (s : State) (g : TileName) (k n : Nat) : (bumpCounter s g k n).issue = s.issue := modGang_issue _ _ _
@[simp] theorem bumpCounter_arg (s : State) (g : TileName) (k n : Nat) : (bumpCounter s g k n).arg = s.arg := modGang_arg _ _ _
@[simp] theorem bumpCounter_own (s : State) (g : TileName) (k n : Nat) : (bumpCounter s g k n).own = s.own := modGang_own _ _ _
@[simp] theorem bumpCounter_agenda (s : State) (g : TileName) (k n : Nat) : (bumpCounter s g k n).agenda = s.agenda := modGang_agenda _ _ _
@[simp] theorem bumpCounter_slabs (s : State) (g : TileName) (k n : Nat) : (bumpCounter s g k n).slabs = s.slabs := modGang_slabs _ _ _
@[simp] theorem bumpCounter_ctxs (s : State) (g : TileName) (k n : Nat) : (bumpCounter s g k n).ctxs = s.ctxs := modGang_ctxs _ _ _
@[simp] theorem bumpCounter_tasks (s : State) (g : TileName) (k n : Nat) : (bumpCounter s g k n).tasks = s.tasks := modGang_tasks _ _ _
@[simp] theorem bumpCounter_mem (s : State) (g : TileName) (k n : Nat) : (bumpCounter s g k n).mem = s.mem := modGang_mem _ _ _
@[simp] theorem bumpCounter_vault (s : State) (g : TileName) (k n : Nat) : (bumpCounter s g k n).vault = s.vault := modGang_vault _ _ _
@[simp] theorem bumpCounter_frames (s : State) (g : TileName) (k n : Nat) : (bumpCounter s g k n).frames = s.frames := modGang_frames _ _ _
@[simp] theorem bumpCounter_timeTable (s : State) (g : TileName) (k n : Nat) : (bumpCounter s g k n).timeTable = s.timeTable := modGang_timeTable _ _ _
@[simp] theorem bumpCounter_cands (s : State) (g : TileName) (k n : Nat) : (bumpCounter s g k n).cands = s.cands := modGang_cands _ _ _
@[simp] theorem bumpCounter_graphs (s : State) (g : TileName) (k n : Nat) : (bumpCounter s g k n).graphs = s.graphs := modGang_graphs _ _ _
@[simp] theorem bumpCounter_links (s : State) (g : TileName) (k n : Nat) : (bumpCounter s g k n).links = s.links := modGang_links _ _ _
@[simp] theorem bumpCounter_ports (s : State) (g : TileName) (k n : Nat) : (bumpCounter s g k n).ports = s.ports := modGang_ports _ _ _
@[simp] theorem bumpCounter_windows (s : State) (g : TileName) (k n : Nat) : (bumpCounter s g k n).windows = s.windows := modGang_windows _ _ _
@[simp] theorem bumpCounter_units (s : State) (g : TileName) (k n : Nat) : (bumpCounter s g k n).units = s.units := modGang_units _ _ _
@[simp] theorem bumpCounter_binding (s : State) (g : TileName) (k n : Nat) : (bumpCounter s g k n).binding = s.binding := modGang_binding _ _ _
@[simp] theorem bumpCounter_images (s : State) (g : TileName) (k n : Nat) : (bumpCounter s g k n).images = s.images := modGang_images _ _ _
@[simp] theorem bumpCounter_islands (s : State) (g : TileName) (k n : Nat) : (bumpCounter s g k n).islands = s.islands := modGang_islands _ _ _
@[simp] theorem bumpCounter_ahead (s : State) (g : TileName) (k n : Nat) : (bumpCounter s g k n).ahead = s.ahead := modGang_ahead _ _ _
@[simp] theorem bumpCounter_lastSkips (s : State) (g : TileName) (k n : Nat) : (bumpCounter s g k n).lastSkips = s.lastSkips := modGang_lastSkips _ _ _
@[simp] theorem bumpCounter_former (s : State) (g : TileName) (k n : Nat) : (bumpCounter s g k n).former = s.former := modGang_former _ _ _
@[simp] theorem bumpCounter_flash (s : State) (g : TileName) (k n : Nat) : (bumpCounter s g k n).flash = s.flash := modGang_flash _ _ _
@[simp] theorem bumpCounter_out (s : State) (g : TileName) (k n : Nat) : (bumpCounter s g k n).out = s.out := modGang_out _ _ _
@[simp] theorem bumpCounter_freeCount (s : State) (g : TileName) (k n : Nat) : (bumpCounter s g k n).freeCount = s.freeCount := modGang_freeCount _ _ _

@[simp] theorem putVPort_now (s : State) (t : TileName) (k : Nat) (v : Vec) : (putVPort s t k v).now = s.now := rfl
@[simp] theorem putVPort_phase (s : State) (t : TileName) (k : Nat) (v : Vec) : (putVPort s t k v).phase = s.phase := rfl
@[simp] theorem putVPort_issue (s : State) (t : TileName) (k : Nat) (v : Vec) : (putVPort s t k v).issue = s.issue := rfl
@[simp] theorem putVPort_arg (s : State) (t : TileName) (k : Nat) (v : Vec) : (putVPort s t k v).arg = s.arg := rfl
@[simp] theorem putVPort_own (s : State) (t : TileName) (k : Nat) (v : Vec) : (putVPort s t k v).own = s.own := rfl
@[simp] theorem putVPort_agenda (s : State) (t : TileName) (k : Nat) (v : Vec) : (putVPort s t k v).agenda = s.agenda := rfl
@[simp] theorem putVPort_gangs (s : State) (t : TileName) (k : Nat) (v : Vec) : (putVPort s t k v).gangs = s.gangs := rfl
@[simp] theorem putVPort_ctxs (s : State) (t : TileName) (k : Nat) (v : Vec) : (putVPort s t k v).ctxs = s.ctxs := rfl
@[simp] theorem putVPort_tasks (s : State) (t : TileName) (k : Nat) (v : Vec) : (putVPort s t k v).tasks = s.tasks := rfl
@[simp] theorem putVPort_mem (s : State) (t : TileName) (k : Nat) (v : Vec) : (putVPort s t k v).mem = s.mem := rfl
@[simp] theorem putVPort_vault (s : State) (t : TileName) (k : Nat) (v : Vec) : (putVPort s t k v).vault = s.vault := rfl
@[simp] theorem putVPort_frames (s : State) (t : TileName) (k : Nat) (v : Vec) : (putVPort s t k v).frames = s.frames := rfl
@[simp] theorem putVPort_timeTable (s : State) (t : TileName) (k : Nat) (v : Vec) : (putVPort s t k v).timeTable = s.timeTable := rfl
@[simp] theorem putVPort_cands (s : State) (t : TileName) (k : Nat) (v : Vec) : (putVPort s t k v).cands = s.cands := rfl
@[simp] theorem putVPort_graphs (s : State) (t : TileName) (k : Nat) (v : Vec) : (putVPort s t k v).graphs = s.graphs := rfl
@[simp] theorem putVPort_links (s : State) (t : TileName) (k : Nat) (v : Vec) : (putVPort s t k v).links = s.links := rfl
@[simp] theorem putVPort_ports (s : State) (t : TileName) (k : Nat) (v : Vec) : (putVPort s t k v).ports = s.ports := rfl
@[simp] theorem putVPort_windows (s : State) (t : TileName) (k : Nat) (v : Vec) : (putVPort s t k v).windows = s.windows := rfl
@[simp] theorem putVPort_units (s : State) (t : TileName) (k : Nat) (v : Vec) : (putVPort s t k v).units = s.units := rfl
@[simp] theorem putVPort_binding (s : State) (t : TileName) (k : Nat) (v : Vec) : (putVPort s t k v).binding = s.binding := rfl
@[simp] theorem putVPort_images (s : State) (t : TileName) (k : Nat) (v : Vec) : (putVPort s t k v).images = s.images := rfl
@[simp] theorem putVPort_islands (s : State) (t : TileName) (k : Nat) (v : Vec) : (putVPort s t k v).islands = s.islands := rfl
@[simp] theorem putVPort_ahead (s : State) (t : TileName) (k : Nat) (v : Vec) : (putVPort s t k v).ahead = s.ahead := rfl
@[simp] theorem putVPort_lastSkips (s : State) (t : TileName) (k : Nat) (v : Vec) : (putVPort s t k v).lastSkips = s.lastSkips := rfl
@[simp] theorem putVPort_former (s : State) (t : TileName) (k : Nat) (v : Vec) : (putVPort s t k v).former = s.former := rfl
@[simp] theorem putVPort_flash (s : State) (t : TileName) (k : Nat) (v : Vec) : (putVPort s t k v).flash = s.flash := rfl
@[simp] theorem putVPort_out (s : State) (t : TileName) (k : Nat) (v : Vec) : (putVPort s t k v).out = s.out := rfl
@[simp] theorem putVPort_freeCount (s : State) (t : TileName) (k : Nat) (v : Vec) : (putVPort s t k v).freeCount = s.freeCount := rfl

@[simp] theorem putFE_now (s : State) (g : TileName) (h : Bool) (k : Nat) (v : TV) : (putFE s g h k v).now = s.now := modGang_now _ _ _
@[simp] theorem putFE_phase (s : State) (g : TileName) (h : Bool) (k : Nat) (v : TV) : (putFE s g h k v).phase = s.phase := modGang_phase _ _ _
@[simp] theorem putFE_issue (s : State) (g : TileName) (h : Bool) (k : Nat) (v : TV) : (putFE s g h k v).issue = s.issue := modGang_issue _ _ _
@[simp] theorem putFE_arg (s : State) (g : TileName) (h : Bool) (k : Nat) (v : TV) : (putFE s g h k v).arg = s.arg := modGang_arg _ _ _
@[simp] theorem putFE_own (s : State) (g : TileName) (h : Bool) (k : Nat) (v : TV) : (putFE s g h k v).own = s.own := modGang_own _ _ _
@[simp] theorem putFE_agenda (s : State) (g : TileName) (h : Bool) (k : Nat) (v : TV) : (putFE s g h k v).agenda = s.agenda := modGang_agenda _ _ _
@[simp] theorem putFE_slabs (s : State) (g : TileName) (h : Bool) (k : Nat) (v : TV) : (putFE s g h k v).slabs = s.slabs := modGang_slabs _ _ _
@[simp] theorem putFE_ctxs (s : State) (g : TileName) (h : Bool) (k : Nat) (v : TV) : (putFE s g h k v).ctxs = s.ctxs := modGang_ctxs _ _ _
@[simp] theorem putFE_tasks (s : State) (g : TileName) (h : Bool) (k : Nat) (v : TV) : (putFE s g h k v).tasks = s.tasks := modGang_tasks _ _ _
@[simp] theorem putFE_mem (s : State) (g : TileName) (h : Bool) (k : Nat) (v : TV) : (putFE s g h k v).mem = s.mem := modGang_mem _ _ _
@[simp] theorem putFE_vault (s : State) (g : TileName) (h : Bool) (k : Nat) (v : TV) : (putFE s g h k v).vault = s.vault := modGang_vault _ _ _
@[simp] theorem putFE_frames (s : State) (g : TileName) (h : Bool) (k : Nat) (v : TV) : (putFE s g h k v).frames = s.frames := modGang_frames _ _ _
@[simp] theorem putFE_timeTable (s : State) (g : TileName) (h : Bool) (k : Nat) (v : TV) : (putFE s g h k v).timeTable = s.timeTable := modGang_timeTable _ _ _
@[simp] theorem putFE_cands (s : State) (g : TileName) (h : Bool) (k : Nat) (v : TV) : (putFE s g h k v).cands = s.cands := modGang_cands _ _ _
@[simp] theorem putFE_graphs (s : State) (g : TileName) (h : Bool) (k : Nat) (v : TV) : (putFE s g h k v).graphs = s.graphs := modGang_graphs _ _ _
@[simp] theorem putFE_links (s : State) (g : TileName) (h : Bool) (k : Nat) (v : TV) : (putFE s g h k v).links = s.links := modGang_links _ _ _
@[simp] theorem putFE_ports (s : State) (g : TileName) (h : Bool) (k : Nat) (v : TV) : (putFE s g h k v).ports = s.ports := modGang_ports _ _ _
@[simp] theorem putFE_windows (s : State) (g : TileName) (h : Bool) (k : Nat) (v : TV) : (putFE s g h k v).windows = s.windows := modGang_windows _ _ _
@[simp] theorem putFE_units (s : State) (g : TileName) (h : Bool) (k : Nat) (v : TV) : (putFE s g h k v).units = s.units := modGang_units _ _ _
@[simp] theorem putFE_binding (s : State) (g : TileName) (h : Bool) (k : Nat) (v : TV) : (putFE s g h k v).binding = s.binding := modGang_binding _ _ _
@[simp] theorem putFE_images (s : State) (g : TileName) (h : Bool) (k : Nat) (v : TV) : (putFE s g h k v).images = s.images := modGang_images _ _ _
@[simp] theorem putFE_islands (s : State) (g : TileName) (h : Bool) (k : Nat) (v : TV) : (putFE s g h k v).islands = s.islands := modGang_islands _ _ _
@[simp] theorem putFE_ahead (s : State) (g : TileName) (h : Bool) (k : Nat) (v : TV) : (putFE s g h k v).ahead = s.ahead := modGang_ahead _ _ _
@[simp] theorem putFE_lastSkips (s : State) (g : TileName) (h : Bool) (k : Nat) (v : TV) : (putFE s g h k v).lastSkips = s.lastSkips := modGang_lastSkips _ _ _
@[simp] theorem putFE_former (s : State) (g : TileName) (h : Bool) (k : Nat) (v : TV) : (putFE s g h k v).former = s.former := modGang_former _ _ _
@[simp] theorem putFE_flash (s : State) (g : TileName) (h : Bool) (k : Nat) (v : TV) : (putFE s g h k v).flash = s.flash := modGang_flash _ _ _
@[simp] theorem putFE_out (s : State) (g : TileName) (h : Bool) (k : Nat) (v : TV) : (putFE s g h k v).out = s.out := modGang_out _ _ _
@[simp] theorem putFE_freeCount (s : State) (g : TileName) (h : Bool) (k : Nat) (v : TV) : (putFE s g h k v).freeCount = s.freeCount := modGang_freeCount _ _ _

@[simp] theorem putSl_now (s : State) (t : TileName) (h : Bool) (k : Nat) (v : TV) : (putSl s t h k v).now = s.now := rfl
@[simp] theorem putSl_phase (s : State) (t : TileName) (h : Bool) (k : Nat) (v : TV) : (putSl s t h k v).phase = s.phase := rfl
@[simp] theorem putSl_issue (s : State) (t : TileName) (h : Bool) (k : Nat) (v : TV) : (putSl s t h k v).issue = s.issue := rfl
@[simp] theorem putSl_arg (s : State) (t : TileName) (h : Bool) (k : Nat) (v : TV) : (putSl s t h k v).arg = s.arg := rfl
@[simp] theorem putSl_own (s : State) (t : TileName) (h : Bool) (k : Nat) (v : TV) : (putSl s t h k v).own = s.own := rfl
@[simp] theorem putSl_agenda (s : State) (t : TileName) (h : Bool) (k : Nat) (v : TV) : (putSl s t h k v).agenda = s.agenda := rfl
@[simp] theorem putSl_gangs (s : State) (t : TileName) (h : Bool) (k : Nat) (v : TV) : (putSl s t h k v).gangs = s.gangs := rfl
@[simp] theorem putSl_ctxs (s : State) (t : TileName) (h : Bool) (k : Nat) (v : TV) : (putSl s t h k v).ctxs = s.ctxs := rfl
@[simp] theorem putSl_tasks (s : State) (t : TileName) (h : Bool) (k : Nat) (v : TV) : (putSl s t h k v).tasks = s.tasks := rfl
@[simp] theorem putSl_mem (s : State) (t : TileName) (h : Bool) (k : Nat) (v : TV) : (putSl s t h k v).mem = s.mem := rfl
@[simp] theorem putSl_vault (s : State) (t : TileName) (h : Bool) (k : Nat) (v : TV) : (putSl s t h k v).vault = s.vault := rfl
@[simp] theorem putSl_frames (s : State) (t : TileName) (h : Bool) (k : Nat) (v : TV) : (putSl s t h k v).frames = s.frames := rfl
@[simp] theorem putSl_timeTable (s : State) (t : TileName) (h : Bool) (k : Nat) (v : TV) : (putSl s t h k v).timeTable = s.timeTable := rfl
@[simp] theorem putSl_cands (s : State) (t : TileName) (h : Bool) (k : Nat) (v : TV) : (putSl s t h k v).cands = s.cands := rfl
@[simp] theorem putSl_graphs (s : State) (t : TileName) (h : Bool) (k : Nat) (v : TV) : (putSl s t h k v).graphs = s.graphs := rfl
@[simp] theorem putSl_links (s : State) (t : TileName) (h : Bool) (k : Nat) (v : TV) : (putSl s t h k v).links = s.links := rfl
@[simp] theorem putSl_ports (s : State) (t : TileName) (h : Bool) (k : Nat) (v : TV) : (putSl s t h k v).ports = s.ports := rfl
@[simp] theorem putSl_windows (s : State) (t : TileName) (h : Bool) (k : Nat) (v : TV) : (putSl s t h k v).windows = s.windows := rfl
@[simp] theorem putSl_units (s : State) (t : TileName) (h : Bool) (k : Nat) (v : TV) : (putSl s t h k v).units = s.units := rfl
@[simp] theorem putSl_binding (s : State) (t : TileName) (h : Bool) (k : Nat) (v : TV) : (putSl s t h k v).binding = s.binding := rfl
@[simp] theorem putSl_images (s : State) (t : TileName) (h : Bool) (k : Nat) (v : TV) : (putSl s t h k v).images = s.images := rfl
@[simp] theorem putSl_islands (s : State) (t : TileName) (h : Bool) (k : Nat) (v : TV) : (putSl s t h k v).islands = s.islands := rfl
@[simp] theorem putSl_ahead (s : State) (t : TileName) (h : Bool) (k : Nat) (v : TV) : (putSl s t h k v).ahead = s.ahead := rfl
@[simp] theorem putSl_lastSkips (s : State) (t : TileName) (h : Bool) (k : Nat) (v : TV) : (putSl s t h k v).lastSkips = s.lastSkips := rfl
@[simp] theorem putSl_former (s : State) (t : TileName) (h : Bool) (k : Nat) (v : TV) : (putSl s t h k v).former = s.former := rfl
@[simp] theorem putSl_flash (s : State) (t : TileName) (h : Bool) (k : Nat) (v : TV) : (putSl s t h k v).flash = s.flash := rfl
@[simp] theorem putSl_out (s : State) (t : TileName) (h : Bool) (k : Nat) (v : TV) : (putSl s t h k v).out = s.out := rfl
@[simp] theorem putSl_freeCount (s : State) (t : TileName) (h : Bool) (k : Nat) (v : TV) : (putSl s t h k v).freeCount = s.freeCount := rfl

@[simp] theorem blockTrap_now (s : State) (i : Issue) (c : Nat) : (blockTrap s i c).now = s.now := modGang_now _ _ _
@[simp] theorem blockTrap_phase (s : State) (i : Issue) (c : Nat) : (blockTrap s i c).phase = s.phase := modGang_phase _ _ _
@[simp] theorem blockTrap_issue (s : State) (i : Issue) (c : Nat) : (blockTrap s i c).issue = s.issue := modGang_issue _ _ _
@[simp] theorem blockTrap_arg (s : State) (i : Issue) (c : Nat) : (blockTrap s i c).arg = s.arg := modGang_arg _ _ _
@[simp] theorem blockTrap_own (s : State) (i : Issue) (c : Nat) : (blockTrap s i c).own = s.own := modGang_own _ _ _
@[simp] theorem blockTrap_agenda (s : State) (i : Issue) (c : Nat) : (blockTrap s i c).agenda = s.agenda := modGang_agenda _ _ _
@[simp] theorem blockTrap_slabs (s : State) (i : Issue) (c : Nat) : (blockTrap s i c).slabs = s.slabs := modGang_slabs _ _ _
@[simp] theorem blockTrap_ctxs (s : State) (i : Issue) (c : Nat) : (blockTrap s i c).ctxs = s.ctxs := modGang_ctxs _ _ _
@[simp] theorem blockTrap_tasks (s : State) (i : Issue) (c : Nat) : (blockTrap s i c).tasks = s.tasks := modGang_tasks _ _ _
@[simp] theorem blockTrap_mem (s : State) (i : Issue) (c : Nat) : (blockTrap s i c).mem = s.mem := modGang_mem _ _ _
@[simp] theorem blockTrap_vault (s : State) (i : Issue) (c : Nat) : (blockTrap s i c).vault = s.vault := modGang_vault _ _ _
@[simp] theorem blockTrap_frames (s : State) (i : Issue) (c : Nat) : (blockTrap s i c).frames = s.frames := modGang_frames _ _ _
@[simp] theorem blockTrap_timeTable (s : State) (i : Issue) (c : Nat) : (blockTrap s i c).timeTable = s.timeTable := modGang_timeTable _ _ _
@[simp] theorem blockTrap_cands (s : State) (i : Issue) (c : Nat) : (blockTrap s i c).cands = s.cands := modGang_cands _ _ _
@[simp] theorem blockTrap_graphs (s : State) (i : Issue) (c : Nat) : (blockTrap s i c).graphs = s.graphs := modGang_graphs _ _ _
@[simp] theorem blockTrap_links (s : State) (i : Issue) (c : Nat) : (blockTrap s i c).links = s.links := modGang_links _ _ _
@[simp] theorem blockTrap_ports (s : State) (i : Issue) (c : Nat) : (blockTrap s i c).ports = s.ports := modGang_ports _ _ _
@[simp] theorem blockTrap_windows (s : State) (i : Issue) (c : Nat) : (blockTrap s i c).windows = s.windows := modGang_windows _ _ _
@[simp] theorem blockTrap_units (s : State) (i : Issue) (c : Nat) : (blockTrap s i c).units = s.units := modGang_units _ _ _
@[simp] theorem blockTrap_binding (s : State) (i : Issue) (c : Nat) : (blockTrap s i c).binding = s.binding := modGang_binding _ _ _
@[simp] theorem blockTrap_images (s : State) (i : Issue) (c : Nat) : (blockTrap s i c).images = s.images := modGang_images _ _ _
@[simp] theorem blockTrap_islands (s : State) (i : Issue) (c : Nat) : (blockTrap s i c).islands = s.islands := modGang_islands _ _ _
@[simp] theorem blockTrap_ahead (s : State) (i : Issue) (c : Nat) : (blockTrap s i c).ahead = s.ahead := modGang_ahead _ _ _
@[simp] theorem blockTrap_lastSkips (s : State) (i : Issue) (c : Nat) : (blockTrap s i c).lastSkips = s.lastSkips := modGang_lastSkips _ _ _
@[simp] theorem blockTrap_former (s : State) (i : Issue) (c : Nat) : (blockTrap s i c).former = s.former := modGang_former _ _ _
@[simp] theorem blockTrap_flash (s : State) (i : Issue) (c : Nat) : (blockTrap s i c).flash = s.flash := modGang_flash _ _ _
@[simp] theorem blockTrap_out (s : State) (i : Issue) (c : Nat) : (blockTrap s i c).out = s.out := modGang_out _ _ _
@[simp] theorem blockTrap_freeCount (s : State) (i : Issue) (c : Nat) : (blockTrap s i c).freeCount = s.freeCount := modGang_freeCount _ _ _

/-- A freeze edge is set in its context and on the agenda alone (20_fault R450). -/
theorem setEdge_keeps (s : State) (c f : Nat) :
    (setEdge s c f).mem = s.mem ∧ (setEdge s c f).vault = s.vault ∧ (setEdge s c f).now = s.now ∧
      (setEdge s c f).gangs = s.gangs ∧ (setEdge s c f).slabs = s.slabs ∧ (setEdge s c f).issue = s.issue := by
  simp only [setEdge]
  split
  · simp
  · split
    · split <;> simp
    · simp

@[simp] theorem setEdge_mem (s : State) (c f : Nat) : (setEdge s c f).mem = s.mem := (setEdge_keeps s c f).1
@[simp] theorem setEdge_vault (s : State) (c f : Nat) : (setEdge s c f).vault = s.vault := (setEdge_keeps s c f).2.1
@[simp] theorem setEdge_now (s : State) (c f : Nat) : (setEdge s c f).now = s.now := (setEdge_keeps s c f).2.2.1
@[simp] theorem setEdge_gangs (s : State) (c f : Nat) : (setEdge s c f).gangs = s.gangs := (setEdge_keeps s c f).2.2.2.1
@[simp] theorem setEdge_slabs (s : State) (c f : Nat) : (setEdge s c f).slabs = s.slabs := (setEdge_keeps s c f).2.2.2.2.1
@[simp] theorem setEdge_issue (s : State) (c f : Nat) : (setEdge s c f).issue = s.issue := (setEdge_keeps s c f).2.2.2.2.2

theorem oweDump_keeps (s : State) (c k z : Nat) :
    (oweDump s c k z).mem = s.mem ∧ (oweDump s c k z).vault = s.vault ∧ (oweDump s c k z).now = s.now ∧
      (oweDump s c k z).gangs = s.gangs ∧ (oweDump s c k z).slabs = s.slabs ∧ (oweDump s c k z).issue = s.issue := by
  simp only [oweDump]
  (repeat' split) <;> simp

@[simp] theorem oweDump_mem (s : State) (c k z : Nat) : (oweDump s c k z).mem = s.mem := (oweDump_keeps s c k z).1
@[simp] theorem oweDump_vault (s : State) (c k z : Nat) : (oweDump s c k z).vault = s.vault := (oweDump_keeps s c k z).2.1
@[simp] theorem oweDump_now (s : State) (c k z : Nat) : (oweDump s c k z).now = s.now := (oweDump_keeps s c k z).2.2.1
@[simp] theorem oweDump_gangs (s : State) (c k z : Nat) : (oweDump s c k z).gangs = s.gangs := (oweDump_keeps s c k z).2.2.2.1
@[simp] theorem oweDump_slabs (s : State) (c k z : Nat) : (oweDump s c k z).slabs = s.slabs := (oweDump_keeps s c k z).2.2.2.2.1
@[simp] theorem oweDump_issue (s : State) (c k z : Nat) : (oweDump s c k z).issue = s.issue := (oweDump_keeps s c k z).2.2.2.2.2

/-- A fault writes no memory, no register and no bundle in hand (20_fault R449). -/
theorem raiseWith_keeps (s : State) (a : FaultArgs) :
    (raiseWith s a).mem = s.mem ∧ (raiseWith s a).vault = s.vault ∧ (raiseWith s a).now = s.now ∧
      (raiseWith s a).gangs = s.gangs ∧ (raiseWith s a).slabs = s.slabs ∧ (raiseWith s a).issue = s.issue := by
  unfold raiseWith
  cases hf : fixedHorizon a.cls <;> simp only [freeDelay, if_true, if_false, Bool.false_eq_true] <;>
    (repeat' split) <;> simp

@[simp] theorem raiseWith_mem (s : State) (a : FaultArgs) : (raiseWith s a).mem = s.mem := (raiseWith_keeps s _).1
@[simp] theorem raise_mem (s : State) (o : Owner) (c k : Nat) : (raise s o c k).mem = s.mem := (raiseWith_keeps s _).1
@[simp] theorem raiseAux_mem (s : State) (o : Owner) (c k : Nat) (a : Word) (g : Nat) : (raiseAux s o c k a g).mem = s.mem := (raiseWith_keeps s _).1
@[simp] theorem raiseDelivery_mem (s : State) (o : Owner) (c k : Nat) (a : Word) (t : TileName) : (raiseDelivery s o c k a t).mem = s.mem := (raiseWith_keeps s _).1
@[simp] theorem consumeDF_mem (s : State) (i : Issue) (k : Nat) : (consumeDF s i k).mem = s.mem := (raiseWith_keeps s _).1

@[simp] theorem raiseWith_vault (s : State) (a : FaultArgs) : (raiseWith s a).vault = s.vault := (raiseWith_keeps s _).2.1
@[simp] theorem raise_vault (s : State) (o : Owner) (c k : Nat) : (raise s o c k).vault = s.vault := (raiseWith_keeps s _).2.1
@[simp] theorem raiseAux_vault (s : State) (o : Owner) (c k : Nat) (a : Word) (g : Nat) : (raiseAux s o c k a g).vault = s.vault := (raiseWith_keeps s _).2.1
@[simp] theorem raiseDelivery_vault (s : State) (o : Owner) (c k : Nat) (a : Word) (t : TileName) : (raiseDelivery s o c k a t).vault = s.vault := (raiseWith_keeps s _).2.1
@[simp] theorem consumeDF_vault (s : State) (i : Issue) (k : Nat) : (consumeDF s i k).vault = s.vault := (raiseWith_keeps s _).2.1

@[simp] theorem raiseWith_now (s : State) (a : FaultArgs) : (raiseWith s a).now = s.now := (raiseWith_keeps s _).2.2.1
@[simp] theorem raise_now (s : State) (o : Owner) (c k : Nat) : (raise s o c k).now = s.now := (raiseWith_keeps s _).2.2.1
@[simp] theorem raiseAux_now (s : State) (o : Owner) (c k : Nat) (a : Word) (g : Nat) : (raiseAux s o c k a g).now = s.now := (raiseWith_keeps s _).2.2.1
@[simp] theorem raiseDelivery_now (s : State) (o : Owner) (c k : Nat) (a : Word) (t : TileName) : (raiseDelivery s o c k a t).now = s.now := (raiseWith_keeps s _).2.2.1
@[simp] theorem consumeDF_now (s : State) (i : Issue) (k : Nat) : (consumeDF s i k).now = s.now := (raiseWith_keeps s _).2.2.1

@[simp] theorem raiseWith_gangs (s : State) (a : FaultArgs) : (raiseWith s a).gangs = s.gangs := (raiseWith_keeps s _).2.2.2.1
@[simp] theorem raise_gangs (s : State) (o : Owner) (c k : Nat) : (raise s o c k).gangs = s.gangs := (raiseWith_keeps s _).2.2.2.1
@[simp] theorem raiseAux_gangs (s : State) (o : Owner) (c k : Nat) (a : Word) (g : Nat) : (raiseAux s o c k a g).gangs = s.gangs := (raiseWith_keeps s _).2.2.2.1
@[simp] theorem raiseDelivery_gangs (s : State) (o : Owner) (c k : Nat) (a : Word) (t : TileName) : (raiseDelivery s o c k a t).gangs = s.gangs := (raiseWith_keeps s _).2.2.2.1
@[simp] theorem consumeDF_gangs (s : State) (i : Issue) (k : Nat) : (consumeDF s i k).gangs = s.gangs := (raiseWith_keeps s _).2.2.2.1

@[simp] theorem raiseWith_slabs (s : State) (a : FaultArgs) : (raiseWith s a).slabs = s.slabs := (raiseWith_keeps s _).2.2.2.2.1
@[simp] theorem raise_slabs (s : State) (o : Owner) (c k : Nat) : (raise s o c k).slabs = s.slabs := (raiseWith_keeps s _).2.2.2.2.1
@[simp] theorem raiseAux_slabs (s : State) (o : Owner) (c k : Nat) (a : Word) (g : Nat) : (raiseAux s o c k a g).slabs = s.slabs := (raiseWith_keeps s _).2.2.2.2.1
@[simp] theorem raiseDelivery_slabs (s : State) (o : Owner) (c k : Nat) (a : Word) (t : TileName) : (raiseDelivery s o c k a t).slabs = s.slabs := (raiseWith_keeps s _).2.2.2.2.1
@[simp] theorem consumeDF_slabs (s : State) (i : Issue) (k : Nat) : (consumeDF s i k).slabs = s.slabs := (raiseWith_keeps s _).2.2.2.2.1

@[simp] theorem raiseWith_issue (s : State) (a : FaultArgs) : (raiseWith s a).issue = s.issue := (raiseWith_keeps s _).2.2.2.2.2
@[simp] theorem raise_issue (s : State) (o : Owner) (c k : Nat) : (raise s o c k).issue = s.issue := (raiseWith_keeps s _).2.2.2.2.2
@[simp] theorem raiseAux_issue (s : State) (o : Owner) (c k : Nat) (a : Word) (g : Nat) : (raiseAux s o c k a g).issue = s.issue := (raiseWith_keeps s _).2.2.2.2.2
@[simp] theorem raiseDelivery_issue (s : State) (o : Owner) (c k : Nat) (a : Word) (t : TileName) : (raiseDelivery s o c k a t).issue = s.issue := (raiseWith_keeps s _).2.2.2.2.2
@[simp] theorem consumeDF_issue (s : State) (i : Issue) (k : Nat) : (consumeDF s i k).issue = s.issue := (raiseWith_keeps s _).2.2.2.2.2

/-- A loop over tiles keeps what its body keeps. -/
theorem forTiles_keeps {α : Type} (p : State → α) (f : State → TileName → State) (h : ∀ s t, p (f s t) = p s) (s : State)
    (ts : List TileName) : p (forTiles s ts f) = p s := by
  induction ts generalizing s with
  | nil => rfl
  | cons t ts ih => exact (ih (f s t)).trans (h s t)

end Sys2Proof.Machine
end

