-- ==== Sys2Proof/Laws/Tab.lean ====
section
/-! SUPPORT. Sparse tables and the accessors over them: what is read after a write. -/

namespace Sys2Proof.Machine

variable {α : Type}

@[simp] theorem tabGet_nil (k : Nat) : tabGet ([] : Tab α) k = none := rfl

@[simp] theorem tabGet_tabPut_self (t : Tab α) (k : Nat) (v : α) : tabGet (tabPut t k v) k = some v := by
  induction t with
  | nil => simp [tabPut, tabGet]
  | cons c t ih =>
    simp only [tabPut]
    split
    · simp [tabGet]
    · split
      · simp [tabGet]
      · rename_i h
        rw [tabGet, if_neg (fun e => h e.symm), ih]

theorem tabGet_tabPut_ne (t : Tab α) {k k' : Nat} (v : α) (h : k' ≠ k) : tabGet (tabPut t k v) k' = tabGet t k' := by
  induction t with
  | nil => simp [tabPut, tabGet, h.symm]
  | cons c t ih =>
    simp only [tabPut]
    split
    · simp [tabGet, h.symm]
    · split
      · rename_i e; simp [tabGet, h.symm, ← e]
      · simp [tabGet, ih]

@[simp] theorem tabGetD_tabPut_self (d : α) (t : Tab α) (k : Nat) (v : α) : tabGetD d (tabPut t k v) k = v := by
  simp [tabGetD]

theorem tabGetD_tabPut_ne (d : α) (t : Tab α) {k k' : Nat} (v : α) (h : k' ≠ k) :
    tabGetD d (tabPut t k v) k' = tabGetD d t k' := by simp [tabGetD, tabGet_tabPut_ne t v h]

@[simp] theorem slabOf_modSlab_self (s : State) (t : TileName) (f : Slab → Slab) :
    slabOf (modSlab s t f) t = f (slabOf s t) := by simp [slabOf, modSlab]

theorem slabOf_modSlab_ne (s : State) {t t' : TileName} (f : Slab → Slab) (h : t' ≠ t) :
    slabOf (modSlab s t f) t' = slabOf s t' := by simp [slabOf, modSlab, tabGetD_tabPut_ne _ _ _ h]

@[simp] theorem ctxOf_modCtx_self (s : State) (c : Nat) (f : Ctx → Ctx) : ctxOf (modCtx s c f) c = f (ctxOf s c) := by
  simp [ctxOf, modCtx]

theorem ctxOf_modCtx_ne (s : State) {c c' : Nat} (f : Ctx → Ctx) (h : c' ≠ c) :
    ctxOf (modCtx s c f) c' = ctxOf s c' := by simp [ctxOf, modCtx, tabGetD_tabPut_ne _ _ _ h]

theorem gangOf_modGang_self (s : State) (n : TileName) (f : Gang → Gang) (h : (tabGet s.gangs n).isSome = true) :
    gangOf (modGang s n f) n = f (gangOf s n) := by
  obtain ⟨g, hg⟩ := Option.isSome_iff_exists.mp h
  simp [gangOf, modGang, hg, tabGetD]

theorem gangOf_modGang_ne (s : State) {n n' : TileName} (f : Gang → Gang) (h : n' ≠ n) :
    gangOf (modGang s n f) n' = gangOf s n' := by
  unfold modGang; split
  · simp [gangOf, tabGetD_tabPut_ne _ _ _ h]
  · rfl

/-- A field that f keeps is read as before in every gang. -/
theorem gangOf_modGang_field {β : Type} (p : Gang → β) (s : State) (n n' : TileName) (f : Gang → Gang)
    (h : ∀ g, p (f g) = p g) : p (gangOf (modGang s n f) n') = p (gangOf s n') := by
  by_cases e : n' = n
  · subst e
    cases hg : tabGet s.gangs n' with
    | none => simp [modGang, hg]
    | some g => rw [gangOf_modGang_self _ _ _ (by simp [hg]), h]
  · rw [gangOf_modGang_ne _ _ e]

/-- A field that f keeps is read as before in every slab. -/
theorem slabOf_modSlab_field {β : Type} (p : Slab → β) (s : State) (t t' : TileName) (f : Slab → Slab)
    (h : ∀ g, p (f g) = p g) : p (slabOf (modSlab s t f) t') = p (slabOf s t') := by
  by_cases e : t' = t
  · subst e; simp [h]
  · rw [slabOf_modSlab_ne _ _ e]

end Sys2Proof.Machine
end

