-- ==== Sys2Proof/Laws/Slot.lean ====
section
/-! SUPPORT. A slot: what it does when it runs, what it does when it does not, and that counting it changes nothing a source or an operand reads. -/

namespace Sys2Proof.Machine

/-- A slot that runs has its effect on the state with the slot counted. -/
theorem slotStep_runs {s : State} {is : Issue} {g : BitVec 5} {d : Nat} (h : slotRuns s is g d) (f : Issue → State → State) :
    slotStep s g d f = .next (f (firedIssue is d) (fired s is d)) := by
  obtain ⟨h1, h2, h3⟩ := h
  have hh : (gangOf (fired s is d) is.gang).handler = (gangOf s is.gang).handler :=
    gangOf_modGang_field Gang.handler _ _ _ _ (fun _ => rfl)
  unfold slotStep
  simp only [h1, h2, Bool.not_true, Bool.false_eq_true, if_false]
  change (if ((gangOf (fired s is d) is.gang).handler && !handlerMay d) = true then _ else Host.Outcome.next _) = _
  rw [hh]
  cases hb : (gangOf s is.gang).handler with
  | false => simp [firedIssue, fired]
  | true => simp [h3 hb, firedIssue, fired]

/-- A slot whose guard does not hold does nothing (02_bundle R31). -/
theorem slotStep_guard {s : State} {is : Issue} {g : BitVec 5} {d : Nat} (h1 : s.issue = some is)
    (h2 : guardHolds g (srcGang s is).p = false) (f : Issue → State → State) : slotStep s g d f = .next s := by
  simp [slotStep, h1, h2]

/-- Every slot answers a next state: the bundle is in hand. -/
theorem slotStep_next {s : State} {is : Issue} (h1 : s.issue = some is) (g : BitVec 5) (d : Nat)
    (f : Issue → State → State) : ∃ t, slotStep s g d f = .next t := by
  unfold slotStep
  simp only [h1]
  split
  · exact ⟨_, rfl⟩
  · split <;> exact ⟨_, rfl⟩

section
variable (s : State) (is : Issue) (d : Nat)

@[simp] theorem fired_now : (fired s is d).now = s.now := by simp [fired]
@[simp] theorem fired_agenda : (fired s is d).agenda = s.agenda := by simp [fired]
@[simp] theorem fired_mem : (fired s is d).mem = s.mem := by simp [fired]
@[simp] theorem fired_vault : (fired s is d).vault = s.vault := by simp [fired]
@[simp] theorem fired_slabs : (fired s is d).slabs = s.slabs := by simp [fired]
@[simp] theorem fired_ctxs : (fired s is d).ctxs = s.ctxs := by simp [fired]
@[simp] theorem fired_issue : (fired s is d).issue = some (firedIssue is d) := by simp [fired]
@[simp] theorem fired_slabOf (t : TileName) : slabOf (fired s is d) t = slabOf s t := by simp [slabOf]
@[simp] theorem fired_ctxOf (c : Nat) : ctxOf (fired s is d) c = ctxOf s c := by simp [ctxOf]
@[simp] theorem fired_ahead : (fired s is d).ahead = s.ahead := by simp [fired]
@[simp] theorem fired_cycAt (t : TileName) (y : Nat) : cycAt (fired s is d) t y = cycAt s t y := by simp [cycAt, aheadOf]
@[simp] theorem fired_tileCyc (t : TileName) : tileCyc (fired s is d) t = tileCyc s t := by simp [tileCyc]

/-- A field of a gang other than its counters is read as before. -/
theorem fired_gangOf {β : Type} (p : Gang → β) (h : ∀ (g : Gang) (c : Tab (BitVec 32)), p { g with counters := c } = p g)
    (n : TileName) : p (gangOf (fired s is d) n) = p (gangOf s n) :=
  gangOf_modGang_field p _ _ _ _ (fun g => h g _)

@[simp] theorem fired_gangTiles (n : TileName) : gangTiles (fired s is d) n = gangTiles s n := by
  unfold gangTiles; rw [fired_gangOf s is d Gang.width (fun _ _ => rfl)]

@[simp] theorem fired_issueOwner : issueOwner (fired s is d) (firedIssue is d) = slotOwner s is d := by
  unfold slotOwner issueOwner
  rw [show (firedIssue is d).gang = is.gang from rfl]
  have h1 := fired_gangOf s is d Gang.ctx (fun _ _ => rfl) is.gang
  have h2 := fired_gangOf s is d Gang.task (fun _ _ => rfl) is.gang
  have h3 := fired_gangOf s is d Gang.handler (fun _ _ => rfl) is.gang
  simp only [h1, h2, h3, fired_now]

theorem fired_srcGang {β : Type} (p : Gang → β) (h : ∀ (g : Gang) (c : Tab (BitVec 32)), p { g with counters := c } = p g) :
    p (srcGang (fired s is d) (firedIssue is d)) = p (srcGang s is) := by
  unfold srcGang
  cases hs : is.snap with
  | none => simp only [firedIssue, hs]; exact fired_gangOf s is d p h _
  | some sn => simp only [firedIssue, hs]

@[simp] theorem fired_srcSlab (t : TileName) : srcSlab (fired s is d) (firedIssue is d) t = srcSlab s is t := by
  unfold srcSlab
  cases hs : is.snap with
  | none => simp only [firedIssue, hs]; exact fired_slabOf s is d t
  | some sn => simp only [firedIssue, hs]

/-- Counting the slot changes nothing that a source reads. -/
@[simp] theorem fired_readScalar (t : TileName) (src : BitVec 9) :
    readScalar (fired s is d) (firedIssue is d) t src = readScalar s is t src := by
  have h1 := fired_srcGang s is d (fun g => (g.handler, g.ctx)) (fun _ _ => rfl)
  have h2 := fired_srcGang s is d (fun g => feSource g (tileCyc s is.gang) is.hdr src.toNat) (fun _ _ => rfl)
  simp only [Prod.mk.injEq] at h1
  simp only [readScalar, fired_srcSlab, fired_now, fired_tileCyc, h1.1, h1.2]
  split
  · rfl
  · exact h2

@[simp] theorem fired_readFE (src : BitVec 9) : readFE (fired s is d) (firedIssue is d) src = readFE s is src :=
  fired_readScalar s is d _ src

@[simp] theorem fired_readVec (t : TileName) (src : BitVec 9) :
    readVec (fired s is d) (firedIssue is d) t src = readVec s is t src := by
  simp only [readVec, fired_srcSlab, fired_readScalar]

@[simp] theorem fired_feOpd (k : Nat) : feOpd (fired s is d) (firedIssue is d) k = feOpd s is k :=
  fired_gangOf s is d (fun g => fePort g g.handler (1000 + k)) (fun _ _ => rfl) is.gang

@[simp] theorem fired_slOpd (t : TileName) (k : Nat) : slOpd (fired s is d) (firedIssue is d) t k = slOpd s is t k := by
  unfold slOpd
  rw [fired_slabOf, show (firedIssue is d).gang = is.gang from rfl,
    fired_gangOf s is d Gang.handler (fun _ _ => rfl) is.gang]

@[simp] theorem fired_slVOpd (t : TileName) (k : Nat) : slVOpd (fired s is d) t k = slVOpd s t k := by
  simp [slVOpd]

@[simp] theorem fired_taggedSlab (ts : List TileName) (src : BitVec 9) :
    taggedSlab (fired s is d) (firedIssue is d) ts src = taggedSlab s is ts src := by
  simp only [taggedSlab, fired_readScalar]

end

/-- A trigger with no tagged source has its effect (04_scalar R85). -/
theorem untagged_plain {s : State} {is : Issue} {ts : List TileName} {src : BitVec 9}
    (h : taggedSlab s is ts src = none) (f : State → State) : untagged s is ts src f = f s := by
  simp [untagged, h]

end Sys2Proof.Machine
end

