-- ==== Sys2Proof/Machine/Layout.lean ====
section
/-! DEFINITION. The records that the device writes for the host and the debugger, as bytes (15_queue R359, 16_context R383, R384, 18_link R418, 19_tile R434, 20_fault R452, R457, 21_marker R461 to R464); the inner layouts that no rule gives are the model's (log 21). -/

namespace Sys2Proof.Machine

/-- A little-endian value of n bytes; a negative one in two's complement (00_scope R7). -/
def leBytes (n : Nat) (v : Int) : List Byte := codeBytes n (v % 256 ^ n).toNat

/-- Bytes closed by the CRC-32 over them (R452, R418). -/
def withCrc (bs : List Byte) : List Byte := bs ++ codeBytes 4 (crc32 bs).toNat

def bitOf (b : Bool) (k : Nat) : Nat := if b then 2 ^ k else 0

/-- A fault record of 64 bytes (20_fault R452). -/
def faultBytes (r : FaultRec) : List Byte :=
  withCrc (codeBytes 1 r.cls ++ codeBytes 1 r.cause ++ codeBytes 1 r.slot ++
    codeBytes 1 (bitOf r.primary 0 + bitOf r.nested 1 + bitOf r.handler 2 + bitOf r.delivery 3) ++
    codeBytes 2 r.ctx ++ codeBytes 2 r.tile ++ codeBytes 4 r.gen ++ codeBytes 2 r.pc ++ codeBytes 2 r.trig ++
    codeBytes 8 r.cyc ++ codeBytes 8 r.edge ++ codeBytes 8 r.aux.toNat ++ codeBytes 1 r.gslab ++ codeBytes 1 r.depth ++
    codeBytes 2 0 ++ codeBytes 4 r.seq ++ codeBytes 12 0)

/-- The section FAULTS of a dump (R457). -/
def faultsSection (rs : List FaultRec) (trunc : Bool) (dropped : Nat) : List Byte :=
  codeBytes 4 rs.length ++ codeBytes 4 (bitOf trunc 0) ++ codeBytes 4 dropped ++ codeBytes 4 0 ++ rs.flatMap faultBytes

/-- A drift record of 32 bytes (21_marker R461). -/
def markBytes (r : MarkRec) : List Byte :=
  codeBytes 2 r.marker.toNat ++ codeBytes 2 r.pc ++ codeBytes 2 r.gang ++ codeBytes 1 (min r.replays 255) ++ codeBytes 1 0 ++
    codeBytes 4 r.expect.toNat ++ codeBytes 4 r.actual.toNat ++ codeBytes 4 r.drift.toNat ++ codeBytes 4 0 ++
    codeBytes 8 r.cyc.toNat

/-- A row of the sampler, of 64 bytes (R464). -/
def sampleBytes (ctx cyc : Nat) (gang : TileName) (waiting : Bool) (row : Nat) (counters : List (BitVec 32)) : List Byte :=
  codeBytes 8 cyc ++ codeBytes 2 gang ++ codeBytes 1 ctx ++ codeBytes 1 (bitOf waiting 0) ++ codeBytes 4 row ++
    counters.flatMap fun x => codeBytes 4 x.toNat

/-- The number of a state in the list of 05_sequencer R107. -/
def stateIndex : SeqState → Nat
  | .idle => 0
  | .issuing => 1
  | .waiting => 2
  | .handler => 3
  | .stopped => 4
  | .frozen => 5
  | .halting => 6

/-- The state byte of a gang: its code is open (log 21). -/
def stateByte (q : SeqState) : Byte := Config.stateCode (stateIndex q)

/-- The unit of a wait, by its number in 16_context R384. -/
def waitUnit : WaitKind → Nat
  | .waitev _ | .cycwait _ | .cycalign | .sys _ _ => 3
  | .bankwait u _ _ => if u then 5 else 4
  | .rgnmap u _ _ => if u then 5 else 4
  | .barwait _ => 13
  | .collwait => 14

/-- WAITS of the block record (05_sequencer R106): its bits are open (log 21). -/
def waitsByte (ws : List WaitKind) : Byte :=
  ws.foldl (fun b w => b ||| BitVec.ofNat 8 (2 ^ (Config.waitBit (waitUnit w) % 8))) 0

/-- XKIND and XTGT of the block record; with no exit both are 0. -/
def exitBytes (x : Option ExitRec) : List Byte :=
  match x with
  | none => codeBytes 3 0
  | some e => codeBytes 1 (Config.exitKind e.port).toNat ++ codeBytes 2 (e.tgt.toNat % 8192)

/-- A row of the interlock trace, of 32 bytes (R463). -/
def traceBytes (cyc : Nat) (gang : TileName) (pc : Nat) (seq : SeqState) (fired : BitVec 8) (waits : List WaitKind)
    (exit : Option ExitRec) (busy : BitVec 6) (tst : Word) : List Byte :=
  codeBytes 8 cyc ++ codeBytes 2 gang ++ codeBytes 2 pc ++ [stateByte seq, fired, waitsByte waits] ++ exitBytes exit ++
    codeBytes 2 busy.toNat ++ codeBytes 8 tst.toNat ++ codeBytes 4 0

/-- The Ethertypes of transport frames and of IEEE 1588 messages (18_link R418). -/
def transportEthertype : Nat := 0x88B5
def clockEthertype : Nat := 0x88F7

/-- A transport frame: header, payload, CRC (18_link R418). -/
def frameBytes (f : Frame) : List Byte :=
  withCrc (codeBytes 1 1 ++ [f.kind, f.srcmod, f.dstmod] ++ codeBytes 4 f.job.toNat ++ codeBytes 4 f.seq.toNat ++
    codeBytes 4 f.ackseq.toNat ++ codeBytes 2 f.payload.length ++ codeBytes 14 0 ++ f.payload)

/-- The value of some bytes, little-endian. -/
def bytesValue (bs : List Byte) : Nat := bs.foldr (fun b v => b.toNat + 256 * v) 0

def fieldOf (bs : List Byte) (off n : Nat) : Nat := bytesValue ((bs.drop off).take n)

/-- The transport frame that an Ethernet frame brings, if it brings one: its Ethertype, VER, KIND, LEN and reserved bytes are as
R418 says; the CRC may be wrong (R419). -/
def readFrame (ethertype : Nat) (bs : List Byte) : Option Frame :=
  let n := fieldOf bs 16 2
  if ethertype = transportEthertype && bs.length = 36 + n && n ≤ 8192 && fieldOf bs 0 1 = 1 &&
      1 ≤ fieldOf bs 1 1 && fieldOf bs 1 1 ≤ 3 && fieldOf bs 18 14 = 0 then
    some ⟨BitVec.ofNat 8 (fieldOf bs 1 1), BitVec.ofNat 8 (fieldOf bs 2 1), BitVec.ofNat 8 (fieldOf bs 3 1),
      BitVec.ofNat 32 (fieldOf bs 4 4), BitVec.ofNat 32 (fieldOf bs 8 4), BitVec.ofNat 32 (fieldOf bs 12 4),
      (bs.drop 32).take n, decide ((crc32 (bs.take (32 + n))).toNat = fieldOf bs (32 + n) 4)⟩
  else none

/-- The bytes of what the device writes for the host, where a rule lays them out. -/
def hostBytes : HostOut → Option (List Byte)
  | .fault r | .brk r => some (faultBytes r)
  | .markers _ rs => some (rs.flatMap markBytes)
  | .dump _ rs trunc dropped _ => some (faultsSection rs trunc dropped)
  | .sample c cyc g w row cs => some (sampleBytes c cyc g w row cs)
  | .trace _ cyc g pc q fired ws x busy tst => some (traceBytes cyc g pc q fired ws x busy tst)
  | .frame _ f => some (frameBytes f)
  | .attest gen d s => some (attestBytes gen d s)
  | .windowRead bs => some bs
  | .posted _ _ bs => some bs
  | .completion _ q seq tag code flag record =>
    some (codeBytes 4 seq.toNat ++ codeBytes 4 tag.toNat ++ [code] ++ codeBytes 1 (bitOf flag 0) ++ codeBytes 2 q ++
      codeBytes 4 record)
  | .map bs record => some (bs ++ record)
  | .summaries rs => some (rs.flatMap faultBytes)
  | .command _ _ _ | .rollback _ _ | .pageRequest _ _ _ _ _ _ | .irq _ _ _ | .load _ _ | .killAck _ _
  | .timeLost | .delayReq _ _ | .phase _ | .report _ _ | .failing _ => none

/-! ### Fields of a gang -/

/-- The numbers of loop level d of a gang, 1 outermost (R383). -/
def levelBytes (l : LoopLevel) : List Byte :=
  codeBytes 2 l.start ++ codeBytes 2 l.last ++ codeBytes 4 l.trips.toNat ++ codeBytes 4 l.iter.toNat ++
    codeBytes 8 l.strides.toNat ++ codeBytes 4 0

/-- The block record, of 32 bytes (R383); its waits, or those that are outstanding while the gang is WAITING. -/
def blockBytes (b : Block) (waits : List WaitKind) : List Byte :=
  let (slot, n, e, strides, lop) := match b.exit, b.lop with
    | x, some l => ((x.map (·.slot)).getD 0, l.n, l.e.toNat % 65536, l.strides.toNat, (Config.lopCode l.port).toNat)
    | x, none => ((x.map (·.slot)).getD 0, 0, 0, 0, 0)
  codeBytes 1 b.bpos ++ exitBytes b.exit ++ codeBytes 1 slot ++ codeBytes 1 (bitOf b.xcol 0) ++ [waitsByte (b.waits ++ waits)] ++
    codeBytes 1 lop ++ codeBytes 4 n ++ codeBytes 2 e ++ codeBytes 2 0 ++ codeBytes 8 strides ++ codeBytes 8 0

/-- The ports of I0, I1 and C in the order of the gang record, by key of a bank. -/
def bankKeys : List Nat := [1128, 1129, 128, 129, 130, 131, 1192, 1193, 132, 133, 134, 135, 1256, 1257, 136, 137]

def bankVals (t : Tab TV) : List TV := bankKeys.map (tabGetD TV.zero t)

/-- Bit i of a mask says that value i is tagged. -/
def dfMask (vs : List TV) : Nat := (vs.zipIdx.map fun (v, i) => bitOf v.df i).sum

def wordsBytes (ws : List Word) : List Byte := ws.flatMap fun w => codeBytes 8 w.toNat

/-- A cycle wait's target, or 0. -/
def waitTarget (ws : List WaitKind) : Word := ws.foldl (fun a w => match w with | .cycwait t => t | _ => a) 0

/-! ### The replay queue (R384) -/

/-- An entry of the replay queue: unit, form, gang slab, deferred-fault tags, result port, REMAIN, AGE, trigger port, held
form. -/
structure RqEntry where
  unit    : Nat
  form    : Nat
  gslab   : Nat
  df      : Nat
  dest    : Nat
  remain  : Nat
  age     : Nat
  trig    : Nat
  payload : List Byte
deriving DecidableEq, Repr

/-- An entry's header and its payload, padded to a multiple of 32. -/
def entryBytes (x : RqEntry) : List Byte :=
  codeBytes 1 x.unit ++ codeBytes 1 x.form ++ codeBytes 1 x.gslab ++ codeBytes 1 x.df ++ codeBytes 2 x.dest ++ codeBytes 2 0 ++
    codeBytes 4 x.remain ++ codeBytes 4 x.age ++ codeBytes 4 x.payload.length ++ codeBytes 2 x.trig ++ codeBytes 10 0 ++
    x.payload ++ codeBytes ((32 - x.payload.length % 32) % 32) 0

/-- The number of a unit. -/
def unitNumber : PUnit → Nat
  | .i0 => 1 | .i1 => 2 | .c => 3 | .l0 => 4 | .l1 => 5 | .v => 6 | .f => 7 | .x => 8 | .m => 9 | .d => 10 | .k => 11
  | .n => 12 | .b => 13 | .q => 14

/-- The unit of a trigger port; 0 for none. -/
def trigUnit (port : Nat) : Nat := match triggerUnit port with | some u => unitNumber u | none => 0

/-- Entries stand in ascending REMAIN, then UNIT, then gang slab. -/
def rqBefore (x y : RqEntry) : Bool :=
  x.remain < y.remain || (x.remain = y.remain && (x.unit < y.unit || (x.unit = y.unit && x.gslab < y.gslab)))

def rqInsert (x : RqEntry) : List RqEntry → List RqEntry
  | [] => [x]
  | y :: ys => if rqBefore x y then x :: y :: ys else y :: rqInsert x ys

def rqSort (q : List RqEntry) : List RqEntry := q.foldl (fun l x => rqInsert x l) []

/-- What an operation is held as: form, result port, tags, its slab, its bytes. -/
structure Held where
  form    : Nat
  dest    : Nat
  df      : Nat
  tile    : Option TileName
  payload : List Byte
deriving DecidableEq, Repr

/-- A captured result. -/
def heldResult (tile : Option TileName) (port : Nat) (v : TV) : Held := ⟨0, port, bitOf v.df 0, tile, codeBytes 8 v.val.toNat⟩

/-- Captured operands. -/
def heldOperands (tile : TileName) (port : Nat) (bs : List Byte) : Held := ⟨1, port, 0, some tile, bs⟩

def atomNumber : AtomOp → Nat
  | .add => 0 | .and => 1 | .or => 2 | .xor => 3 | .min => 4 | .max => 5 | .xchg => 6 | .cas => 7

/-- A scratchpad access: its address, data and size (06_region R171), and its target. -/
def accessBytes (a : MemAccess) : List Byte :=
  codeBytes 8 a.addr ++
    (match a.op with
     | .load n => codeBytes 8 0 ++ codeBytes 1 n
     | .store n d => codeBytes 8 d.toNat ++ codeBytes 1 n
     | .atom op t cmp o f => codeBytes 8 t.toNat ++ codeBytes 1 8 ++ codeBytes 8 cmp.toNat ++ codeBytes 1 (atomNumber op) ++
       codeBytes 1 o.toNat ++ codeBytes 1 f.toNat) ++
    codeBytes 2 a.tile

/-- 64 values by lane, and the mask of those listed (07_vector R201). -/
def laneTable (n : Nat) (ls : List (Nat × Nat)) : List Byte := (List.range 64).flatMap fun i => codeBytes n (tabGetD 0 ls i)

def laneMaskBytes (ls : List (Nat × Nat)) : List Byte := codeBytes 8 ((ls.map fun l => 2 ^ l.1).sum)

/-- The held form of an operation in flight (04_scalar R105, 05_sequencer R136, 06_region R171, 07_vector R201, 08_accumulator
R230, 09_window R250, 10_route R266); none for a part of an engine's work, which the engine's own entry holds. -/
def heldAction (slab : TileName → Slab) : Action → Option Held
  | .feRes k v => some (heldResult none k v)
  | .feDiv k _ a t => some ⟨1, k, bitOf a.df 0 + bitOf t.df 1, none, codeBytes 8 a.val.toNat ++ codeBytes 8 t.val.toNat⟩
  | .slRes t k v => some (heldResult (some t) k v)
  | .vRes t k v => some ⟨0, k, 0, some t, codeBytes 256 v.toNat⟩
  | .tctl v => some ⟨0, 0, 0, none, codeBytes 8 v.toNat⟩
  | .tstclr v => some ⟨0, 0, 0, none, codeBytes 8 v.toNat⟩
  | .evm v => some ⟨0, 0, 0, none, codeBytes 1 v.toNat⟩
  | .fmt f => some ⟨0, 0, 0, none, codeBytes 8 (fmtWord f []).toNat⟩
  | .bnd bs => some ⟨0, 0, 0, none, bs.flatMap fun b =>
      codeBytes 1 b.1 ++ codeBytes 4 b.2.lo.toNat ++ codeBytes 4 b.2.hi.toNat ++ codeBytes 1 b.2.act.toNat⟩
  | .mark m x a c => some ⟨1, 0, 0, none, codeBytes 2 m.toNat ++ codeBytes 4 x.toNat ++ codeBytes 8 a.toNat ++ codeBytes 8 c.toNat⟩
  | .mem a => some (heldOperands (a.dests.headD a.tile) a.port (accessBytes a))
  | .reply a v => some ⟨1, a.port, bitOf v.df 0, a.dests.head?, accessBytes a ++ codeBytes 1 1 ++ codeBytes 8 v.val.toNat⟩
  | .tagWrite t n v => some (heldOperands t 0 (codeBytes 2 n ++ codeBytes 8 v.toNat))
  | .tagClear t n => some (heldOperands t 0 (codeBytes 2 n))
  | .tagLook t p v => some (heldOperands t p (codeBytes 8 v))
  | .unmap t r => some (heldOperands t 0 (codeBytes 1 r))
  | .query t p r d b => some (heldOperands t p (codeBytes 1 r ++ codeBytes 1 d ++ codeBytes 1 (bitOf b 0)))
  | .bankRel t m => some (heldOperands t 0 (codeBytes 4 m.toNat))
  | .vload t p ls => some (heldOperands t p (laneTable 4 ls ++ laneMaskBytes ls))
  | .vstore t ws outside =>
    let as := ws.map fun w => (w.1, w.2.1)
    some (heldOperands t 0 (laneTable 4 as ++ laneMaskBytes as ++ laneTable 4 (ws.map fun w => (w.1, w.2.2.toNat)) ++
      codeBytes 1 (bitOf outside 0)))
  | .xclr t => some (heldOperands t 0 [])
  | .mxstat t f => some ⟨0, 152, 0, some t, codeBytes 8 (match f with | some u => (mstWord (slab u).mx).toNat | none => 0)⟩
  | .mxload t b i v => some ⟨0, 0, 0, some t, codeBytes 1 (bitOf b 0) ++ codeBytes 2 i ++ codeBytes 8 v.toNat⟩
  | .mxswap t => some ⟨0, 0, 0, some t, codeBytes 1 (bitOf (!(slab t).mx.front) 0)⟩
  | .mxzero t b _ => some (heldOperands t 0 (codeBytes 1 b.toNat))
  | .winv t n => some (heldOperands t 0 (codeBytes 2 n))
  | .nameLoad t i n => some (heldOperands t 0 (codeBytes 1 i ++ codeBytes 2 n.toNat))
  | .nameQuery t n => some (heldOperands t 160 (codeBytes 2 n.toNat))
  | .barWrite t n r => some (heldOperands t 0 (codeBytes 2 n ++ codeBytes 1 (bitOf r.send 0) ++ codeBytes 2 r.home.toNat ++
      codeBytes 1 r.state.toNat ++ codeBytes 4 r.outb.toNat ++ codeBytes 4 r.inb.toNat ++ codeBytes 2 r.arr.toNat ++
      codeBytes 2 r.exp.toNat ++ codeBytes 1 r.gen.toNat))
  | .barAdd t n o k => some (heldOperands t 0 (codeBytes 2 n ++ codeBytes 1 (bitOf o 0) ++ codeBytes 4 k.toNat))
  | .barTest t n => some (heldOperands t 161 (codeBytes 2 n))
  | .tokGet t a => some (heldOperands t 162 (codeBytes 4 a))
  | .collRead t d m n => some (heldOperands t 0 (codeBytes 4 d ++ codeBytes 1 m ++ codeBytes 4 n.toNat))
  | .relCheck _ | .acquire _ _ | .mapStart _ _ _ | .ftouch _ _ _ | .constRow _ _ _ | .floadRow _ _ _ | .feval _
  | .mxrow _ _ _ | .mxgroup _ _ | .mxhad _ _ | .mxzeroEnd _ _ _ | .mxsnap _ _ | .mxdrainRow _ _ | .resClear _ _
  | .dirtySlot _ _ | .dirtyRegion _ _ | .fillRead _ _ _ | .fillRow _ _ _ | .flushRow _ _ _ | .flushWrite _ _ _ | .refresh _
  | .routeRow _ _ | .barHeld _ _ | .barCheck _ _ | .barBeat _ | .hop _ _ _ _ _ _ _ | .busTake _ _ | .busSettle _ _ _ | .copyRead _ _ _
  | .invalStop _ | .traceRow _ | .throttle => none

/-- Cycles from an operation's action in the array to its landing. -/
def landsAfter : Action → Nat
  | .mem a => match a.op with | .store _ _ => 0 | _ => 2
  | .vload _ p _ => if p = 145 then 2 else 9
  | .tagLook _ _ _ => 2
  | .query _ _ _ _ _ => 2
  | .tokGet _ _ => 2
  | _ => 0

/-- A vault atomic: its operands, or its request with the leg it is on (09_window R250). -/
def watomBytes (w : WAtomOp) : List Byte :=
  codeBytes 1 (atomNumber w.op) ++ codeBytes 8 w.t.toNat ++ codeBytes 8 w.cmp.toNat ++ codeBytes 1 w.ordc.toNat ++
    codeBytes 1 w.ford.toNat ++ codeBytes 8 w.gva ++ codeBytes 2 w.home

def dirNumber : Dir → Nat
  | .w => 0 | .n => 1 | .e => 2 | .s => 3

/-- A beat in the fabric: its kind and what it carries (10_route R258, R266). -/
def beatBytes : Operand → Option (List Byte)
  | .arrivalDelivery _ src n gen send =>
    some (codeBytes 1 0 ++ codeBytes 2 src ++ codeBytes 2 n ++ codeBytes 1 gen.toNat ++ codeBytes 1 (bitOf send 0))
  | .releaseDelivery _ src n gen => some (codeBytes 1 1 ++ codeBytes 2 src ++ codeBytes 2 n ++ codeBytes 1 gen.toNat)
  | .tokenDelivery _ src addr scope post =>
    some (codeBytes 1 2 ++ codeBytes 2 src ++ codeBytes 4 addr ++ codeBytes 1 scope.toNat ++ codeBytes 1 (bitOf post 0))
  | .softEventDelivery _ src p => some (codeBytes 1 3 ++ codeBytes 2 src ++ codeBytes 5 p.toNat)
  | .copyBeatDelivery b =>
    some (codeBytes 1 4 ++ codeBytes 2 b.src ++ codeBytes 2 b.num ++ codeBytes 4 b.addr ++ codeBytes 64 b.data.toNat ++
      codeBytes 2 (b.srcBar.getD 0xFFFF) ++ codeBytes 2 (b.dstBar.getD 0xFFFF) ++
      codeBytes 1 (bitOf b.post 0 + bitOf b.last 1))
  | .routerStaticBeat _ i d => some (codeBytes 1 5 ++ codeBytes 1 (dirNumber i) ++ codeBytes 64 d.toNat)
  | .alignmentArrival _ src => some (codeBytes 1 6 ++ codeBytes 2 src)
  | _ => none

/-- The cycles done in the microword under way at the freeze edge, while the queue q holds the next one: none when that starts on
the edge, or the run has parked. -/
def microPast (q : List Ev) (edge : Nat) (r : MxRun) : Option Nat :=
  let on : Bool := match q.find? fun e => e.ord = ordMicro && e.own = some r.own with
    | some e => e.sub = 1 || e.at_ != 0
    | none => r.parked.isNone
  if on && r.since < edge then some (edge - r.since) else none

/-- The run of a routine in one slab (08_accumulator R230): the bank of a pending park, and the bank at which a resumed run takes
up its first microword. -/
def runBytes (q : List Ev) (edge : Nat) (m : Mx) (r : MxRun) : List Byte :=
  let past := microPast q edge r
  let desc (d : MxDesc) : List Byte := codeBytes 8 d.w1.toNat ++ codeBytes 8 d.w2.toNat ++ codeBytes 1 (bitOf d.o 0)
  let rows (l : Tab (BitVec 1024)) : List Byte :=
    codeBytes 1 l.length ++ l.flatMap fun x => codeBytes 1 x.1 ++ codeBytes 128 x.2.toNat
  let b := r.bound.getD ⟨0, 0, 0⟩
  let bank : Nat := match r.parked with | none => 0 | some k => 1 + bitOf k 0
  codeBytes 1 m.ridx.toNat ++ codeBytes 2 (if past.isSome then r.gupc else r.upc) ++ codeBytes 2 (past.getD 0) ++
    codeBytes 2 r.lc ++ codeBytes 2 r.loopStart ++ codeBytes 2 r.gi ++ codeBytes 8 (fmtWord r.fmt []).toNat ++
    ((List.range 8).flatMap fun i => codeBytes 8 (tabGetD 0 r.mp i).toNat) ++
    ((List.range 4).flatMap fun i => codeBytes 8 (tabGetD 0 r.hm i).toNat) ++
    codeBytes 4 b.lo.toNat ++ codeBytes 4 b.hi.toNat ++ codeBytes 1 b.act.toNat ++ desc r.a ++ desc r.b ++
    rows r.rowsA ++ rows r.rowsB ++ codeBytes 1 (if r.skip then bank else 0) ++ codeBytes 1 (if r.skip then 0 else bank) ++
    (match r.bg with
     | none => codeBytes 3 0
     | some x => codeBytes 1 (1 + bitOf x.flag 1) ++ codeBytes 1 (bitOf x.acc1 0) ++ codeBytes 1 (edge - 1 - x.at_)) ++
    codeBytes 4 (r.land - edge)

/-- A fill or flush in flight: slot and latched page, with the buffer of a fill, or with the home, the rows read so far and
the dirty lines of a flush (09_window R250). -/
def stageBytes (slot : Nat) (flush : Bool) (x : StageOp) : List Byte :=
  let lines := (List.range 64).flatMap fun i => codeBytes 64 (tabGetD 0 x.lines i).toNat
  codeBytes 2 slot ++ codeBytes 8 x.vpn ++
    if flush then codeBytes 2 x.home ++ codeBytes 4 0 ++ lines ++ codeBytes 8 x.dirty.toNat else lines

/-- The queue holds, for an event with remaining cycles at_, the entries that stand for it: one for a captured result, its
operands or a beat, and one for each slab of a routine, for a fill or flush, and for an FLOAD at its last row. -/
def eventEntries (q : List Ev) (edge : Nat) (slab : TileName → Slab) (width : TileName → Nat) (e : Ev) : List RqEntry :=
  match e.own with
  | none => []
  | some o =>
    let ts := gangTilesOf o.gang (width o.gang)
    let entry (t : Option TileName) (form dest df extra : Nat) (bs : List Byte) : RqEntry :=
      ⟨trigUnit o.trig, form, match t with | some t => ts.findIdx (· = t) | none => 0xFF, df, dest, e.at_ + extra, edge - o.born,
       o.trig, bs⟩
    match e.instr with
    | .operationLanding _ (.floadRow t a r) =>
      let rows := q.filterMap fun x => match x.instr with
        | .operationLanding o' (.floadRow u _ k) => if o' = o && u = t then some k else none
        | _ => none
      if rows.all (· ≤ r) then
        [entry (some t) 2 0 0 0 (codeBytes 4 (a - 64 * r) ++ codeBytes 1 (48 - rows.length) ++ codeBytes 1 rows.length)] else []
    | .operationLanding _ a =>
      match heldAction slab a with
      | some h => [entry h.tile h.form h.dest h.df (landsAfter a) h.payload]
      | none => []
    | .routineLanding => ts.filterMap fun t => ((slab t).mx.run.filter fun r => r.own = o).map fun r => entry (some t) 2 0 0 0 (runBytes q edge (slab t).mx r)
    | _ =>
      match e.arg with
      | .wfillLanding t n | .wflushLanding t n =>
        ((tabGet (slab t).stage n).toList).map fun x => entry (some t) 2 0 0 0 (stageBytes n (slotOf (slab t) n).flush x)
      | .watomApply w => [entry (some w.src) 1 154 0 0 (watomBytes w)]
      | .remoteWatomApply w => [entry (some w.src) 1 154 0 0 (watomBytes w ++ codeBytes 1 0)]
      | .remoteWatomReply w v => [entry (some w.src) 1 154 0 0 (watomBytes w ++ codeBytes 1 1 ++ codeBytes 8 v.toNat)]
      | .remoteAccessArrival r =>
        [entry (some (r.acc.dests.headD r.acc.tile)) 1 r.acc.port 0 (if accResults r.acc then r.back else 0)
          (accessBytes r.acc ++ codeBytes 1 0)]
      | a =>
        match beatBytes a, beatTile a with
        | some bs, some t =>
          let k := match (slab t).gang with | some g => (gangTilesOf g (width g)).findIdx (· = t) | none => 0
          [⟨15, 1, k, 0, 0, e.at_, edge - o.born, o.trig, bs⟩]
        | _, _ => []

/-! ### Gang and slab records (R383) -/

/-- The gang record, the trap frame of a frozen gang, by offset (R383), with the entries of the replay queue that
follows it; what R368 does not keep is 0 in the quiet form.  The state of a frozen gang is the one it returns to (R107); that it
is frozen stands in FORM. -/
def gangRecord (name : TileName) (quiet : Bool) (g : Gang) (q : List RqEntry) : List (Nat × List Byte) :=
  let banks := bankVals g.main ++ bankVals g.hand
  [(0, codeBytes 2 name), (2, codeBytes 1 (dmGw g.dmem)), (3, codeBytes 1 (bitOf (!quiet) 0)), (4, [stateByte (if g.seq = .frozen then g.saved else g.seq)]),
   (5, codeBytes 1 (bitOf g.handler 0)), (8, codeBytes 8 g.origin.toNat), (16, codeBytes 2 g.pc), (18, codeBytes 1 g.loops.length),
   (19, codeBytes 1 g.calls.length), (20, codeBytes 2 g.eret), (24, g.loops.reverse.flatMap levelBytes),
   (168, g.calls.reverse.flatMap (codeBytes 2)), (200, blockBytes g.blk g.waits), (232, codeBytes 8 (waitTarget (g.blk.waits ++ g.waits)).toNat),
   (240, wordsBytes ((List.range 64).map fun i => (tabGetD TV.zero g.s i).val)),
   (752, wordsBytes ((List.range 8).map fun i => (tabGetD TV.zero g.e i).val)),
   (816, codeBytes 8 (dfMask ((List.range 64).map (tabGetD TV.zero g.s)))),
   (824, codeBytes 1 (dfMask ((List.range 8).map (tabGetD TV.zero g.e)))),
   (825, codeBytes 2 (if quiet then 0 else (g.p ||| 1).toNat)),
   (827, codeBytes 1 ((List.range 8).map fun i => bitOf (tabGet g.mbxPend i).isSome i).sum),
   (832, wordsBytes ((List.range 8).map (tabGetD 0 g.mbx))), (896, wordsBytes ((List.range 8).map (tabGetD 0 g.mbxPend))),
   (960, wordsBytes [fmtWord g.fmt g.bd, fmtWord g.fmtStage g.bdStage, tstWord g, tctlWord g, g.dmem]),
   (1000, wordsBytes ((List.range 8).map fun i => boundWord (tabGetD boundReset g.bd i))),
   (1064, (List.range 8).flatMap fun i =>
     let b := tabGetD boundReset g.bdStage i
     codeBytes 4 b.lo.toNat ++ codeBytes 4 b.hi.toNat ++ codeBytes 4 b.act.toNat),
   (1160, wordsBytes (banks.map (·.val))), (1416, codeBytes 8 (dfMask banks)),
   (1424, codeBytes 4 q.length), (1428, codeBytes 4 (q.flatMap entryBytes).length)]

/-- The scalar ports of a slab in the order of its record, by key. -/
def slabKeys : List Nat :=
  [1450, 1451, 1452, 147, 148, 149, 1576, 1592, 1320, 1321, 1322, 138, 139, 1384, 1385, 1386, 140, 141, 1614, 152, 1640, 1641,
   153, 154, 1672, 1673, 155, 1684, 160, 1704, 161, 1720, 1721, 162, 163]

/-- The ports of L0 and L1, which hold a deferred-fault tag. -/
def slabDfKeys : List Nat := [1320, 1321, 1322, 138, 139, 1384, 1385, 1386, 140, 141]

/-- The ports of the handler bank of a slab. -/
def slabHandKeys : List Nat := [1672, 1673, 155, 1704, 161, 1720, 1721, 162, 163]

/-- The elements of a bank row by row, then its LSF bits. -/
def bankBytes (b : AccBank) : List Byte :=
  ((List.range 16384).flatMap fun i => codeBytes 4 (tabGetD 0 b.el i).toNat) ++
    (List.range 2048).flatMap fun i => codeBytes 1 ((List.range 8).map fun j => bitOf (tabGetD false b.lsf (8 * i + j)) j).sum

/-- A transposer buffer: its rows, then its pop count, latched hx0, and the cycles since its first and last push. -/
def xtileBytes (edge : Nat) (x : XTile) : List Byte :=
  ((List.range 64).flatMap fun i => codeBytes 256 ((x.rows[i]?).getD 0).toNat) ++ codeBytes 8 x.pops ++ codeBytes 8 x.hx0.toNat ++
    codeBytes 8 (edge - x.first) ++ codeBytes 8 (edge - x.last) ++ codeBytes 32 0

/-- A switch program: P, its load state, T0, the entries. -/
def progBytes (p : Nat) (left t0 : Nat) (es : Tab Word) : List Byte :=
  codeBytes 4 p ++ codeBytes 4 left ++ codeBytes 8 t0 ++ (List.range 256).flatMap fun i => codeBytes 8 (tabGetD 0 es i).toNat

/-- What an item carries, with its kind. -/
def carryBytes : ItemKind → List Byte
  | .arrival n gen send => codeBytes 1 0 ++ codeBytes 2 n ++ codeBytes 1 gen.toNat ++ codeBytes 1 (bitOf send 0)
  | .release n gen => codeBytes 1 1 ++ codeBytes 2 n ++ codeBytes 1 gen.toNat
  | .token a sc post sync => codeBytes 1 2 ++ codeBytes 4 a ++ codeBytes 1 sc.toNat ++ codeBytes 1 (bitOf post 0) ++ codeBytes 8 sync.toNat
  | .softEvent p => codeBytes 1 3 ++ codeBytes 5 p.toNat
  | .ring _ r p => codeBytes 1 4 ++ codeBytes 1 r ++ codeBytes 8 p.toNat
  | .coll _ m r i => codeBytes 1 5 ++ codeBytes 1 m ++ codeBytes 2 r ++ codeBytes 4 i.toNat
  | .watom w => codeBytes 1 6 ++ watomBytes w
  | .pageReq _ _ n v => codeBytes 1 7 ++ codeBytes 2 n ++ codeBytes 8 v
  | .align => codeBytes 1 8

/-- n bytes, cut or filled with 0. -/
def padTo (n : Nat) (bs : List Byte) : List Byte := (bs ++ codeBytes (n - bs.length) 0).take n

/-- An item of an injection queue, of 64 bytes. -/
def itemBytes (x : Item) : List Byte :=
  padTo 64 (codeBytes 2 x.dst ++ codeBytes 2 x.own.trig ++ codeBytes 8 x.order ++ codeBytes 8 x.eligible ++ carryBytes x.kind)

/-- A copy in flight, of 32 bytes: its descriptor and next beat. -/
def copyBytes (num : Nat) (x : CopyOp) : List Byte :=
  padTo 32 (codeBytes 2 num ++ codeBytes 2 x.dstTile ++ codeBytes 4 x.src ++ codeBytes 4 x.dst ++ codeBytes 2 x.nb ++
    codeBytes 2 x.next ++ codeBytes 2 x.delivered ++ codeBytes 2 (x.srcBar.getD 0xFFFF) ++ codeBytes 2 (x.dstBar.getD 0xFFFF) ++
    codeBytes 1 (bitOf x.post 0 + bitOf x.wafer 1) ++ codeBytes 8 x.order)

/-- The staging reservations, then the outstanding requests of PGREQ, 256 bytes each. -/
def stagingBytes (sl : Slab) : List Byte :=
  padTo 256 (sl.resv.flatMap fun x => codeBytes 1 x.1 ++ codeBytes 3 0 ++ codeBytes 4 (x.2.2 - x.2.1) ++ codeBytes 8 x.2.1) ++
    padTo 256 (sl.requests.flatMap fun e =>
      codeBytes 1 e.1 ++ codeBytes 1 (match e.2.st with | .issued => 1 | .hostPending => 2) ++ codeBytes 2 e.2.num ++ codeBytes 4 0 ++
        codeBytes 8 e.2.vpn)

/-- The B unit: pending releases, then the release list. -/
def barUnitBytes (sl : Slab) : List Byte :=
  codeBytes 4 sl.releases.length ++ codeBytes 4 sl.relList.length ++
    (sl.releases.flatMap fun r => codeBytes 2 r.1 ++ codeBytes 2 r.2.1 ++ codeBytes 1 r.2.2.1.toNat ++ codeBytes 1 (bitOf r.2.2.2 0)) ++
    sl.relList.flatMap fun r => codeBytes 2 r.1 ++ codeBytes 2 r.2

/-- The parts of a slab record that the quiet form keeps (R368). -/
def quietParts : List Nat := [0, 2, 3, 8, 10624, 11336, 182528, 186624, 203136, 203648, 207776, 209056, 221344, 255136, 255208, 255216, 262144]

/-- The ports of B, which a quiet point keeps (12_barrier R290). -/
def keptPort (quiet : Bool) (k : Nat) : Bool := !quiet || k = 1704 || k = 161

/-- The bank states from the view of a task, in the form of the ownership word (06_region R165). -/
def bankStates (task : Nat) (bs : Tab Nat) : Nat :=
  let mask (l : Tab Nat) : Nat := (l.map fun b => 2 ^ b.1).sum
  let other := bs.filter fun b => b.2 != task
  mask (bs.filter fun b => b.2 = task) + 1 + (mask other + bitOf (!other.isEmpty) 0) * 2 ^ 32

/-- The slab record by offset (R383); edge is the freeze edge, from which ages count; task is the running task; events is the
gang's queue, in the record of gang slab 0, and empty in the others.  The load state of a pending switch program is the cycles
until its check, 0 once it has passed (10_route R254, R266); of the running one, whether it is the reset program. DEDUCED
(log 157): the rows that an FLOAD in flight has read stand in their places in the interpolation table. -/
def slabRecord (name : TileName) (idx : Nat) (quiet : Bool) (edge task : Nat) (sl : Slab) (events : List PendEv)
    (pad : List Byte) : List (Nat × List Byte) :=
  let vecs (ks : List Nat) (f : Nat → Vec) : List Byte := ks.flatMap fun k => codeBytes 256 (f k).toNat
  let shapes (k : Nat) : List Word :=
    ((List.range 4).map fun i => shapeOf sl (k + i)) ++ (List.range 4).map fun i => tabGetD (shapeReset (k + i)) sl.shadow (k + i)
  let scalar (hand : Bool) (ks : List Nat) : List Byte :=
    wordsBytes (ks.map fun k => if keptPort quiet k then (slPort sl hand k).val else 0)
  let pend := match sl.pend with
    | some x => progBytes x.p (if x.t0.isSome then 0 else x.own.born + 64 - edge) (x.t0.getD 0) x.entries
    | none => codeBytes 2064 0
  List.filter (fun e => !quiet || quietParts.contains e.1)
  [(0, codeBytes 2 name), (2, codeBytes 1 idx), (3, codeBytes 1 (bitOf (!quiet) 0)), (8, codeBytes 8 pad.length),
   (64, vecs (List.range 32) fun i => tabGetD 0 sl.v i), (8256, wordsBytes ((List.range 8).map (kReg sl))),
   (8320, vecs [1448, 1449, 142, 143, 144, 145, 146, 150, 151] (slVPort sl)),
   (10624, scalar false slabKeys),
   (10944, codeBytes 64 (dfMask (slabDfKeys.map (slPort sl false)))),
   (11008, wordsBytes (shapes 0 ++ shapes 4 ++ shapes 8 ++ shapes 12)),
   (11264, wordsBytes ((List.range 8).map (tabGetD 0 sl.mx.mp) ++ [mstWord sl.mx])),
   (11336, codeBytes 8 (bankStates task sl.banks)),
   (11392, (List.range 768).flatMap fun i => codeBytes 4 (tabGetD (tabGetD 0 sl.ftab i) sl.fnew i).toNat),
   (14464, sl.xtiles.flatMap (xtileBytes edge)),
   (47360, bankBytes sl.mx.acc0 ++ bankBytes sl.mx.acc1),
   (182528, wordsBytes ((List.range 512).map fun i => tabGetD 0 sl.mx.words (512 + i))),
   (186624, (List.range 48).flatMap fun i => codeBytes 2 (tabGetD 0 sl.mx.entries (16 + i))),
   (186752, (List.range 1024).flatMap fun i =>
     let w := slotOf sl i
     codeBytes 1 (bitOf w.res 0) ++ codeBytes 1 (bitOf w.pend 0) ++ codeBytes 1 (bitOf w.flush 0) ++ codeBytes 5 0 ++
       codeBytes 8 w.dirty.toNat),
   (203136, stagingBytes sl), (203648, progBytes sl.prog.p (bitOf sl.prog.isReset 0) sl.prog.t0 sl.prog.entries ++ pend),
   (207776, (List.range 64).flatMap fun i => match tabGet sl.names i with
     | some n => codeBytes 2 n.toNat ++ codeBytes 2 1
     | none => codeBytes 4 0),
   (208032, vecs [156, 157, 158, 159] (slVPort sl)),
   (209056, padTo 4096 (sl.injW.flatMap itemBytes) ++ padTo 4096 (sl.injD.flatMap itemBytes)),
   (217248, padTo 4096 (sl.copies.flatMap fun e => copyBytes e.1 e.2)), (221344, padTo 33792 (barUnitBytes sl)),
   (255136, scalar true slabHandKeys),
   (255208, codeBytes 4 events.length), (255216, wordsBytes (events.map (·.word))), (262144, pad)]

/-- Segments by offset as n bytes; what no segment covers is 0. -/
def recordBytes (n : Nat) (segs : List (Nat × List Byte)) : List Byte :=
  (List.range n).map fun i => (segs.findSome? fun e => if e.1 ≤ i then e.2[i - e.1]? else none).getD 0

end Sys2Proof.Machine
end

