-- ==== Sys2Proof/Machine/Sections.lean ====
section
/-! DEFINITION. The bytes of a state image: its sections, directory, header, encryption, digest and signature (16_context R380 to R383, 17_page R406, 18_link R428); inner layouts that no rule gives are the model's (log 21). -/

namespace Sys2Proof.Machine

/-! ### The sections of a context (R381) -/

/-- Type 1: the entry of a context, of 640 bytes (R382). -/
def contextEntry (x : Image) (c nqueue : Nat) : List Byte :=
  let k := x.ctx
  let keys := k.ops.keys.getD []
  codeBytes 2 c ++ codeBytes 1 (if x.quiet then 6 else 7) ++ codeBytes 1 k.nkeys ++ codeBytes 4 k.gen ++
    codeBytes 4 (k.ops.undoShare.getD 0) ++ codeBytes 2 nqueue ++ codeBytes 2 0 ++ codeBytes 8 (k.ops.waitdl.getD 0) ++
    codeBytes 8 x.pages.length ++ codeBytes 32 0 ++
    (List.range 8).flatMap fun i => codeBytes 72 (match keys[i]? with
      | some w => (Config.wrapKey x.transport w).toNat
      | none => 0)

/-- Queues of an image: those whose descriptor it holds, 1 at least. -/
def imageQueues (x : Image) : Nat := max 1 (x.tiles.queues.filter fun q => q.2.length = 64).length

/-- Type 2: the objects as they were given to the loader, with their handles and bases. -/
def codeSection (x : Image) : List Byte :=
  x.ctx.objects.flatMap fun e =>
    codeBytes 4 e.1 ++ codeBytes 4 e.2.given.length ++ codeBytes 4 e.2.codeBase ++ codeBytes 4 e.2.dataBase ++ e.2.given

/-- The slab of a tile in an image. -/
def imageSlab (x : Image) (t : TileName) : Slab := tabGetD Slab.fresh x.tiles.slabs t

/-- The width of the gang at a name in an image. -/
def imageWidth (x : Image) (g : TileName) : Nat := match tabGet x.tiles.gangs g with | some gg => gg.width | none => 1

/-- The gangs of an image, with an idle one at each tile whose gang has ended (log 143). -/
def imageGangs (x : Image) : Tab Gang :=
  let driven := x.tiles.gangs.flatMap fun e => gangTilesOf e.1 e.2.width
  (x.tiles.slabs.filter fun e => !driven.contains e.1).foldl (fun gs e => tabPut gs e.1 (Gang.fresh 0 0 1)) x.tiles.gangs

/-- The gang in whose replay queue an event is held: a beat's with its destination, every other's its own (R376, 10_route
R266); a beat of a gang that has ended, to a tile that the context has left, is held with the first. -/
def heldAt (x : Image) (e : Ev) : Option TileName :=
  let gs := (imageGangs x).map (·.1)
  match (beatTile e.arg).bind fun t => (imageSlab x t).gang with
  | some g => some g
  | none =>
    match ((e.own.map (·.gang)).toList ++ (beatTile e.arg).toList).find? gs.contains with
    | some g => some g
    | none => gs.head?

/-- The replay queue of a gang, in its order (R384). -/
def replayQueue (x : Image) (g : TileName) : List RqEntry :=
  let q := x.ctx.replayQ.filter fun e => heldAt x e = some g
  rqSort (q.flatMap (eventEntries q x.ctx.frozenAt (imageSlab x) (imageWidth x)))

/-- A slab record with its scratchpad image: the persistent area in the quiet form, the whole scratchpad in the frozen one. -/
def slabBytes (x : Image) (t : TileName) (idx : Nat) (quiet : Bool) (task : Nat) (events : List PendEv) : List Byte :=
  let pad := memReadBytes x.tiles.mem (padKey t 0) (if quiet then 0x10000 else 0x400000)
  recordBytes (262144 + pad.length) (slabRecord t idx quiet x.ctx.frozenAt task (imageSlab x t) events pad)

/-- A gang record, its replay queue, its slab records in gang-slab order.  The queue of a gang stopped at a quiet point holds
the beats to its tiles (10_route R266). -/
def gangBytes (x : Image) (g : TileName) (gg : Gang) : List Byte :=
  let quiet : Bool := gg.seq = .stopped
  let q := replayQueue x g
  recordBytes 2048 (gangRecord g quiet gg q) ++ q.flatMap entryBytes ++
    (gangTilesOf g gg.width).zipIdx.flatMap fun (t, i) => slabBytes x t i quiet gg.task (if i = 0 then gg.events else [])

/-- Type 3: the gangs in ascending name order. -/
def tilesSection (x : Image) : List Byte := (imageGangs x).flatMap fun e => gangBytes x e.1 e.2

/-- Type 4: the pinned translations of every region. -/
def pinsSection (x : Image) : List Byte :=
  x.tiles.slabs.flatMap fun s => s.2.pins.flatMap fun r =>
    codeBytes 2 s.1 ++ codeBytes 2 r.1 ++ codeBytes 4 r.2.length ++
      r.2.flatMap fun p => codeBytes 8 p.vpn ++ codeBytes 2 p.home ++ codeBytes 4 0 ++ codeBytes 1 (bitOf p.w 0) ++ codeBytes 1 0

/-- Type 5: VPN, home, and the page as the vault holds it, with its page number as tweak (R381, R382). -/
def vaultEntry (x : Image) (p : Nat × TileName × List Host.Cell) : List Byte :=
  codeBytes 8 p.1 ++ codeBytes 2 p.2.1 ++ codeBytes 6 0 ++
    Config.xts ((x.ctx.ops.keys.getD []).headD 0) p.1 (memReadBytes p.2.2 0 4096)

/-- An entry of the time table, of 32 bytes (15_queue R349). -/
def timeBytes (c : Nat) (r : TtRow) : List Byte :=
  codeBytes 8 r.e.record ++ codeBytes 2 r.e.queue ++ codeBytes 1 c ++ codeBytes 1 (bitOf r.e.valid 0 + bitOf r.e.skip 1) ++
    codeBytes 4 r.e.period ++ codeBytes 4 r.e.offset ++ codeBytes 4 r.inst ++ codeBytes 4 r.skips ++ codeBytes 4 0

/-- A graph's position and re-arm counts. -/
def graphBytes (g : GraphRun) : List Byte :=
  codeBytes 4 g.id ++ codeBytes 8 g.header ++ codeBytes 4 g.queue ++ codeBytes 4 g.node ++ codeBytes 4 g.launchRecord ++
    codeBytes 4 g.seqno.toNat ++ codeBytes 4 g.tag.toNat ++ codeBytes 1 (match g.notify with | some r => r | none => 0xFF) ++
    codeBytes 1 g.lastCode.toNat ++ codeBytes 1 (bitOf g.anyNonzero 0 + bitOf g.waiting 1) ++ codeBytes 4 g.after_ ++
    codeBytes 4 g.lastCount ++ codeBytes 4 g.counts.length ++ g.counts.flatMap fun e => codeBytes 4 e.1 ++ codeBytes 4 e.2

/-- Type 6: the queue table with its lists, time-table entries with held firings, graphs, rings. -/
def queuesSection (x : Image) (c : Nat) : List Byte :=
  let b := x.tiles
  codeBytes 4 b.queues.length ++ codeBytes 4 b.tt.length ++ codeBytes 4 b.graphs.length ++ codeBytes 4 b.rings.length ++
    (b.queues.flatMap fun q => codeBytes 8 q.1 ++ codeBytes 8 q.2.length ++ q.2) ++
    (b.tt.flatMap fun e => codeBytes 2 e.1 ++ codeBytes 2 (bitOf e.2.active 0 + bitOf e.2.held 1) ++ timeBytes c e.2) ++
    b.graphs.flatMap graphBytes ++
    b.rings.flatMap fun r => codeBytes 4 r.1 ++ codeBytes 4 r.2.tail ++ codeBytes 4 r.2.drops ++ codeBytes 4 r.2.pending

/-- Type 7: every valid leaf as 16 bytes (17_page R406). -/
def pageSection (x : Image) : List Byte := x.leaves.flatMap fun e => codeBytes 8 e.1 ++ codeBytes 8 e.2.toNat

/-- A collective that a gang has under way, with its descriptor. -/
def collBytes (g : TileName) (o : CollOut) : List Byte :=
  codeBytes 2 g ++ codeBytes 2 o.comm ++ codeBytes 4 o.rank ++ codeBytes 4 o.inst.toNat ++ codeBytes 64 o.desc.toNat

/-- Type 8: communicators, counts, outstanding collectives, the contributions held (18_link R428). -/
def linkSection (x : Image) : List Byte :=
  let k := x.ctx
  let outs := x.tiles.gangs.filterMap fun e => match e.2.coll, e.2.collDone with | some o, none => some (e.1, o) | _, _ => none
  codeBytes 4 k.comms.length ++ codeBytes 4 x.tiles.collCount.length ++ codeBytes 4 (outs ++ x.tiles.orphans).length ++
    codeBytes 4 x.tiles.colls.length ++
    (k.comms.flatMap fun m => codeBytes 2 m.1 ++ codeBytes 2 m.2.length ++ m.2.flatMap fun r => codeBytes 1 r.1 ++ codeBytes 1 0 ++ codeBytes 2 r.2) ++
    (x.tiles.collCount.flatMap fun e => codeBytes 4 e.1 ++ codeBytes 4 e.2.toNat) ++
    ((outs ++ x.tiles.orphans).flatMap fun e => collBytes e.1 e.2) ++
    x.tiles.colls.flatMap fun i =>
      codeBytes 2 i.comm ++ codeBytes 2 i.got.length ++ codeBytes 4 i.inst.toNat ++ i.got.flatMap fun g =>
        codeBytes 2 g.rank ++ codeBytes 1 g.op ++ codeBytes 1 g.fmt ++ codeBytes 2 g.root ++ codeBytes 2 0 ++ codeBytes 4 g.count ++
          codeBytes 4 g.bytes.length ++ g.bytes

/-- The plain bytes of a section of a context. -/
def plainSection (c : Nat) (x : Image) : Nat → List Byte
  | 1 => contextEntry x c (imageQueues x)
  | 2 => codeSection x
  | 3 => tilesSection x
  | 4 => pinsSection x
  | 5 => x.pages.flatMap (vaultEntry x)
  | 6 => queuesSection x c
  | 7 => pageSection x
  | _ => linkSection x

/-! ### Encryption, directory and header (R380 to R382) -/

/-- A section under AES-256-XTS with key slot 0, in units of 4,096 bytes (R382). -/
def encryptSection (key : BitVec 576) (idx : Nat) (bs : List Byte) : List Byte :=
  (List.range ((bs.length + 4095) / 4096)).flatMap fun u => Config.xts key (idx * 2 ^ 40 + u) ((bs.drop (4096 * u)).take 4096)

/-- A section as it stands in the image: CONTEXT is plain, VAULT as the vault holds it. -/
def storedSection (c : Nat) (x : Image) (type idx : Nat) : List Byte :=
  if type = 1 || type = 5 then plainSection c x type
  else encryptSection ((x.ctx.ops.keys.getD []).headD 0) idx (plainSection c x type)

/-- The sections of an image of several contexts, given by ascending number: ascending TYPE, then ascending CTX; the section
FAULTS of a dump is plain, and a dump that ended early holds no section behind its last (20_fault R457, R458). -/
def imageSections (xs : List (Nat × Image)) (faults : List (Nat × List Byte)) : List (Nat × Nat × List Byte) :=
  let keys := (List.range 8).flatMap fun ty => (xs.filter fun e => ty < e.2.last).map fun e => (ty + 1, e)
  (keys.zipIdx.map fun ((ty, c, x), i) => (ty, c, storedSection c x ty i)) ++ faults.map fun f => (9, f.1, f.2)

/-- The first multiple of 4,096 at or after an offset. -/
def alignPage (n : Nat) : Nat := (n + 4095) / 4096 * 4096

/-- The offsets of sections that follow one another from an offset on. -/
def sectionOffsets : Nat → List (Nat × Nat × List Byte) → List Nat
  | _, [] => []
  | n, e :: es => n :: sectionOffsets (alignPage (n + e.2.2.length)) es

/-- An entry of the section directory. -/
def sectionEntry (type ctx offset size : Nat) : List Byte :=
  codeBytes 4 type ++ codeBytes 2 ctx ++ codeBytes 2 0 ++ codeBytes 8 offset ++ codeBytes 8 size ++ codeBytes 8 0

/-- FORM of an image: quiet, frozen, or mixed; a context with no gang counts as its own state says. -/
def imageForm (xs : List Image) : Nat :=
  let gs := xs.flatMap fun x => if x.tiles.gangs.isEmpty then [x.quiet] else x.tiles.gangs.map fun e => decide (e.2.seq = .stopped)
  if gs.all id then 0 else if gs.any id then 2 else 1

/-- The header of an image, of 256 bytes (R380). -/
def imageHeader (xs : List Image) (nsect size : Nat) (digest sig : BitVec 512) : List Byte :=
  let signed := xs.any (·.signed)
  codeBytes 4 0x4D495853 ++ codeBytes 2 1 ++ codeBytes 2 Config.featureVersion ++ codeBytes 1 96 ++ codeBytes 1 66 ++
    codeBytes 2 xs.length ++ codeBytes 1 (imageForm xs) ++ codeBytes 3 0 ++
    codeBytes 8 (match xs with | x :: _ => x.cycBase | [] => 0) ++ codeBytes 4 nsect ++ codeBytes 4 0 ++ codeBytes 8 256 ++
    codeBytes 8 size ++ codeBytes 16 0 ++ codeBytes 64 digest.toNat ++ codeBytes 64 (if signed then sig.toNat else 0) ++
    codeBytes 32 (if signed then Config.signer.toNat else 0) ++ codeBytes 1 (bitOf signed 0) ++ codeBytes 31 0

/-- Directory and sections, from byte 256 on, and the length of the whole image. -/
def imageBody (xs : List (Nat × Image)) (faults : List (Nat × List Byte)) : List Byte × Nat :=
  let ss := imageSections xs faults
  let offs := sectionOffsets (alignPage (256 + 32 * ss.length)) ss
  let dir := (ss.zip offs).flatMap fun (e, o) => sectionEntry e.1 e.2.1 o e.2.2.length
  let body := (ss.zip offs).foldl (fun (b : List Byte) x => b ++ codeBytes (x.2 - 256 - b.length) 0 ++ x.1.2.2) dir
  (body, 256 + body.length)

/-- The bytes of an image: the digest is over the image with DIGEST and SIG read as 0, the signature over the digest. -/
def sealedBytes (xs : List (Nat × Image)) (faults : List (Nat × List Byte)) : List Byte :=
  let is := xs.map (·.2)
  let (body, size) := imageBody xs faults
  let n := (imageSections xs faults).length
  let digest := Config.sha512 (imageHeader is n size 0 0 ++ body)
  imageHeader is n size digest (Config.ed25519 digest) ++ body

/-- A state image of several contexts, and the dump of one with its fault records (20_fault R457). -/
def imageBytes (xs : List (Nat × Image)) : List Byte := sealedBytes xs []
def dumpBytes (c : Nat) (x : Image) (rs : List FaultRec) (trunc : Bool) (dropped : Nat) : List Byte :=
  sealedBytes [(c, x)] [(c, faultsSection rs trunc dropped)]

end Sys2Proof.Machine
end

