-- ==== Sys2Proof/Tests/Slice0.lean ====
section
/-! SUPPORT. Tests: ill-formed terms refused, words of the spec decoded, one step checked here and there, and for every statement with hypotheses a state that meets them. -/

set_option Elab.async false

namespace Sys2Proof.Machine

/-! ### Small states -/

/-- One slot in hand of the gang at tile 0, in context 0. -/
def W : State := State.reset.withFetchWord 24 0x010003
def WI : Issue := ⟨0, 0, BitVec.twoPow 64 63, 0, 0, [(0, 0x010003)], none, 0⟩
def Wg (f : Gang → Gang) : State := { W with gangs := [(0, f (gangOf W 0))] }
def Ws (f : Slab → Slab) : State := { W with slabs := [(0, f (slabOf W 0))] }
def Wc (f : Ctx → Ctx) : State := { W with ctxs := [(0, f (ctxOf W 0))] }
/-- s1 holds a value. -/
def Wv (v : Word) : State := Wg fun g => { g with s := [(1, ⟨v, false⟩)] }
/-- An operand port of a slab unit holds a value, and s1 another. -/
def Wp (ps : List (Nat × TV)) (v : Word) : State := { Wv v with slabs := [(0, { slabOf W 0 with ports := ps })] }
/-- With no bundle in hand, and operands of an event in hand. -/
def Wa (s : State) (x : Operand) : State := { s with issue := none, arg := x }
def run0 : MxRun :=
  ⟨⟨0, 0, 0, false, 0, 0, 608, 0⟩, 512, 512, 512, 0, 100, 0, 0, 0, fmtReset, [], latchHm Slab.fresh, none, descReset, descReset, [], [], none, none,
    false, []⟩

theorem runs {s : State} {is : Issue} (d : Nat) (h1 : s.issue = some is) (h2 : guardHolds 0 (srcGang s is).p = true)
    (h3 : (gangOf s is.gang).handler = false) : slotRuns s is 0 d :=
  ⟨h1, h2, fun h => absurd (h3.symm.trans h) (by decide)⟩

/-- An access has its place. -/
def okAt (x : Except (Nat × Nat) Place) (p : Place) : Bool := match x with | .ok q => decide (q = p) | .error _ => false
theorem okAt_eq {x : Except (Nat × Nat) Place} {p : Place} (h : okAt x p = true) : x = .ok p := by
  cases x with
  | ok q => simpa [okAt] using h
  | error e => simp [okAt] at h

theorem runs_W (d : Nat) : slotRuns W WI 0 d := runs d rfl (by decide) rfl
theorem runs_Wg {f : Gang → Gang} (d : Nat) (h : (f (gangOf W 0)).handler = false) : slotRuns (Wg f) WI 0 d :=
  runs d rfl (by simp [guardHolds, predOf]) h
theorem runs_Ws {f : Slab → Slab} (d : Nat) : slotRuns (Ws f) WI 0 d := runs d rfl (by simp [guardHolds, predOf]) rfl
theorem runs_Wp {ps : List (Nat × TV)} {v : Word} (d : Nat) : slotRuns (Wp ps v) WI 0 d :=
  runs d rfl (by simp [guardHolds, predOf]) rfl

/-! ### Statements of I0, I1 and C -/

theorem witness_AddLogicShiftResults : (∀ r ∈ arithRows, slotRuns W WI 0 (intPort 0 r.port)) ∧ slotRuns W WI 0 (intPort 1 addshRow.port) :=
  ⟨fun _ _ => runs_W _, runs_W _⟩
theorem witness_MultiplyResults : ∀ r ∈ mulRows, slotRuns W WI 0 (intPort 1 r.port) := fun _ _ => runs_W _
theorem witness_BitFieldResults : (∀ r ∈ fieldRows, slotRuns W WI 0 (intPort 0 r.port)) ∧ slotRuns W WI 0 (intPort 1 insRow.port) :=
  ⟨fun _ _ => runs_W _, runs_W _⟩
theorem witness_CompareResults : ∀ r ∈ compareRows, slotRuns W WI 0 (intPort 1 r.port) := fun _ _ => runs_W _
theorem witness_DivideResults : ∀ r ∈ divRows, slotRuns W WI 0 (intPort 0 r.port) := fun _ _ => runs_W _
theorem witness_MinMaxCountAndSelectResults : (∀ r ∈ minMaxRows, slotRuns W WI 0 (intPort 0 r.port)) ∧
    (∀ r ∈ unaryRows, slotRuns W WI 0 (intPort 0 r.port)) ∧ slotRuns W WI 0 (intPort 1 selRow.port) :=
  ⟨fun _ _ => runs_W _, fun _ _ => runs_W _, runs_W _⟩

theorem witness_AddressConversion : (gangOf W 0).width = 1 ∧ slotRuns W WI 0 (intPort 0 39) ∧ slotRuns W WI 0 (intPort 0 38) ∧
    (readFE W WI 0).val.getLsbD 0 = false ∧ inWindow 1 0 (feOpd W WI (intPort 0 0)).val.toNat = true :=
  ⟨rfl, runs_W _, runs_W _, by decide, by decide⟩
def Wcvt : State := Wg fun g => { g with s := [(1, ⟨1, false⟩)], main := [(1128, ⟨0x400000, false⟩)] }
theorem witness_AddressConversion_outside : slotRuns Wcvt WI 0 (intPort 0 38) ∧
    (∀ sp < 4, inWindow 1 sp (feOpd Wcvt WI (intPort 0 0)).val.toNat = false) ∧ (readFE Wcvt WI 0).val.getLsbD 0 = false ∧
    (readFE Wcvt WI 1).val.getLsbD 0 = true := ⟨runs_Wg _ rfl, by decide, by decide, by decide⟩

theorem witness_FrontEndMoves : slotRuns W WI 0 63 ∧ keepsTag 63 = true ∧ slotRuns W WI 0 97 ∧ (readFE W WI 0).df = false ∧
    (tabGet W.gangs 0).isSome = true ∧ slotRuns W WI 0 800 ∧ slotRuns W WI 0 831 :=
  ⟨runs_W _, by decide, runs_W _, by decide, by decide, runs_W _, runs_W _⟩
def Wtag : State := Wg fun g => { g with s := [(1, ⟨1, true⟩)] }
theorem witness_FrontEndMoves_tagged : slotRuns Wtag WI 0 111 ∧ (readFE Wtag WI 1).df = true := ⟨runs_Wg _ rfl, by decide⟩

theorem witness_ExitsAndChecks : (∀ r ∈ exitRows, ctlRuns W WI 0 r.port 0 r.opa false) ∧ (gangOf W 0).blk.exit = none ∧
    ctlRuns W WI 0 267 0 false true ∧ slotRuns W WI 0 266 ∧ (feOpd W WI 257).df = false :=
  ⟨fun _ _ => ⟨runs_W _, by decide, fun _ => by decide, fun h => absurd h (by decide)⟩, rfl,
    ⟨runs_W _, by decide, fun h => absurd h (by decide), fun _ => by decide⟩, runs_W _, by decide⟩

theorem witness_LoopOperationsAreRecorded : ctlRuns W WI 0 263 0 true true ∧ ctlRuns W WI 0 264 0 true true ∧
    ctlRuns W WI 0 265 0 false false ∧ (gangOf W 0).blk.lop = none :=
  ⟨⟨runs_W _, by decide, fun _ => by decide, fun _ => by decide⟩, ⟨runs_W _, by decide, fun _ => by decide, fun _ => by decide⟩,
    ⟨runs_W _, by decide, fun _ => by decide, fun _ => by decide⟩, rfl⟩
def Wlop : State := Wg fun g => { g with blk := { g.blk with lop := some ⟨263, 2, 5, 0, 1⟩ } }
theorem witness_LoopOperationsAreRecorded_second : ctlRuns Wlop WI 0 263 0 true true ∧ ctlRuns Wlop WI 0 264 0 true true ∧
    ctlRuns Wlop WI 0 265 0 false false ∧ (gangOf Wlop 0).blk.lop.isSome = true ∧ (gangOf Wlop 0).blk.trap = none :=
  ⟨⟨runs_Wg _ rfl, by decide, fun _ => by decide, fun _ => by decide⟩, ⟨runs_Wg _ rfl, by decide, fun _ => by decide, fun _ => by decide⟩,
    ⟨runs_Wg _ rfl, by decide, fun _ => by decide, fun _ => by decide⟩, rfl, rfl⟩

theorem runs_ctl (d : Nat) : ctlRuns W WI 0 d 0 false false :=
  ⟨runs_W _, by decide, fun _ => by decide, fun _ => by decide⟩
theorem witness_WaitsAndQuietPointsAreRecorded : ctlRuns W WI 0 268 0 false false ∧ ctlRuns W WI 0 269 0 false false ∧
    ctlRuns W WI 0 271 0 false false ∧ ctlRuns W WI 0 272 0 false false ∧ (gangOf W 0).blk.cwaits = 0 :=
  ⟨runs_ctl _, runs_ctl _, runs_ctl _, runs_ctl _, rfl⟩
theorem witness_CycleReadAndMark : ctlRuns W WI 0 270 0 false false ∧ ctlRuns W WI 0 273 0 false false ∧
    (ctxOf W (gangOf W 0).ctx).bps = [] := ⟨runs_ctl _, runs_ctl _, rfl⟩
/-- A marker on its cycle, five cycles late, and an armed trace that starts at that much. -/
theorem witness_CycleReadAndMark_lands : (100 : Word).toNat = (100 : BitVec 32).toNat ∧ (105 : Word).toNat ≠ (100 : BitVec 32).toNat ∧
    (let s := Wc fun k => { k with trace := some ⟨⟨5, 64, true, 9⟩, none, 0, 0, 0⟩ }
     (ctxOf s 0).trace = some ⟨⟨5, 64, true, 9⟩, none, 0, 0, 0⟩ ∧ ((5 : Nat) : Int) ≤ ((min 105 (2 ^ 32 - 1) : Int) - 100).natAbs ∧
       ((min 104 (2 ^ 32 - 1) : Int) - 100).natAbs < ((5 : Nat) : Int)) := by decide
theorem witness_PredicateLogicResults : slotRuns W WI 0 276 ∧ slotRuns W WI 0 277 ∧ slotRuns W WI 0 278 ∧ slotRuns W WI 0 279 :=
  ⟨runs_W _, runs_W _, runs_W _, runs_W _⟩
def Wbnd : State := Wv 0x81
theorem witness_ControlRegisterWrites : ctlRuns W WI 0 285 0 false false ∧ ctlRuns W WI 0 286 0 false false ∧
    ctlRuns W WI 0 283 0 false false ∧ ctlRuns W WI 0 274 0 false false ∧ ctlRuns Wbnd WI 0 275 1 false false ∧
    ∀ b < 8, (readFE Wbnd WI 1).val.getLsbD b = true → badBound (tabGetD boundReset (gangOf Wbnd 0).bdStage b) = false :=
  ⟨runs_ctl _, runs_ctl _, runs_ctl _, runs_ctl _, ⟨runs_Wg _ rfl, by decide, fun _ => by decide, fun _ => by decide⟩, by decide⟩

theorem witness_SlabAndVectorMoves : slotRuns W WI 0 113 ∧ slabDest 113 = true ∧ plainIn W WI (portTiles W WI 113) 0 ∧
    slotRuns W WI 0 320 ∧ slabDest 320 = true ∧ slotRuns W WI 0 704 ∧ slabDest 704 = true ∧ slotRuns W WI 0 95 ∧
    plainIn W WI (gangTiles W 0) 0 ∧ sourceClass 64 = .v :=
  ⟨runs_W _, by decide, by unfold plainIn; decide, runs_W _, by decide, runs_W _, by decide, runs_W _, by unfold plainIn; decide,
    by decide⟩

/-! ### Statements of L0 and L1 -/

/-- l0.opa holds an address, s1 a value; the task holds bank 1 and bank 31. -/
def Wl (a : Word) (v : Word) : State :=
  { Wv v with slabs := [(0, { slabOf W 0 with ports := [(1320, ⟨a, false⟩)], banks := [(1, 0), (31, 0)] })] }
theorem runs_Wl {a v : Word} (d : Nat) : slotRuns (Wl a v) WI 0 d := runs d rfl (by simp [guardHolds, predOf]) rfl

theorem witness_LocalAccessesReachTheirArray_load : slotRuns (Wl 0x3FFFF8 0) WI 0 326 ∧ lBase 1 + 6 = 326 ∧
    operandsPlain (Wl 0x3FFFF8 0) WI 1 0 (.load 8) ∧
    (∀ t ∈ gangTiles (Wl 0x3FFFF8 0) 0, let a := (memAddr (.load 8) (memOpds (Wl 0x3FFFF8 0) WI 1 0 t)).toNat
      a = 0x3FFFF8 ∧ a % 8 = 0 ∧ holdsBank (Wl 0x3FFFF8 0) 0 t (a / 2 ^ 17) = true) :=
  ⟨runs_Wl _, by decide, by unfold operandsPlain; decide, by decide⟩
theorem witness_LocalAccessesReachTheirArray_store : slotRuns (Wl 0x5000 0) WI 0 331 ∧ lBase 1 + 11 = 331 ∧
    operandsPlain (Wl 0x5000 0) WI 1 0 (.store 1) ∧
    (∀ t ∈ gangTiles (Wl 0x5000 0) 0, let a := (memAddr (.store 1) (memOpds (Wl 0x5000 0) WI 1 0 t)).toNat
      a = 0x5000 ∧ holdsBank (Wl 0x5000 0) 0 t (a / 2 ^ 17) = true) :=
  ⟨runs_Wl _, by decide, by unfold operandsPlain; decide, by decide⟩
theorem witness_LocalAccessFaults :
    (memAddr (.load 8) (memOpds (Wl 0x400000 0) WI 1 0 0)).toNat = 2 ^ 22 ∧
    (memAddr (.load 8) (memOpds (Wl 0x3FFFFF 0) WI 1 0 0)).toNat % 8 ≠ 0 ∧
    (memAddr (.store 8) (memOpds (Wl 0x4FF8 0) WI 1 0 0)).toNat < 0x5000 ∧
    holdsBank (Wl 0x40000 0) 0 0 ((memAddr (.load 8) (memOpds (Wl 0x40000 0) WI 1 0 0)).toNat / 2 ^ 17) = false ∧
    slotRuns (Wl 0x400000 0) WI 0 326 ∧ slotRuns (Wl 0x3FFFFF 0) WI 0 326 ∧ slotRuns (Wl 0x4FF8 0) WI 0 334 ∧
    slotRuns (Wl 0x40000 0) WI 0 326 ∧ operandsPlain (Wl 0x40000 0) WI 1 0 (.load 8) ∧ (gangOf (Wl 0x40000 0) 0).width = 1 :=
  ⟨by decide, by decide, by decide, by decide, runs_Wl _, runs_Wl _, runs_Wl _, runs_Wl _, by unfold operandsPlain; decide, rfl⟩
theorem witness_SpeculativeLoads : lsuUnit 1 = true ∧ slotRuns W WI 0 (lBase 1 + 7) := ⟨by decide, runs_W _⟩
theorem witness_GenericAccessesReachTheirArray : slotRuns (Wl 0x5000 0) WI 0 (lBase 1 + 22) ∧
    operandsPlain (Wl 0x5000 0) WI 1 0 (.store 8) ∧
    ∀ t ∈ gangTiles (Wl 0x5000 0) 0, placeOf (Wl 0x5000 0) 0 t true (memAddr (.store 8) (memOpds (Wl 0x5000 0) WI 1 0 t)) 8 true =
      .ok ⟨0, 0x5000, 0⟩ := ⟨runs_Wl _, by unfold operandsPlain; decide, fun t h => by
        have h : t ∈ [0] := h
        obtain rfl := List.mem_singleton.mp h
        exact okAt_eq (by decide +kernel)⟩
/-- A gang of two, with an address of its second slab. -/
def W2 : State := { Wl 0x100405000 0 with
  gangs := [(0, { gangOf W 0 with width := 2 })], slabs := [(0, { slabOf W 0 with ports := [(1320, ⟨0x100405000, false⟩)] }),
    (1, { slabOf W 0 with ports := [(1320, ⟨0x100405008, false⟩)] })] }
def place2 (t : TileName) : Place := if t = 0 then ⟨1, 0x5000, 1⟩ else ⟨1, 0x5008, 1⟩
theorem witness_GenericAccessesReachTheirArray_gang : slotRuns W2 WI 0 (lBase 1 + 29) ∧
    operandsPlain W2 WI 1 0 (.atom .add) ∧ gangTiles W2 0 = [0, 1] ∧
    ∀ t ∈ [0, 1], placeOf W2 0 t true (memAddr (.atom .add) (memOpds W2 WI 1 0 t)) 8 true = .ok (place2 t) :=
  ⟨runs _ rfl (by decide) rfl, by unfold operandsPlain; decide, by decide, fun t h => by
    simp only [List.mem_cons, List.not_mem_nil, or_false] at h
    rcases h with h | h <;> subst h <;> exact okAt_eq (by decide +kernel)⟩
/-- A gang of a width whose domain is the whole wafer, each slab with an address in tile 2; the row of the entry of this cycle
is reserved for the remote lane or not; the scope given. -/
def Wd (w : Nat) (entry : Nat) (scp : Word) (strict : Bool) : State := { Wl 0x10000805000 0 with
  gangs := [(0, { gangOf W 0 with
    width := w, dmem := BitVec.ofNat 64 (96 * 2 ^ 14 + 66 * 2 ^ 21), tctl := { Tctl.reset with scopestrict := strict } })]
  slabs := (gangTilesOf 0 w).map fun t => (t, { slabOf W 0 with
    ports := [(1384, ⟨0x10000805000, false⟩), (1386, ⟨scp, false⟩)], prog := ⟨4, 0, [(0, BitVec.ofNat 64 entry)], false⟩ }) }
def domainOk (s : State) (k : MemKind) (e : Bool) : Prop :=
  slotRuns s WI 0 (lBase 2 + 22) ∧ entryLres (entryNow s 0) = e ∧
    (∀ t ∈ gangTiles s 0, opdsTagged k (memOpds s WI 2 0 t) = false ∧ scpBad k (memOpds s WI 2 0 t).scp.val = false) ∧
    (∀ t ∈ gangTiles s 0, okAt (placeOf s 0 t true (memAddr k (memOpds s WI 2 0 t)) (kindBytes k) (kindWrites k)) ⟨2, 0x5000, 2⟩ = true)
theorem witness_DomainAccessesTravel : (∀ w ∈ [1, 2, 4], domainOk (Wd w 0x100000000 0 false) (.store 8) true ∧
      domainOk (Wd w 0 0 false) (.store 8) false ∧ (gangOf (Wd w 0 0 false) 0).width = w) ∧
    (gangOf (Wd 4 0 0 false) 0).tctl.scopestrict = false ∧ kindScoped (.store 8) = false := by
  refine ⟨fun w h => ?_, by decide, by decide⟩
  simp only [List.mem_cons, List.not_mem_nil, or_false] at h
  rcases h with h | h | h <;> subst h <;>
    exact ⟨⟨runs _ rfl (by decide) rfl, by decide, by decide, by decide +kernel⟩,
      ⟨runs _ rfl (by decide) rfl, by decide, by decide, by decide +kernel⟩, rfl⟩
/-- A scope wider than the wafer's domain (4), with and without SCOPESTRICT. -/
theorem witness_DomainAccessesTravel_scope : ∀ b ∈ [true, false], let s := Wd 4 0x100000000 4 b
    domainOk s (.atom .add) true ∧ (gangOf s 0).tctl.scopestrict = b ∧ (gangTiles s 0)[0]? = some 0 ∧
    (kindScoped (.atom .add) && decide (4 ≤ scpScope (memOpds s WI 2 0 0).scp.val)) = true := by
  intro b h
  simp only [List.mem_cons, List.not_mem_nil, or_false] at h
  rcases h with h | h <;> subst h <;>
    exact ⟨⟨runs _ rfl (by decide) rfl, by decide, by decide, by decide +kernel⟩, rfl, by decide, by decide⟩
theorem witness_ArrayAccessEffect : W.memWf ∧ (ctxOf W (slotOwner W WI 334).ctx).faults = [] := by decide
/-- Region 0 is MAPPED with kind 3 and SYNC 0x777, and binds slots 100 to 103. -/
def Wrel (f : Slab → Slab) (a : List Ev) : State :=
  { padPutWord (padPutWord (Ws f) 0 0x2000 (BitVec.ofNat 64 (2 * 2 ^ 61 + 4 * 2 ^ 20 + 100))) 0 0x2010 (BitVec.ofNat 64 (3 * 2 ^ 62 + 0x777)) with
    agenda := a }
theorem binds_Wrel (f : Slab → Slab) (a : List Ev) : ∀ n ∈ [100, 103], binds (Wrel f a) 0 3 0x777 n := fun n h => by
  have e (i w : Nat) : rgnWord (Wrel f a) 0 i w = rgnWord (Wrel id []) 0 i w := rfl
  simp only [binds, rgnState, rgnKind, rgnSync, rgnSlot0, rgnNslot, e]
  simp only [List.mem_cons, List.not_mem_nil, or_false] at h
  rcases h with h | h <;> subst h <;> exact ⟨0, by decide, by decide +kernel⟩
/-- A release with nothing to flush, one with a dirty slot, and one whose slot a store of the same cycle dirties. -/
theorem witness_ArrayAccessEffect_release : let o : Ordered := ⟨0x777, false, true⟩
    let own := slotOwner W WI 334
    let st : Ev := ⟨0, 0, 0, none, .operationLanding { own with slot := own.slot + 1 }
      (.mem ⟨0, 4096 * 103 + 4095, .store 1 5, 0, [], none, 1, none⟩), .none⟩
    let d := Wrel (fun sl => { sl with slots := [(103, ⟨true, 1, false, false⟩)] }) []
    let a : MemAccess := ⟨0, 0x6000, .store 8 5, 0, [], some o, 1, none⟩
    a.ord = some o ∧ (∀ n ≥ 16, slotOf (slabOf (Wrel id []) 0) n = .fresh) ∧
    gangTiles d 0 = [0] ∧ binds d 0 3 0x777 103 ∧ (slotOf (slabOf d 0) 103).dirty ≠ 0 ∧ a.port ≠ 154 ∧
    binds (Wrel id [st]) 0 3 0x777 103 ∧ st ∈ (Wrel id [st]).agenda ∧ st.at_ ≤ (Wrel id [st]).now ∧ (4096 * 103 + 4095) / 4096 = 103 ∧
    { own with slot := own.slot + 1 } ≠ own :=
  ⟨rfl, fun _ h => if_neg (Nat.not_lt.mpr h), by decide, binds_Wrel _ _ _ (by decide), by decide, by decide, binds_Wrel _ _ _ (by decide), .head _,
    Nat.zero_le _, rfl, by decide⟩
theorem witness_FencesCheckTheirScope : slotRuns (Wv 4) WI 0 (lBase 1 + 37) ∧ plainIn (Wv 4) WI (gangTiles (Wv 4) 0) 1 ∧
    (∀ t ∈ gangTiles (Wv 4) 0, (srcIn (Wv 4) WI t 1).toNat % 8 < 6 ∧ 4 ≤ (srcIn (Wv 4) WI t 1).toNat % 8) ∧
    (gangOf (Wv 4) 0).tctl.scopestrict = false ∧ ∀ t ∈ gangTiles W 0, (srcIn W WI t 0).toNat % 8 < 4 :=
  ⟨runs _ rfl (by decide) rfl, by unfold plainIn; decide, by decide, rfl, by decide⟩
def Wstrict : State := Wg fun g => { g with s := [(1, ⟨5, false⟩)], tctl := { g.tctl with scopestrict := true } }
theorem witness_FencesCheckTheirScope_strict : slotRuns Wstrict WI 0 (lBase 1 + 40) ∧
    (∀ t ∈ gangTiles Wstrict 0, (srcIn Wstrict WI t 1).toNat % 8 = 5) ∧ (gangOf Wstrict 0).tctl.scopestrict = true :=
  ⟨runs_Wg _ rfl, by decide, rfl⟩
def Wtags : State := Wp [(1320, ⟨1023, false⟩)] 1023
theorem witness_TagRegionAndBankOperations : plainIn Wtags WI (gangTiles Wtags 0) 1 ∧ (∀ k, slotRuns Wtags WI 0 k) ∧
    (∀ t ∈ gangTiles Wtags 0, (lOpd Wtags WI t 1 0).df = false ∧ (lOpd Wtags WI t 1 1).df = false ∧
      16 ≤ (lOpd Wtags WI t 1 0).val.toNat % 1024 ∧ 16 ≤ (srcIn Wtags WI t 1).toNat % 1024) ∧
    ∀ t ∈ gangTiles Wtags 0, (srcIn (Wp [] 0x3FFFE0) WI t 1).toNat < 2 ^ 22 ∧ (srcIn (Wp [] 0x3FFFE0) WI t 1).toNat % 32 = 0 :=
  ⟨by unfold plainIn; decide, fun _ => runs_Wp _, by decide, by decide⟩
theorem witness_TagRegionAndBankOperations_banks :
    (∀ r ∈ constRows (gangConsts (Wg fun g => { g with firstBank := true }) 0), (0 : BitVec 32).getLsbD (r / 2048) = true) ∧
    (gangOf (Wg fun g => { g with firstBank := true }) 0).firstBank = true ∧
    (gangOf (Wg fun g => { g with firstBank := false }) 0).firstBank = false :=
  ⟨by decide +kernel, rfl, rfl⟩

/-! ### Statements of V, F and X -/

/-- v.km is all ones unless given, ports and vector ports as given, s1 a value. -/
def Wx (ps : List (Nat × TV)) (vs : List (Nat × Vec)) (v : Word) : State :=
  { Wv v with slabs := [(0, { slabOf W 0 with ports := ps, vports := vs })] }
theorem runs_Wx {ps : List (Nat × TV)} {vs : List (Nat × Vec)} {v : Word} (d : Nat) : slotRuns (Wx ps vs v) WI 0 d :=
  runs d rfl (by simp [guardHolds, predOf]) rfl

theorem noTrap_reset (fl : FlagSet) : numericTrap fmtReset fl = none := by simp [numericTrap, fmtReset]
theorem noTrap_Wx {ps : List (Nat × TV)} {vs : List (Nat × Vec)} {v : Word} (fl : FlagSet) :
    numericTrap (gangOf (Wx ps vs v) 0).fmt fl = none := noTrap_reset fl

theorem witness_VectorIntegerLanes : ∀ r ∈ intLaneRows, slotRuns (Wx [] [] 7) WI 0 r.port ∧ vecPlain (Wx [] [] 7) WI 1 ∧
    ∀ t ∈ gangTiles (Wx [] [] 7) 0, numericTrap (gangOf (Wx [] [] 7) 0).fmt
      (r.flags (vOpds (Wx [] [] 7) WI t) (readVec (Wx [] [] 7) WI t 1)) = none :=
  fun _ _ => ⟨runs_Wx _, by unfold vecPlain; decide, fun _ _ => noTrap_Wx _⟩
theorem witness_VectorFloatLanesAndTrap : ∀ r ∈ fpLaneRows, slotRuns (Wx [] [] 7) WI 0 r.port ∧ vecPlain (Wx [] [] 7) WI 1 ∧
    ∀ t ∈ gangTiles (Wx [] [] 7) 0, numericTrap (gangOf (Wx [] [] 7) 0).fmt
      (r.flags (vOpds (Wx [] [] 7) WI t) (readVec (Wx [] [] 7) WI t 1)) = none :=
  fun _ _ => ⟨runs_Wx _, by unfold vecPlain; decide, fun _ _ => noTrap_Wx _⟩
/-- v.a holds minus infinity in lane 0, v.km lane 0 alone, s1 plus infinity; STRICT catches the invalid operation. -/
def Winv : State := { Wx [(1450, ⟨1, false⟩)] [(1448, 0xFF800000)] 0x7F800000 with
  gangs := [(0, { gangOf (Wv 0x7F800000) 0 with fmt := { fmtReset with strict := 2 } })] }
theorem witness_VectorFloatLanesAndTrap_invalid : ∃ r ∈ fpLaneRows, slotRuns Winv WI 0 r.port ∧ vecPlain Winv WI 1 ∧
    (gangOf Winv 0).width = 1 ∧ (r.flags (vOpds Winv WI 0) (readVec Winv WI 0 1)).invf = true ∧
    (gangOf Winv 0).fmt.strict.getLsbD 1 = true :=
  ⟨⟨.vadd, 453, 144, 4, fun a _ t => (BitVec.ofNat 32 (add32 a.toNat t.toNat).1, ⟨false, (add32 a.toNat t.toNat).2, false⟩)⟩,
    .head _, runs _ rfl (by simp [guardHolds, predOf]) rfl, by unfold vecPlain; decide, rfl, by decide +kernel, by decide⟩
theorem witness_VectorCompares : ∀ r ∈ vcmpRows, slotRuns (Wx [] [] 7) WI 0 r.port ∧ vecPlain (Wx [] [] 7) WI 1 :=
  fun _ _ => ⟨runs_Wx _, by unfold vecPlain; decide⟩
theorem witness_VectorSelectShuffleClamp : vecPlain (Wx [] [] 7) WI 1 ∧ ∀ d, slotRuns (Wx [] [] 7) WI 0 d :=
  ⟨by unfold vecPlain; decide, fun _ => runs_Wx _⟩
/-- A conversion control; the highest formats (INT32 to INT32), whose one part is 0; no strict bit is set. -/
def Wcv (c : Word) : State := Wx [(1451, ⟨c, false⟩)] [] 7
def cvtValid (s : State) (t : TileName) : Bool :=
  let c := (vOpds s WI t).ctl.toNat
  decide (c % 16 < 6) && decide (c / 16 % 16 < 6) && decide (c / 2 ^ 10 % 4 < 32 / fmtBits (c % 16)) &&
    decide (c / 2 ^ 12 % 4 < 32 / fmtBits (c / 16 % 16))
theorem witness_VectorConversion : (∀ c, slotRuns (Wcv c) WI 0 481) ∧ vecPlain (Wcv 0x55) WI 1 ∧
    (∀ t ∈ gangTiles (Wcv 0x55) 0, cvtValid (Wcv 0x55) t = true) ∧ (gangOf (Wcv 0x55) 0).fmt.strict = 0 ∧
    (∀ fl, numericTrap (gangOf (Wcv 0x55) 0).fmt fl = none) ∧ vecPlain (Wcv 0x56) WI 1 ∧
    (gangTiles (Wcv 0x56) 0)[0]? = some 0 ∧ cvtValid (Wcv 0x56) 0 = false :=
  ⟨fun _ => runs_Wx _, by unfold vecPlain; decide, by decide, rfl, fun _ => noTrap_Wx _, by unfold vecPlain; decide, by decide, by decide⟩
/-- Lane 0, 70,000 as FP32, to FP16 under STRICT: an overflow of the conversion. -/
def Wcvs : State := { Wx [(1450, ⟨1, false⟩), (1451, ⟨0x34, false⟩)] [] 0x4788B800 with
  gangs := [(0, { gangOf (Wv 0x4788B800) 0 with fmt := { fmtReset with strict := 1 } })] }
theorem witness_VectorConversion_strict : slotRuns Wcvs WI 0 481 ∧ vecPlain Wcvs WI 1 ∧ (gangOf Wcvs 0).width = 1 ∧
    cvtValid Wcvs 0 = true ∧ activeOf (vOpds Wcvs WI 0).km = [0] ∧ numericTrap (gangOf Wcvs 0).fmt
      (convertFmt 4 3 0 (packed (readVec Wcvs WI 0 1) 32 0)).2 = some 1 :=
  ⟨runs _ rfl (by simp [guardHolds, predOf]) rfl, by unfold vecPlain; decide, rfl, by decide, by decide, by decide +kernel⟩
theorem witness_VectorReductions : vecPlain (Wx [] [] 7) WI 1 ∧ (∀ d, slotRuns (Wx [] [] 7) WI 0 d) ∧
    ∀ fl : TileName → FlagSet, ∀ t ∈ gangTiles (Wx [] [] 7) 0, numericTrap (gangOf (Wx [] [] 7) 0).fmt (fl t) = none :=
  ⟨by unfold vecPlain; decide, fun _ => runs_Wx _, fun fl t _ => noTrap_Wx (fl t)⟩
theorem witness_MaskOperations : plainIn (Wx [] [] 65) WI (gangTiles (Wx [] [] 65) 0) 1 ∧ ∀ d, slotRuns (Wx [] [] 65) WI 0 d :=
  ⟨by unfold plainIn; decide, fun _ => runs_Wx _⟩
/-- One active lane; v.adr at the first writable word, or at the last word of the scratchpad. -/
def Wvm (a v : Word) : State := { Wx [(1450, ⟨1, false⟩), (1452, ⟨a, false⟩)] [] v with
  slabs := [(0, { slabOf W 0 with ports := [(1450, ⟨1, false⟩), (1452, ⟨a, false⟩)], banks := [(31, 0)] })] }
theorem runs_Wvm {a v : Word} (d : Nat) : slotRuns (Wvm a v) WI 0 d := runs d rfl (by simp [guardHolds, predOf]) rfl
theorem witness_VectorMemoryOperations : (∀ d, slotRuns (Wvm 0x5000 0) WI 0 d) ∧ plainIn (Wvm 0x5000 0) WI (gangTiles (Wvm 0x5000 0) 0) 1 ∧
    vecPlain (Wvm 0x5000 0) WI 1 ∧
    (∀ t ∈ gangTiles (Wvm 0x5000 0) 0,
      lanesOk (Wvm 0x5000 0) WI t (vOpds (Wvm 0x5000 0) WI t).km
        (fun i => stridedAddr (shapeOf (slabOf (Wvm 0x5000 0) t) 4) ((vOpds (Wvm 0x5000 0) WI t).adr + srcIn (Wvm 0x5000 0) WI t 1) i) false ∧
      lanesOk (Wvm 0x5000 0) WI t (vOpds (Wvm 0x5000 0) WI t).km
        (fun i => stridedAddr (shapeOf (slabOf (Wvm 0x5000 0) t) 5) (vOpds (Wvm 0x5000 0) WI t).adr i) true ∧
      lanesOk (Wvm 0x5000 0) WI t (vOpds (Wvm 0x5000 0) WI t).km
        (fun i => (vOpds (Wvm 0x5000 0) WI t).adr + (lane (readVec (Wvm 0x5000 0) WI t 1) i).setWidth 64) true ∧
      vpathFree (Wvm 0x5000 0) t ((Wvm 0x5000 0).now + 3) ∧ vpathFree (Wvm 0x5000 0) t ((Wvm 0x5000 0).now + 10) ∧
      ∀ k ∈ [5, 7], (shapeOf (slabOf (Wvm 0x5000 0) t) k).toNat / 2 ^ 36 % 16 < 8 ∧ boundReset.act ≠ 3) :=
  ⟨fun _ => runs_Wvm _, by unfold plainIn; decide, by unfold vecPlain; decide, fun t h => by
    have h : t ∈ [0] := h
    obtain rfl := List.mem_singleton.mp h
    exact ⟨by unfold lanesOk; decide +kernel, by unfold lanesOk; decide +kernel, by unfold lanesOk; decide +kernel,
      by unfold vpathFree; decide, by unfold vpathFree; decide, by decide⟩⟩
theorem witness_VectorMemoryOperations_lands : (([(0, 0x3FFFFC), (63, 0x5000)] : List (Nat × Nat)).map (·.1)).Nodup ∧
    (∀ l ∈ ([(0, 0x3FFFFC), (63, 0x5000)] : List (Nat × Nat)), l.1 < 64) := by decide
theorem witness_VectorMemoryOperations_last : ∀ t ∈ gangTiles (Wvm 0x3FFFFC 0) 0,
    lanesOk (Wvm 0x3FFFFC 0) WI t (vOpds (Wvm 0x3FFFFC 0) WI t).km
      (fun i => stridedAddr (shapeOf (slabOf (Wvm 0x3FFFFC 0) t) 4) ((vOpds (Wvm 0x3FFFFC 0) WI t).adr + srcIn (Wvm 0x3FFFFC 0) WI t 1) i)
      false := fun t h => by
    have h : t ∈ [0] := h
    obtain rfl := List.mem_singleton.mp h
    unfold lanesOk; decide +kernel
/-- The shape registers of stores and scatters name bound register 7, whose range is 0 to 1 and whose action is given; the word stored is 2.0. -/
def Wbd (act : BitVec 2) : State := { Wvm 0x5000 0x40000000 with
  gangs := [(0, { gangOf (Wv 0x40000000) 0 with bd := [(7, ⟨0, 0x3F800000, act⟩)] })]
  slabs := [(0, { slabOf (Wvm 0x5000 0) 0 with shape := [(5, 0xF000000000), (7, 0xF000000000)] })] }
theorem witness_VectorMemoryOperations_bound : ∀ k ∈ [5, 7],
    (shapeOf (slabOf (Wbd 3) 0) k).toNat / 2 ^ 36 % 16 = 15 ∧ tabGetD boundReset (gangOf (Wbd 3) 0).bd 7 = ⟨0, 0x3F800000, 3⟩ ∧
    tabGetD boundReset (gangOf (Wbd 2) 0).bd 7 = ⟨0, 0x3F800000, 2⟩ ∧ activeOf (vOpds (Wbd 3) WI 0).km = [0] ∧
    outsideBound ⟨0, 0x3F800000, 3⟩ (decodeFmt 4 (lane (readVec (Wbd 3) WI 0 1) 0).toNat) = true ∧
    clampTo ⟨0, 0x3F800000, 2⟩ (decodeFmt 4 (lane (readVec (Wbd 3) WI 0 1) 0).toNat) = 0x3F800000 ∧
    (gangTiles (Wbd 3) 0)[0]? = some 0 := by decide +kernel
theorem witness_VectorStoreEffect : W.memWf ∧ (∀ w ∈ [((0 : Nat), (0x5000 : Nat), (1 : BitVec 32))],
      0 < 0 * 2 ^ 22 + w.2.1 ∨ 0 * 2 ^ 22 + w.2.1 + 4 ≤ 0) ∧
    [((0 : Nat), (0x5000 : Nat), (1 : BitVec 32)), (1, 0x5000, 2)] = [((0 : Nat), (0x5000 : Nat), (1 : BitVec 32))] ++ (1, 0x5000, 2) :: [] := by
  decide

/-- s1 holds the address of the last table of the scratchpad, whose banks the task holds. -/
def Wf : State := Wl 0 0x3FF400
theorem witness_InterpolationOperations : slotRuns Wf WI 0 577 ∧ plainIn Wf WI (gangTiles Wf 0) 1 ∧
    (∀ t ∈ gangTiles Wf 0, (srcIn Wf WI t 1).toNat + 3072 = 2 ^ 22 ∧ (srcIn Wf WI t 1).toNat % 64 = 0 ∧
      rangeBank Wf (gangOf Wf 0).task t (srcIn Wf WI t 1).toNat 3072 = true ∧ floadTiming (fired Wf WI 577) t = none) ∧
    slotRuns W WI 0 578 ∧ vecPlain W WI 0 ∧
    ∀ t ∈ gangTiles W 0, fctlBad (slOpd W WI t 576).val = false ∧ floadBusy (slabOf W t) W.now = false :=
  ⟨runs_Wl _, by unfold plainIn; decide, by decide +kernel, runs_W _, by unfold vecPlain; decide, by decide⟩
/-- Lane 0 is infinite, which a table of zeros makes an invalid operation, a trap under STRICT; a vector of zeros meets none. -/
theorem witness_InterpolationOperations_lands : (∀ ctl ∈ [(0 : Word), 0x217, 0x1238], fctlBad ctl = false) ∧
    (slabOf W 0).ftab = [] ∧ numericTrap { fmtReset with strict := 2 } (fevalOf [] 0x217 1 0).2 = none ∧
    numericTrap { fmtReset with strict := 2 } (fevalOf [] 0x217 1 0x7F800000).2 = some 2 ∧
    (gangOf (Wg fun g => { g with fmt := { fmtReset with strict := 2 } }) 0).fmt = { fmtReset with strict := 2 } :=
  ⟨fun ctl h => by
    simp only [List.mem_cons, List.not_mem_nil, or_false] at h
    rcases h with h | h | h <;> subst h <;> decide, rfl, by decide +kernel, by decide +kernel, rfl⟩
/-- The last row of a table whose transfer has begun 48 cycles before. -/
theorem witness_InterpolationOperations_rows : let s : State := { Ws fun sl => { sl with fload := some 0 } with now := 48 }
    (slabOf s 0).fload = some (s.now - 48) := rfl
/-- A slab with a tile of one row and one column, full at cycle 0 and ready at cycle 69. -/
def Wt : State := { Ws (fun sl => { sl with xtiles := [⟨[5], 0, 0x101, 0, 0⟩] }) with now := 69 }
theorem witness_TransposerOperations : slotRuns W WI 0 593 ∧ vecPlain W WI 0 ∧ (∀ t ∈ gangTiles W 0, xBlocked (slabOf W t) = false) ∧
    slotRuns Wt WI 0 594 ∧ plainIn Wt WI (gangTiles Wt 0) 0 ∧ (∀ t ∈ gangTiles Wt 0, xpopBad (slabOf Wt t) Wt.now = false) ∧
    (gangTiles Wt 0).Nodup ∧ slotRuns W WI 0 595 ∧ plainIn W WI (gangTiles W 0) 0 :=
  ⟨runs_W _, by unfold vecPlain; decide, by decide, runs _ rfl (by simp [guardHolds, predOf]) rfl, by unfold plainIn; decide,
    by decide, by decide, runs_W _, by unfold plainIn; decide⟩

/-- A tile of 64 rows that fills, a full one, and columns 0 to 127 of 16-bit elements. -/
theorem witness_TransposerOperations_push :
    (let sl : Slab := { Slab.fresh with xtiles := [⟨[5], 0, 0x101, 0, 0⟩, ⟨[], 0, 0, 0, 0⟩] }
     sl.xtiles = [⟨[5], 0, 0x101, 0, 0⟩] ++ [⟨[], 0, 0, 0, 0⟩] ∧ (⟨[], 0, 0, 0, 0⟩ : XTile).rows.length < hxRows 0) ∧
    (∀ l x, ({ Slab.fresh with xtiles := [⟨[5], 0, 0x101, 0, 0⟩] } : Slab).xtiles = l ++ [x] → hxRows x.hx0 ≤ x.rows.length) ∧
    127 < hxCols 0x10000 ∧ hxHalf 0x10000 = true ∧ 63 < hxCols 0 ∧ hxHalf 0 = false :=
  ⟨⟨rfl, by decide⟩, (fun l x h => by
    cases l with
    | nil => obtain rfl : (⟨[5], 0, 0x101, 0, 0⟩ : XTile) = x := (List.cons.inj h).1
             decide
    | cons a l => exact absurd (congrArg List.length h) (by simp)), by decide, by decide, by decide, by decide⟩

/-! ### Statements of M -/

theorem witness_RoutinesStartAndResume_call : slotRuns (Wv 15) WI 0 608 ∧ plainIn (Wv 15) WI (gangTiles (Wv 15) 0) 1 ∧
    (∀ t ∈ gangTiles (Wv 15) 0, (slabOf (Wv 15) t).mx.busy = false ∧ mxParked (slabOf (Wv 15) t).mx = false ∧
      (storeEntry (slabOf (Wv 15) t).mx ((srcIn (Wv 15) WI t 1).toNat % 64)).isSome = true) ∧
    mixedFmt (gangOf (Wv 15) 0).fmt = false ∧
    worstRow ((gangTiles (Wv 15) 0).zipIdx.map fun (t, k) => callWalk (Wv 15) 0 t k (gangOf (Wv 15) 0).task
      ((storeEntry (slabOf (Wv 15) t).mx ((srcIn (Wv 15) WI t 1).toNat % 64)).getD 0)) = none :=
  ⟨runs_Wg _ rfl, by unfold plainIn; decide, by decide, by decide, by decide +kernel⟩
/-- A run parked on ACC0 at the last microword of the standard routines, an MHALT. -/
def runP : MxRun := { run0 with upc := (storeEntry Mx.fresh 15).getD 0, parked := some false, skip := true }
def Wpark : State := Ws fun sl => { sl with mx := { sl.mx with run := some runP, acc0 := { sl.mx.acc0 with st := .parked } } }
theorem witness_RoutinesStartAndResume_resume : slotRuns Wpark WI 0 610 ∧ plainIn Wpark WI (gangTiles Wpark 0) 0 ∧
    (∀ t ∈ gangTiles Wpark 0, (slabOf Wpark t).mx.busy = false ∧ mxParked (slabOf Wpark t).mx = true) ∧
    runOf Wpark 0 = some runP ∧ runP.parked = some false ∧ mixedFmt (gangOf Wpark 0).fmt = false ∧
    worstRow ((gangTiles Wpark 0).zipIdx.map fun (t, k) => restWalk Wpark 0 t k (slotOwner Wpark WI 610).task
      ((slabOf Wpark t).mx.run.getD runP) (gangOf Wpark 0).fmt (Wpark.now + 1) runP.upc runP.gi false (storeWordAt Wpark t)) = none :=
  ⟨runs_Ws _, by unfold plainIn; decide, by decide, rfl, rfl, by decide, by decide +kernel⟩
/-- s1 names microword 512, s2 entry 63 with bit 16; m.opa (port 614) holds the word. -/
def Wmx (v w : Word) : State := Wp [(1614, ⟨w, false⟩)] v
theorem witness_MatrixStatusZeroSwapLoad : plainIn W WI (gangTiles W 0) 0 ∧ (∀ d, slotRuns W WI 0 d) ∧ enginesIdle W 0 ∧
    (plainIn (Wmx 0x1003F 512) WI (gangTiles (Wmx 0x1003F 512) 0) 1 ∧ ∀ x ∈ (gangTiles (Wmx 0x1003F 512) 0).zipIdx,
      (srcIn (Wmx 0x1003F 512) WI x.1 1).getLsbD 16 = true ∧ 16 ≤ (srcIn (Wmx 0x1003F 512) WI x.1 1).toNat % 64) ∧
    plainIn (Wmx 1023 0) WI (gangTiles (Wmx 1023 0) 0) 1 ∧ ∀ x ∈ (gangTiles (Wmx 1023 0) 0).zipIdx,
      (srcIn (Wmx 1023 0) WI x.1 1).getLsbD 16 = false ∧ 512 ≤ (srcIn (Wmx 1023 0) WI x.1 1).toNat % 1024 ∧
      microReserved (slOpd (Wmx 1023 0) WI x.1 614).val = false ∧
      wordBreaks (Wmx 1023 0) 0 x.1 x.2 ((srcIn (Wmx 1023 0) WI x.1 1).toNat % 1024) (slOpd (Wmx 1023 0) WI x.1 614).val = false :=
  ⟨by unfold plainIn; decide, fun _ => runs_W _, by unfold enginesIdle; decide, ⟨by unfold plainIn; decide, by decide⟩,
    by unfold plainIn; decide, fun x h => by
      have h : x ∈ [((0 : Nat), 0)] := h
      obtain rfl := List.mem_singleton.mp h
      exact ⟨by decide, by decide, by decide +kernel, rfl⟩⟩
/-- A running routine with two groups, at microword 512; its operand A begins in window slot 16. -/
def runM : MxRun := { run0 with mp := [(4, 33)], a := ⟨0x10000, 0, false⟩ }
def Wmic (r : MxRun) (m : List Host.Cell) : State :=
  { Ws (fun sl => { sl with mx := { sl.mx with busy := true, run := some r } }) with mem := m }
theorem witness_MicrowordsRun : microRuns (Wmic runM []) 0 runM ∧ stepIdle true runM.gi (groupCount runM.mp) = false ∧
    runM.gi + 1 < groupCount runM.mp ∧ residencyBad (Wmic runM []) 0 runM = false ∧ ¬ 1 < runM.lc ∧
    ({ runM with lc := 2 } : MxRun).lc = 2 ∧ microRuns (Wmic { runM with lc := 2 } []) 0 { runM with lc := 2 } :=
  ⟨⟨rfl, rfl⟩, by decide, by decide, by decide +kernel, by decide, rfl, rfl, rfl⟩
theorem witness_MicrowordsRun_last : microRuns (Wmic { runM with gi := 1 } []) 0 { runM with gi := 1 } ∧
    stepIdle true 1 (groupCount runM.mp) = false ∧ ¬ 1 + 1 < groupCount runM.mp := ⟨⟨rfl, rfl⟩, by decide, by decide⟩
/-- Slot 16 has a tag and is not resident. -/
def Wpk : State := padPutWord (Wmic runM []) 0 128 (mkTag 0 5)
theorem witness_MicrowordsRun_park : microRuns Wpk 0 runM ∧ stepIdle true runM.gi (groupCount runM.mp) = false ∧
    residencyBad Wpk 0 runM = true := ⟨⟨rfl, rfl⟩, by decide, by decide +kernel⟩
theorem witness_MicrowordsRun_idle : microRuns (Wmic { runM with gi := 2 } []) 0 { runM with gi := 2 } ∧
    stepIdle true 2 (groupCount runM.mp) = true ∧ stepIdle false 0 (groupCount run0.mp) = true := ⟨⟨rfl, rfl⟩, by decide, by decide⟩
def runI : MxRun := { run0 with mp := [(4, 1)], fmt := { fmtReset with afmt := 1, bfmt := 1 } }
theorem witness_GroupsHadamardAndDrain : runOf (Wmic runI []) 0 = some runI ∧ runI.own.gang = 0 ∧ (gangOf (Wmic runI []) 0).width = 1 ∧
    runI.fmt.afmt = 1 ∧ runI.fmt.bfmt = 1 ∧ runI.fmt.strict.getLsbD 0 = false ∧ hmRows runI.hm = 128 ∧
    ownerLive (Wmic runI []) runI.own = true := ⟨rfl, rfl, rfl, rfl, rfl, by decide, by decide, by decide⟩
/-- Operands of M8, BF16 and FP16; an access row at the end of the scratchpad, and one of half a vector register. -/
theorem witness_GroupsHadamardAndDrain_floats : (∀ a ∈ [(0 : BitVec 4), 2, 3], ∀ b ∈ [(0 : BitVec 4), 2, 3],
      let r := { runI with fmt := { fmtReset with afmt := a, bfmt := b } }
      runOf (Wmic r []) 0 = some r ∧ (r.fmt.afmt = 0 ∨ r.fmt.afmt = 2 ∨ r.fmt.afmt = 3) ∧
        (r.fmt.bfmt = 0 ∨ r.fmt.bfmt = 2 ∨ r.fmt.bfmt = 3)) ∧
    (slabOf (Wmic runM []) 0).mx.run = some runM ∧ dBase ⟨0x3FFF80, 0, false⟩ + 0 * dTp ⟨0x3FFF80, 0, false⟩ < 2 ^ 22 ∧
    dVec ⟨0x8000000000000000, 0, false⟩ = true :=
  ⟨fun a ha b hb => ⟨rfl, by simpa using ha, by simpa using hb⟩, rfl, by decide, by decide⟩
/-- A drain of 32-bit elements (its last row ends at the end of the scratchpad), under a bound register that clamps. -/
def bg0 : MxBg := ⟨false, 0, 512, 4, false⟩
def runD : MxRun := { run0 with bg := some bg0, mp := [(5, 0x3FFE00)], hm := [], bound := some ⟨0, 0x3F800000, 2⟩ }
theorem witness_GroupsHadamardAndDrain_drain : (slabOf (Wmic runD []) 0).mx.run = some runD ∧ runD.bg = some bg0 ∧ bg0.flag = false ∧
    bg0.fmt.toNat < 6 ∧ 0 < hmDrows runD.hm ∧ drainBase runD.mp + 0 * drainPitch runD.hm 4 + 128 * (fmtBits 4 / 8) ≤ 2 ^ 22 ∧
    (Wmic runD []).memWf ∧ runD.own.gang = 0 ∧ (gangOf (Wmic runD []) 0).width = 1 ∧ runD.fmt.strict = 0 ∧
    (∀ bd, runD.bound = some bd → bd.act ≠ 3) :=
  ⟨rfl, rfl, rfl, by decide, by decide, by decide, by decide, rfl, rfl, rfl, fun bd h => by
    obtain rfl : (⟨0, 0x3F800000, 2⟩ : Bound) = bd := Option.some.inj h
    decide⟩

/-- The flags of a group on their way to the rows at the address of register 6. -/
theorem witness_GroupsHadamardAndDrain_flags : let b : MxBg := { bg0 with flag := true }
    let r := { runD with bg := some b, mp := [(6, 0x3FF800)] }
    (slabOf (Wmic r []) 0).mx.run = some r ∧ r.bg = some b ∧ b.flag = true ∧ (Wmic r []).memWf :=
  ⟨rfl, rfl, rfl, by decide⟩

/-! ### Statements of D, K, N, B and Q -/

/-- Region 0 is MAPPED at page 5, writable, with slot n; its page is pinned. -/
def Wst (n h : Nat) : State :=
  let s : State := { Wv (BitVec.ofNat 64 n) with
    slabs := [(0, { slabOf W 0 with pins := [(0, [⟨5, 1541, h, 4, true⟩])], banks := [(1, 0), (31, 0)], names := [(0, 1)] })] }
  let s := padPutWord s 0 (8 * n) (mkTag 0 5)
  let s := padPutWord s 0 0x2000 (BitVec.ofNat 64 (2 ^ 62 + 2 ^ 20 + n))
  let s := padPutWord s 0 0x2008 (BitVec.ofNat 64 (5 * 4096))
  padPutWord s 0 0x2018 1
theorem runs_Wst (n h d : Nat) : slotRuns (Wst n h) WI 0 d := runs d rfl (by simp [guardHolds, predOf]) rfl
theorem witness_WindowSlotOperations : ∀ n ∈ [16, 1023],
    plainIn (Wst n 0) WI (gangTiles (Wst n 0) 0) 1 ∧ (∀ d, slotRuns (Wst n 0) WI 0 d) ∧
    ∀ t ∈ gangTiles (Wst n 0) 0, (srcIn (Wst n 0) WI t 1).toNat % 1024 = n ∧ mayStage (Wst n 0) t n true ⟨5, 1541, 0, 4, true⟩ ∧
      mayStage (Wst n 0) t n false ⟨5, 1541, 0, 4, true⟩ := fun n h => by
  simp only [List.mem_cons, List.not_mem_nil, or_false] at h
  rcases h with h | h <;> subst h <;>
    exact ⟨by unfold plainIn; decide, fun _ => runs_Wst _ _ _, fun t h => by
      have h : t ∈ [0] := h
      obtain rfl := List.mem_singleton.mp h
      exact ⟨by decide, by unfold mayStage; decide +kernel, by unfold mayStage; decide +kernel⟩⟩
/-- Slot 1023 on its way, from or to frame 5 of the own vault; a task whose share of the undo area is given. -/
def stageW : StageOp := ⟨⟨0, 1, 0, false, 0, 0, 641, 0⟩, 0, 7, 0, 5, true, [(63, 0x5555)], 0x8000000000000000, false, [], false⟩
def Wrow (x : StageOp) (undo : List (Nat × BitVec 512)) (share : Nat) : State := { Ws (fun sl => { sl with stage := [(1023, x)] }) with
  tasks := [(1, ⟨0, .running, 0, 0, 0, [(0, 1, 0)], 1, 0, false, 0, [], 0, 0, 0, 0, none, none, none, share, []⟩)]
  ctxs := [(0, { ctxOf W 0 with undo := undo })] }
theorem witness_WindowSlotOperations_rows : let x := stageW
    let good (s : State) (l : Nat) : Prop := ∀ i < 8, (wrongCells (slabOf s 0) x.frame l i).length ≤ 1
    let key := vaultKey x.home x.frame (64 * 63)
    (∀ x u n, (Wrow x u n).memWf) ∧ (∀ x u n, tabGet (slabOf (Wrow x u n) 0).stage 1023 = some x) ∧ x.here = true ∧ x.failed = false ∧
    good (Wrow x [] 1) 62 ∧ good (Wrow x [] 1) 63 ∧ x.dirty.getLsbD 63 = true ∧ x.dirty.getLsbD 62 = false ∧
    (∀ l, l / 2 = 0 → x.dirty.getLsbD l = false) ∧
    (∀ l, l / 2 = 31 → x.dirty.getLsbD l = true → ∃ e ∈ (ctxOf (Wrow x [(key, 0)] 1) 0).undo, e.1 = vaultKey x.home x.frame (64 * l)) ∧
    (∀ e ∈ (ctxOf (Wrow x [] 1) 0).undo, e.1 ≠ key) ∧ undoFull (Wrow x [] 1) 0 x.home x.frame 63 = false ∧
    undoFull (Wrow x [] 0) 0 x.home x.frame 63 = true ∧ 0 ∈ gangTiles (Wrow x [] 0) x.own.gang :=
  ⟨fun _ _ _ => by unfold State.memWf; exact ⟨rfl, rfl⟩, fun _ _ _ => rfl, rfl, rfl, by decide, by decide, by decide, by decide,
    (fun l h => by
      have : l = 0 ∨ l = 1 := by omega
      rcases this with h | h <;> subst h <;> decide),
    (fun l h d => by
      have : l = 62 ∨ l = 63 := by omega
      rcases this with h | h <;> subst h
      · exact absurd d (by decide)
      · exact ⟨_, .head _, rfl⟩), (fun _ h => nomatch (h : _ ∈ [])), by decide, by decide, by decide⟩
/-- s1 holds the address of page 5 with the widest scope and the last ordering. -/
def Wat (h : Nat) (v : Word) : State := { Wst 16 h with gangs := (Wv v).gangs }
theorem witness_VaultAtomicsAndQueries_watom : ∀ h ∈ [0, 1], ∀ v ∈ [(0x5000 : Word), 0x5042000000005FF8, 0x1044000000005000],
    plainIn (Wat h v) WI [0] 1 ∧ slotRuns (Wat h v) WI 0 645 ∧ ((srcIn (Wat h v) WI 0 1).extractLsb' 60 3).toNat < 6 ∧
    ((srcIn (Wat h v) WI 0 1).extractLsb' 52 3).toNat < 5 ∧
    (watomOp ((srcIn (Wat h v) WI 0 1).extractLsb' 48 3).toNat = .cas → (srcIn (Wat h v) WI 0 1).extractLsb' 56 3 = 0) ∧
    ((srcIn (Wat h v) WI 0 1).extractLsb' 0 48).toNat % 8 = 0 ∧
    mappedPin (Wat h v) 0 (((srcIn (Wat h v) WI 0 1).extractLsb' 0 48).toNat / 4096) = some ⟨5, 1541, h, 4, true⟩ ∧
    (gangOf (Wat h v) 0).tctl.scopestrict = false ∧ (h ≠ 0 → (nameEntry (slabOf (Wat h v) 0) h).isSome = true) ∧
    queueFull (Wat h v) 0 (isWafer (Wat h v) 0 (gangOf (Wat h v) 0).dmem h) = false ∧
    (tabGet (Wat h v).gangs 0).isSome = true := fun h hh v hv => by
  simp only [List.mem_cons, List.not_mem_nil, or_false] at hh hv
  rcases hh with hh | hh <;> subst hh <;> rcases hv with hv | hv | hv <;> subst hv <;>
    exact ⟨by unfold plainIn; decide, runs _ rfl (by simp [guardHolds, predOf]) rfl, by decide, by decide, by decide, by decide,
      by decide +kernel, rfl, by decide, by decide, by decide⟩
def Wfull : State := Ws fun sl => { sl with requests := (List.range 16).map fun i => (i, ⟨0, i, 0, .issued⟩) }
theorem witness_VaultAtomicsAndQueries_queries : plainIn W WI (gangTiles W 0) 0 ∧ plainIn W WI [0] 0 ∧ (∀ d, slotRuns W WI 0 d) ∧
    (gangTiles W 0)[((srcIn W WI 0 0).extractLsb' 48 2).toNat]? = some 0 ∧ lowestFree (slabOf W 0).requests 16 0 ∧
    queueFull W 0 true = false := ⟨by unfold plainIn; decide, by unfold plainIn; decide, fun _ => runs_W _, by decide,
      ⟨by decide, rfl, fun j h => absurd h (Nat.not_lt_zero j)⟩, by decide⟩
theorem witness_VaultAtomicsAndQueries_full : slotRuns Wfull WI 0 648 ∧ plainIn Wfull WI [0] 0 ∧
    (gangTiles Wfull 0)[((srcIn Wfull WI 0 0).extractLsb' 48 2).toNat]? = some 0 ∧
    ∀ i < 16, (tabGet (slabOf Wfull 0).requests i).isSome = true :=
  ⟨runs_Ws _, by unfold plainIn; decide, by decide, by decide⟩

def copy0 : CopyOp := ⟨⟨0, 0, 0, false, 0, 0, 674, 0⟩, 0, 1, 0, 1, 0, 0, none, none, false, false, 0, 0⟩
/-- A copy of one beat from the last row of the own array to the first writable row of tile 1, which entry 0 names. -/
def Wk (a nb da : Nat) (cs : Tab CopyOp) : State :=
  { Wv (BitVec.ofNat 64 (2 ^ 22 + da)) with
    slabs := [(0, { slabOf W 0 with
      ports := [(1672, ⟨BitVec.ofNat 64 a, false⟩), (1673, ⟨BitVec.ofNat 64 nb, false⟩)], names := [(0, 1)], copies := cs })] }
def copyOk (s : State) : Prop :=
  let a := (slOpd s WI 0 672).val.toNat % 2 ^ 22
  let b := (slOpd s WI 0 673).val
  let da := (srcIn s WI 0 1).toNat % 2 ^ 22
  let nb := (b.extractLsb' 0 11).toNat
  plainIn s WI [0] 1 ∧ a % 64 = 0 ∧ da % 64 = 0 ∧ a + 64 * nb ≤ 2 ^ 22 ∧ da + 64 * nb ≤ 2 ^ 22 ∧ 0x5000 ≤ da ∧ 0 < nb ∧ nb ≤ 1024 ∧
    (nameEntry (slabOf s 0) ((srcIn s WI 0 1).extractLsb' 22 16).toNat).isSome = true
theorem runs_Wk {a nb da : Nat} {cs : Tab CopyOp} (d : Nat) : slotRuns (Wk a nb da cs) WI 0 d :=
  runs d rfl (by simp [guardHolds, predOf]) rfl
theorem witness_RouteOperations_copy : copyOk (Wk 0x3FFFC0 1 0x5000 []) ∧ copyOk (Wk 0x3F0000 1024 0x3F0000 []) ∧
    slotRuns (Wk 0x3FFFC0 1 0x5000 []) WI 0 674 ∧ lowestFree (slabOf (Wk 0x3FFFC0 1 0x5000 []) 0).copies 128 0 :=
  ⟨by unfold copyOk plainIn; decide, by unfold copyOk plainIn; decide, runs_Wk _,
    ⟨by decide, rfl, fun j h => absurd h (Nat.not_lt_zero j)⟩⟩
theorem witness_RouteOperations_full : let s := Wk 0x3FFFC0 1 0x5000 ((List.range 128).map fun i => (i, copy0))
    copyOk s ∧ slotRuns s WI 0 674 ∧ ∀ k < 128, (tabGet (slabOf s 0).copies k).isSome = true :=
  ⟨by unfold copyOk plainIn; decide, runs_Wk _, by decide +kernel⟩
/-- Entry 0 of the switch program takes the beats of N, the first port, from the issuing tile. -/
def Wsend : State := Ws fun sl => { sl with prog := ⟨1, 0, [(0, 0xB6D)], false⟩ }
theorem witness_RouteOperations_beats : vecPlain Wsend WI 0 ∧ (∀ d : BitVec 2, slotRuns Wsend WI 0 (680 + d.toNat)) ∧
    (∀ d : BitVec 2, ∀ u ∈ gangTiles Wsend 0, entryOsrc (entryNow Wsend u) d.toNat = 5) :=
  ⟨by unfold vecPlain; decide, fun _ => runs_Ws _, by decide⟩
theorem witness_RouteOperations_names : plainIn W WI (gangTiles W 0) 0 ∧ plainIn W WI [0] 0 ∧ slotRuns W WI 0 675 ∧
    slotRuns W WI 0 685 ∧ slotRuns W WI 0 686 ∧ slotRuns W WI 0 687 :=
  ⟨by unfold plainIn; decide, by unfold plainIn; decide, runs_W _, runs_W _, runs_W _, runs_W _⟩

/-- The last row of a copy and of a program that ends with the scratchpad; the last name entry, twice the same name, and none. -/
def Wland : State := Ws fun sl => { sl with
  copies := [(127, copy0)], pend := some ⟨slotOwner W WI 674, 4, 2 ^ 22 - 32, [], none⟩, names := [(62, 5), (63, 1), (61, 1)] }
theorem witness_RouteOperations_lands : ownerLive Wland (slotOwner W WI 674) = true ∧ tabGet (slabOf Wland 0).copies 127 = some copy0 ∧
    (slabOf Wland 0).pend = some ⟨slotOwner W WI 674, 4, 2 ^ 22 - 32, [], none⟩ ∧ 2 ^ 22 - 32 + 8 * 4 ≤ 2 ^ 22 ∧
    tabGet (slabOf Wland 0).names 61 = some 1 ∧ (∀ j < 61, tabGet (slabOf Wland 0).names j ≠ some 1) ∧
    ∀ k < 64, tabGet (slabOf Wland 0).names k ≠ some 2 := ⟨by decide, rfl, rfl, by decide, rfl, by decide +kernel, by decide +kernel⟩
/-- s1 names the last record, or the last record with the clear bit; b.opa and the record as given. -/
def Wbar (v o : Word) (r : BarRec) : State :=
  putBar { Wv v with slabs := [(0, { slabOf W 0 with ports := [(1704, ⟨o, false⟩)] })] } 0 511 r
theorem runs_Wbar {v o : Word} {r : BarRec} (d : Nat) : slotRuns (Wbar v o r) WI 0 d :=
  runs d rfl (by simp [guardHolds, predOf]) rfl
def bar0 (st : BitVec 4) (home : BitVec 16) : BarRec := ⟨false, home, st, 0, 0, 0, 0, 0⟩
theorem witness_BarrierOperations_init : (∀ o ∈ [(1 : Word), 0x10000], ∀ v ∈ [(511 : Word), 1023],
    let s := Wbar v o (bar0 0 0)
    let r := getBar s 0 ((srcIn s WI 0 1).toNat % 512)
    plainIn s WI [0] 1 ∧ slotRuns s WI 0 705 ∧ r.state ≠ 2 ∧ r.state ≠ 3 ∧ r.arr = 0 ∧ r.inb = 0 ∧ r.outb = 0 ∧
    (∀ e ∈ (slabOf s 0).relList, e.1 ≠ (srcIn s WI 0 1).toNat % 512) ∧
    ((srcIn s WI 0 1).getLsbD 9 = (v == 1023)) ∧ namesTile ((bOpa s WI).extractLsb' 16 16).toNat = true ∧
    (((bOpa s WI).extractLsb' 16 16).toNat ≠ 0 ∨ (bOpa s WI).extractLsb' 0 16 ≠ 0)) := fun o ho v hv => by
  simp only [List.mem_cons, List.not_mem_nil, or_false] at ho hv
  rcases ho with ho | ho <;> subst ho <;> rcases hv with hv | hv <;> subst hv <;>
    exact ⟨by unfold plainIn; decide, runs_Wbar _, by decide +kernel, by decide +kernel, by decide +kernel, by decide +kernel,
      by decide +kernel, fun _ h => absurd h List.not_mem_nil, by decide, by decide, by decide⟩
theorem witness_BarrierOperations_armed : let s := Wbar 511 0 (bar0 1 0)
    plainIn s WI [0] 1 ∧ (∀ d, slotRuns s WI 0 d) ∧ (getBar s 0 ((srcIn s WI 0 1).toNat % 512)).state = 1 ∧
    (getBar s 0 ((srcIn s WI 0 1).toNat % 512)).state ≠ 0 ∧
    ((getBar s 0 ((srcIn s WI 0 1).toNat % 512)).home.toNat ≠ 0 → (nameEntry (slabOf s 0)
      (getBar s 0 ((srcIn s WI 0 1).toNat % 512)).home.toNat).isSome = true) ∧
    queueFull s 0 (isWafer s 0 (gangOf s 0).dmem 0) = false :=
  ⟨by unfold plainIn; decide, fun _ => runs_Wbar _, by decide +kernel, by decide +kernel, fun h => absurd (by decide +kernel) h,
    by decide⟩
theorem witness_BarrierOperations_free : let s := Wbar 511 0 (bar0 0 0)
    plainIn s WI [0] 1 ∧ (∀ d, slotRuns s WI 0 d) ∧ (getBar s 0 ((srcIn s WI 0 1).toNat % 512)).state = 0 :=
  ⟨by unfold plainIn; decide, fun _ => runs_Wbar _, by decide +kernel⟩

/-- A record that completes, one that does not, and one that is FREE. -/
theorem witness_BarrierOperations_lands : ∀ st ∈ [(1 : BitVec 4), 2, 0], let s := putBar W 0 511 ⟨false, 0, st, 0, 0, 3, 3, 15⟩
    let r := getBar s 0 511
    s.memWf ∧ (r.state ≠ 0 ↔ st ≠ 0) ∧ r.home.toNat = 0 ∧ r.arr = r.exp ∧ r.inb = 0 ∧ r.outb = 0 ∧
    ownerLive s (slotOwner W WI 704) = true := by decide +kernel
/-- A beat of a copy of two that has delivered none, or one, and raises an event with its last. -/
theorem witness_BarrierOperations_beats : let own := slotOwner W WI 674
    let b : CopyBeat := ⟨own, 0, 0, 127, 0x6000, 0, some 511, none, true, false⟩
    let c (d : Nat) : CopyOp := ⟨own, 0, 0, 0x6000, 2, 2, d, some 511, none, true, false, 0, 0⟩
    let s (d : Nat) : State := { Ws (fun sl => { sl with gang := some 0, copies := [(127, c d)] }) with
      gangs := [(0, { gangOf W 0 with seq := .issuing })] }
    b.dst = 0 ∧ ({ b with dstBar := some 511, srcBar := none } : CopyBeat).dstBar = some 511 ∧ b.src = 0 ∧ b.srcBar = some 511 ∧
    tabGet (slabOf (s 0) b.src).copies b.num = some (c 0) ∧ (c 0).delivered + 1 < (c 0).nb ∧
    tabGet (slabOf (s 1) b.src).copies b.num = some (c 1) ∧ (c 1).nb ≤ (c 1).delivered + 1 ∧ (c 1).post = true ∧
    (slabOf (s 1) b.src).gang = some 0 ∧ takesEvents (s 1) 0 :=
  ⟨rfl, rfl, rfl, rfl, rfl, by decide, rfl, by decide, rfl, rfl, ⟨rfl, by decide, by decide⟩⟩
/-- A queue operation at an address, with a name of tile 1, a ring, a communicator of the gang and a descriptor. -/
def Wq (v : Word) : State :=
  let s : State := { Wv v with
    slabs := [(0, { slabOf W 0 with names := [(0, 1)], banks := [(1, 0), (31, 0)] })] }
  s
theorem runs_Wq {v : Word} (d : Nat) : slotRuns (Wq v) WI 0 d := runs d rfl (by simp [guardHolds, predOf]) rfl
theorem witness_QueueOperations_tokens : plainIn (Wq 0x5000) WI [0] 1 ∧ slotRuns (Wq 0x5000) WI 0 722 ∧
    slotRuns (Wq 0x5000) WI 0 723 ∧ reaches (Wq 0x5000) 0 true (srcIn (Wq 0x5000) WI 0 1).toNat 0 0x5000 ∧
    reaches (Wq 0x5000) 0 false (srcIn (Wq 0x5000) WI 0 1).toNat 0 0x5000 ∧
    holdsBank (Wq 0x5000) (gangOf (Wq 0x5000) 0).task 0 (0x5000 / 2 ^ 17) = true ∧
    queueFull (Wq 0x5000) 0 (isWafer (Wq 0x5000) 0 (gangOf (Wq 0x5000) 0).dmem 0) = false ∧ slotRuns (Wq 0x5000) WI 0 726 :=
  ⟨by unfold plainIn; decide, runs_Wq _, runs_Wq _, ⟨by decide, by decide, by decide, .inl ⟨by decide, rfl⟩⟩,
    ⟨by decide, by decide, by decide, .inl ⟨by decide, rfl⟩⟩, by decide, by decide, runs_Wq _⟩
theorem witness_QueueOperations_remote : plainIn (Wq 0x100007FFFF8) WI [0] 1 ∧ slotRuns (Wq 0x100007FFFF8) WI 0 722 ∧
    reaches (Wq 0x100007FFFF8) 0 true (srcIn (Wq 0x100007FFFF8) WI 0 1).toNat 1 0x3FFFF8 ∧
    queueFull (Wq 0x100007FFFF8) 0 (isWafer (Wq 0x100007FFFF8) 0 (gangOf (Wq 0x100007FFFF8) 0).dmem 1) = false :=
  ⟨by unfold plainIn; decide, runs_Wq _, ⟨by decide, by decide, by decide, .inr ⟨rfl, .inl rfl, by decide, by decide, by decide,
    by decide⟩⟩, by decide⟩
/-- A ring 0, and a communicator 0 whose one rank is the gang; the descriptor at 0x5000 is a broadcast of one FP32 word
onto itself. -/
def Wcoll : State :=
  let s : State := { Wq 0x5000 with
    phase := .service
    ctxs := [(0, { ctxOf W 0 with rings := [(0, ⟨⟨0, 4, 0, 1, 0, 0⟩, 0, 0, 0, 0, 0, []⟩)], comms := [(0, [(Config.moduleIndex, 0)])] })] }
  padPutWord (padPutWord (padPutWord s 0 0x5000 0x0000000100000403) 0 0x5008 0x6000) 0 0x5010 0x6000
theorem witness_QueueOperations_ringsAndCollectives : plainIn Wcoll WI [0] 1 ∧ (∀ d, slotRuns Wcoll WI 0 d) ∧
    queueFull Wcoll 0 true = false ∧ (tabGet (ctxOf Wcoll (gangOf Wcoll 0).ctx).rings ((slOpd Wcoll WI 0 720).val.toNat % 64)).isSome = true ∧
    (srcIn Wcoll WI 0 1).toNat = 0x5000 ∧
    tabGet (ctxOf Wcoll (gangOf Wcoll 0).ctx).comms ((slOpd Wcoll WI 0 720).val.toNat % 64) = some [(Config.moduleIndex, 0)] ∧
    collRank [(Config.moduleIndex, 0)] 0 = some 0 ∧
    collDescBad (BitVec.ofNat 512 (padRead Wcoll 0 0x5000 64)) (some 1) = false ∧
    collBufBad Wcoll (gangOf Wcoll 0).task 0 (BitVec.ofNat 512 (padRead Wcoll 0 0x5000 64)) 1 = none ∧
    (gangOf Wcoll 0).coll = none ∧ (tabGet Wcoll.gangs 0).isSome = true ∧ Wcoll.phase = .service :=
  ⟨by unfold plainIn; decide, fun _ => runs _ rfl (by simp [guardHolds, predOf]) rfl, by decide, by decide, by decide, rfl,
    by simp [collRank], by decide +kernel, by decide +kernel, rfl, by decide, rfl⟩
theorem witness_QueueOperations_take : (padPutWord W 0 0x5000 0).memWf ∧ (padWord (padPutWord W 0 0x5000 0) 0 0x5000).extractLsb' 0 32 = 0 ∧
    (padPutWord W 0 0x5000 0x50000000FFFFFFFF).memWf ∧
    (padWord (padPutWord W 0 0x5000 0x50000000FFFFFFFF) 0 0x5000).extractLsb' 0 32 ≠ 0 :=
  ⟨by decide +kernel, by decide +kernel, by decide +kernel, by decide +kernel⟩
theorem witness_LandingsReachTheirPlace : ownerLive W (slotOwner W WI 63) = true ∧
    ownerLive W { slotOwner W WI 63 with task := 7 } = false := by decide
/-- Slot 1023 has the tag of page 5, of region 0; page 6 has none; region 0 has a pin. -/
theorem witness_LandingsReachTheirPlace_tags : let s := Wst 1023 0
    let tag (n : Nat) : Word := BitVec.ofNat 64 (memReadN s.mem (0 * 2 ^ 22 + 8 * n) 8)
    s.memWf ∧ ((tag 1023).getLsbD 63 = true ∧ (tag 1023).toNat % 2 ^ 36 = 5) ∧ ((tag 1023).extractLsb' 52 6).toNat = 0 ∧
    (tag 16).getLsbD 63 = false ∧ ((tag 16).extractLsb' 52 6).toNat ≠ 63 ∧ pinsOf s 0 0 ≠ [] := by decide +kernel
theorem witness_LandingsReachTheirPlace_noTag : ∀ n < 1024, ¬ ((BitVec.ofNat 64 (memReadN W.mem (0 * 2 ^ 22 + 8 * n) 8)).getLsbD 63 = true ∧
    (BitVec.ofNat 64 (memReadN W.mem (0 * 2 ^ 22 + 8 * n) 8)).toNat % 2 ^ 36 = 5) := by
  have h : ∀ (n a : Nat), memReadN ([] : List Host.Cell) a n = 0 := fun n => by
    induction n with
    | zero => intro a; rfl
    | succ n ih => intro a; simp [memReadN, ih, memRead, tabGetD, tabGet]
  intro n _
  have e : W.mem = [] := rfl
  rw [e, h]; decide

/-! ### Statement of bundles and block ends -/

/-- Change the gang of a state with an issue of its own, at the end of a block. -/
def Gg (s : State) (f : Gang → Gang) : State := { s with gangs := [(0, f (gangOf s 0))] }
theorem end_W (f : Gang → Gang) : atBlockEnd (Gg W f) WI := ⟨rfl, by decide, rfl⟩
theorem sound_W (f : Block → Block) (h : (f Block.empty).trap = none) (x : (f Block.empty).xcol = false) :
    soundBlock (gangOf (Gg W fun g => { g with blk := f Block.empty }) 0) := ⟨h, fun y => absurd (x.symm.trans y.1) (by decide)⟩
/-- An exit, by its port and target. -/
def exitTo (p : Nat) (a : Word) (h : Bool) : State :=
  Gg W fun g => { g with handler := h, eret := 3, calls := [7], blk := { Block.empty with exit := some ⟨p, a, 0, 0, 0⟩ } }
theorem bare_exitTo (p : Nat) (a : Word) (h : Bool) : bareBlock (gangOf (exitTo p a h) 0) :=
  ⟨⟨rfl, fun y => Bool.noConfusion y.1⟩, rfl, rfl, rfl⟩
theorem witness_Bundles_open : let s : State := { Gg W fun g => { g with seq := .issuing, pc := 8191 } with issue := none }
    s.issue = none ∧ (gangOf s 0).seq = .issuing ∧ (gangOf s 0).pc = 8191 ∧
    bundleOffender (fetchBundle (ctxOf s (gangOf s 0).ctx) (gangOf s 0).pc) = none ∧
    hdrEnd (bundleHeader (fetchBundle (ctxOf s (gangOf s 0).ctx) (gangOf s 0).pc)) = true ∧ (ctxOf s (gangOf s 0).ctx).bps = [] :=
  ⟨rfl, rfl, rfl, by decide +kernel, by decide +kernel, rfl⟩
theorem witness_Bundles_inside : let s : State := { W with issue := some { WI with hdr := 0 } }
    s.issue = some { WI with hdr := 0 } ∧ (tabGet s.gangs 0).isSome = true ∧ hdrEnd ({ WI with hdr := 0 } : Issue).hdr = false :=
  ⟨rfl, rfl, by decide⟩
theorem witness_Bundles_trap : let s := Gg W fun g => { g with blk := { Block.empty with trap := some (1, 0, 258) } }
    atBlockEnd s WI ∧ (gangOf s 0).blk.trap = some (1, 0, 258) := ⟨end_W _, rfl⟩
theorem witness_Bundles_fallThrough : let s := Gg W fun g => { g with blk := Block.empty }
    atBlockEnd s WI ∧ bareBlock (gangOf s 0) ∧ noEvent (gangOf s 0) ∧ (gangOf s 0).blk.exit = none ∧
    (∀ l rest, (gangOf s 0).loops = l :: rest → l.last ≠ WI.pc) :=
  ⟨end_W _, ⟨⟨rfl, fun y => absurd y.1 (by decide)⟩, rfl, rfl, rfl⟩, .inl rfl, rfl, fun _ _ h => nomatch (h : [] = _ :: _)⟩
/-- A loop whose last bundle is in hand, with one iteration left. -/
def Wloop : State := Gg W fun g => { g with blk := Block.empty, loops := [⟨0, 0, 2, 0, 0x10⟩] }
theorem witness_Bundles_backEdge : atBlockEnd Wloop WI ∧ bareBlock (gangOf Wloop 0) ∧ noEvent (gangOf Wloop 0) ∧
    (gangOf Wloop 0).handler = false ∧ (gangOf Wloop 0).blk.exit = none ∧ (gangOf Wloop 0).loops = [⟨0, 0, 2, 0, 0x10⟩] ∧
    WI.pc = 0 ∧ (0 : BitVec 32).toNat + 1 < (2 : BitVec 32).toNat :=
  ⟨end_W _, ⟨⟨rfl, fun y => absurd y.1 (by decide)⟩, rfl, rfl, rfl⟩, .inl rfl, rfl, rfl, rfl, rfl, by decide⟩
theorem witness_Bundles_exits : (∀ p a h, atBlockEnd (exitTo p a h) WI ∧ bareBlock (gangOf (exitTo p a h) 0) ∧
      noEvent (gangOf (exitTo p a h) 0) ∧ (gangOf (exitTo p a h) 0).blk.exit = some ⟨p, a, 0, 0, 0⟩ ∧
      (gangOf (exitTo p a h) 0).calls = [7] ∧ (gangOf (exitTo p a h) 0).handler = h) ∧
    (8191 : Word).toNat ≤ 8191 ∧ [7].length < 16 :=
  ⟨fun p a h => ⟨⟨rfl, by decide, rfl⟩, bare_exitTo p a h, .inl rfl, rfl, rfl, rfl⟩, by decide, by decide⟩
/-- A pending event of the highest kind, which the mask takes; the handler at the last bundle. -/
def Wevt : State := Gg W fun g => { g with
  blk := Block.empty, tctl := { Tctl.reset with event := true, evm := 0x80 }, events := [⟨0, 0, 0x80⟩], e := [(6, ⟨8191, false⟩)] }
theorem witness_Bundles_event : atBlockEnd Wevt WI ∧ bareBlock (gangOf Wevt 0) ∧ (gangOf Wevt 0).tctl.event = true ∧
    (gangOf Wevt 0).handler = false ∧ (gangOf Wevt 0).blk.exit = none ∧ (∀ l rest, (gangOf Wevt 0).loops = l :: rest → l.last ≠ WI.pc) ∧
    pickEvent (gangOf Wevt 0).events (gangOf Wevt 0).tctl.evm = some 0x80 ∧ (tabGetD TV.zero (gangOf Wevt 0).e 6).val.toNat = 8191 :=
  ⟨end_W _, ⟨⟨rfl, fun y => absurd y.1 (by decide)⟩, rfl, rfl, rfl⟩, rfl, rfl, rfl, (fun _ _ h => nomatch (h : [] = _ :: _)),
    by decide, by decide⟩
/-- A wait, and a loop that begins at the same block end. -/
def Wwait : State := Gg W fun g => { g with blk := { Block.empty with waits := [.barwait 5], lop := some ⟨263, 2, 1, 0, 0⟩ } }
theorem witness_Bundles_wait : atBlockEnd Wwait WI ∧ soundBlock (gangOf Wwait 0) ∧ (gangOf Wwait 0).blk.exit = none ∧
    (gangOf Wwait 0).loops = [] ∧ (gangOf Wwait 0).blk.qp = 0 ∧ (gangOf Wwait 0).blk.waits ≠ [] ∧
    .cycalign ∉ (gangOf Wwait 0).blk.waits ∧ (gangOf Wwait 0).blk.lop = some ⟨263, 2, 1, 0, 0⟩ ∧ WI.pc + 1 ≤ (1 : Word).toNat :=
  ⟨end_W _, ⟨rfl, fun y => absurd y.1 (by decide)⟩, rfl, rfl, rfl, by decide, by decide, rfl, by decide⟩
/-- A pending loop operation, an exit and levels, at a bundle of index 0; the handler does not run, and no event is taken. -/
def Wlev (lop : Option LoopOp) (x : Option ExitRec) (ls : List LoopLevel) (col strict : Bool) : State := Gg W fun g => { g with
  blk := { Block.empty with lop := lop, exit := x, xcol := col }, loops := ls, tctl := { Tctl.reset with exitstrict := strict } }
def lev (last trips iter : Nat) : LoopLevel := ⟨0, last, BitVec.ofNat 32 trips, BitVec.ofNat 32 iter, 0xFFFF000000000001⟩
theorem witness_Bundles_loops : ∀ lop x ls col strict, let s := Wlev lop x ls col strict
    atBlockEnd s WI ∧ (gangOf s 0).blk.trap = none ∧ (gangOf s 0).blk.waits = [] ∧ (gangOf s 0).blk.qp = 0 ∧ noEvent (gangOf s 0) ∧
    (gangOf s 0).handler = false ∧ (gangOf s 0).blk.lop = lop ∧ (gangOf s 0).blk.exit = x ∧ (gangOf s 0).loops = ls ∧
    (gangOf s 0).blk.xcol = col ∧ (gangOf s 0).tctl.exitstrict = strict :=
  fun _ _ _ _ _ => ⟨⟨rfl, by decide, rfl⟩, rfl, rfl, rfl, .inl rfl, rfl, rfl, rfl, rfl, rfl, rfl⟩
/-- BRKL 7, 2 and 1 of one level; a level at its last iteration alone, over one that goes on at another bundle, and over one
that ends here; loops to the last bundle and beyond, with no iteration, and with six levels; an exit to the last bundle. -/
theorem witness_Bundles_levels : (7 : Nat) = 7 ∧ [lev 0 3 0].length < 2 ∧ 1 ≤ [lev 0 3 0].length ∧
    (∀ l rest, [lev 0 3 0].drop 1 = l :: rest → l.last ≠ WI.pc) ∧
    (∀ trips ∈ [0, 3], (lev 0 trips 2).last = WI.pc ∧ (lev 0 trips 2).trips.toNat ≤ (lev 0 trips 2).iter.toNat + 1 ∧
      (lev 0 trips 2).iter.toNat + 1 < 2 ^ 32) ∧ (∀ l rest, [lev 5 3 0] = l :: rest → l.last ≠ WI.pc) ∧
    (lev 0 9 1).last = WI.pc ∧ (lev 0 9 1).iter.toNat + 1 < (lev 0 9 1).trips.toNat ∧
    (8191 : Word).toNat ≤ 8191 ∧ WI.pc + 1 ≤ (8191 : Word).toNat ∧ 8191 < (8192 : Word).toNat ∧ (0 : Word).toNat < WI.pc + 1 ∧
    6 ≤ (List.replicate 6 (lev 5 3 0)).length ∧ (List.replicate 5 (lev 5 3 0)).length < 6 ∧
    (⟨258, 8191, 0, 0, 0⟩ : ExitRec).tgt.toNat ≤ 8191 :=
  ⟨rfl, by decide, by decide, (fun l rest h => nomatch (h : [] = l :: rest)), by decide, (fun l rest h => by
    obtain ⟨rfl, -⟩ := List.cons.inj h
    decide), by decide, by decide, by decide, by decide, by decide, by decide, by decide, by decide, by decide⟩
/-- A quiet point that a host's quiesce asked for. -/
def Wquiet : State := { Gg W fun g => { g with blk := { Block.empty with qp := 1 } } with
  ctxs := [(0, { ctxOf W 0 with quiesce := some (1, 100) })] }
theorem witness_Bundles_quiet : atBlockEnd Wquiet WI ∧
    bareBlock { gangOf Wquiet 0 with blk := { (gangOf Wquiet 0).blk with qp := 0 } } ∧ (gangOf Wquiet 0).blk.exit = none ∧
    (gangOf Wquiet 0).loops = [] ∧ quietBusy Wquiet 0 = false ∧ (gangOf Wquiet 0).blk.qp &&& requestKinds Wquiet 0 ≠ 0 :=
  ⟨⟨rfl, by decide, rfl⟩, ⟨⟨rfl, fun y => absurd y.1 (by decide)⟩, rfl, rfl, rfl⟩, rfl, rfl, by decide, by decide⟩

/-! ### Statements of the engines' events and of deliveries -/

def own0 : Owner := ⟨0, 1, 0, false, 0, 0, 0, 0⟩
/-- Operands in hand, with no memory listed. -/
def Wsl (x : Operand) (f : Slab → Slab) : State := { Ws f with issue := none, arg := x }
theorem wf_nil {s : State} (h : s.mem = []) (v : s.vault = []) : s.memWf := by
  unfold State.memWf; rw [h, v]; decide
def stage0 : StageOp := ⟨own0, 0, 5, 0, 0, true, [], 0, false, [], false⟩
def watom0 : WAtomOp := ⟨own0, 0, [0], .add, 1, 0, 0, 0, 0x5FF8, 0, 94207, 0⟩
def prog0 : PendProg := ⟨own0, 4, 0, [], none⟩
theorem witness_EngineEvents : let s := Wsl (.routineLanding 0) fun sl => { sl with
      mx := { sl.mx with busy := true, run := some run0 }, stage := [(1023, stage0)], pend := some prog0 }
    s.memWf ∧ s.arg = .routineLanding 0 ∧ tabGet (slabOf s 0).stage 1023 = some stage0 ∧ watom0.gva % 8 = 0 ∧
    (slabOf s watom0.home).cellErr = [] ∧ ordAcquires (ordTaken watom0.op 0 watom0.cmp watom0.ordc watom0.ford) = false ∧
    (slabOf s 0).pend = some prog0 ∧
    progBad 0 (gangOf s prog0.own.gang).dmem prog0.p prog0.addr (takeEffect (slabOf s 0).prog (tileCyc s 0).toNat) prog0.entries = false :=
  ⟨wf_nil rfl rfl, rfl, rfl, by decide, rfl, by decide, rfl, by decide +kernel⟩
theorem witness_EngineEvents_watom : ownerLive W { watom0.own with task := (gangOf W 0).task } = true ∧
    atomNew .cas 0 1 2 = none ∧ (atomNew .add 0 1 0).isSome = true := by decide
theorem witness_EngineEvents_badProgram : let s := Wsl (.routesetCheck 0) fun sl => { sl with pend := some { prog0 with p := 3 } }
    (slabOf s 0).pend = some { prog0 with p := 3 } ∧
    progBad 0 (gangOf s prog0.own.gang).dmem 3 prog0.addr (takeEffect (slabOf s 0).prog (tileCyc s 0).toNat) prog0.entries = true :=
  ⟨rfl, by decide⟩
/-- The program in loading is of the event's owner and is checked with no other slab's. -/
theorem witness_EngineEvents_loading : let s : State := { Wsl (.routesetCheck 0) fun sl => { sl with pend := some prog0 } with own := some own0 }
    s.own = some own0 ∧ own0.gang = 0 ∧ loadingTiles s own0 = [0] ∧ (slabOf s 0).pend = some prog0 ∧ prog0.t0 = none ∧
    ({ prog0 with t0 := some 5 } : PendProg).t0 = some 5 := ⟨rfl, rfl, by decide, rfl, rfl, rfl⟩
/-- The line of a vault atomic with no entry and no room, and with an entry. -/
theorem witness_EngineEvents_full : let w : WAtomOp := { watom0 with frame := 5 }
    let line := vaultLineKey w.home w.frame (w.gva % 4096 / 64)
    undoFull (Wrow stageW [] 0) w.own.ctx w.home w.frame (w.gva % 4096 / 64) = true ∧ atomNew w.op 0 w.t w.cmp ≠ none ∧
    undoFull (Wrow stageW [(line, 0)] 0) w.own.ctx w.home w.frame (w.gva % 4096 / 64) = false ∧
    (∃ e ∈ (ctxOf (Wrow stageW [(line, 0)] 0) w.own.ctx).undo, e.1 = line) ∧ w.gva % 8 = 0 :=
  ⟨by decide, by decide, by decide, ⟨_, .head _, rfl⟩, by decide⟩
/-- Word 7 of a line with two wrong cells, and with one. -/
theorem witness_EngineEvents_cells : (∀ i < 8, (wrongCells (slabOf W 0) 94207 63 i).length ≤ 1) ∧
    2 ≤ (wrongCells { Slab.fresh with cellErr := [(94207, 63, 448), (94207, 63, 575)] } 94207 63 7).length ∧
    (∀ i < 8, (wrongCells { Slab.fresh with cellErr := [(94207, 63, 448), (94207, 63, 447)] } 94207 63 i).length ≤ 1) := by decide
/-- A tile with no gang whose context runs. -/
theorem witness_EngineEvents_idle : mayInject { Wc (fun k => { k with st := .running }) with
    slabs := [(0, { slabOf W 0 with gang := none, holder := some (0, (ctxOf W 0).gen) })] } 0 :=
  ⟨fun g h => (nomatch (h : none = some g)), fun _ c h => by
    obtain rfl : 0 = c := Option.some.inj h
    decide⟩
def item0 (k : ItemKind) : Item := ⟨own0, k, 1, 0, 0⟩
theorem witness_EngineEvents_sends : ∀ k ∈ [ItemKind.arrival 511 0 true, .token 0x5000 0 false 0, .softEvent 7, .align, .watom watom0,
      .watom { watom0 with ordc := 3 }, .ring 0 63 7, .coll 0 0 0 1, .pageReq 0 0 15 5],
    let s := Wsl (.asyncItemSend 0 false) fun sl => { sl with injD := [item0 k] }
    mayInject s 0 ∧ (injQueue s 0 false).find? (mayLeave s 0) = some (item0 k) ∧ s.arg = .asyncItemSend 0 false := fun k h => by
  simp only [List.mem_cons, List.not_mem_nil, or_false] at h
  rcases h with h | h | h | h | h | h | h | h | h <;> subst h <;> exact ⟨⟨fun g h => by
    obtain rfl : 0 = g := Option.some.inj h
    decide, fun h => nomatch h⟩, by decide +kernel, rfl⟩
theorem witness_EngineEvents_releasesAndCopies : let s := Wsl (.asyncItemSend 0 false) fun sl => { sl with
      releases := [(1, 511, 0, false)] }
    let c := Wsl (.asyncItemSend 0 false) fun sl => { sl with copies := [(127, copy0)] }
    (injQueue s 0 false).find? (mayLeave s 0) = none ∧
    ((slabOf s 0).releases.find? fun r => r.2.2.2 = false) = some (1, 511, 0, false) ∧
    (injQueue c 0 false).find? (mayLeave c 0) = none ∧ ((slabOf c 0).releases.find? fun r => r.2.2.2 = false) = none ∧
    nextCopy (slabOf c 0) c.now false = some (127, copy0) := ⟨rfl, rfl, rfl, rfl, by decide⟩
theorem witness_EngineEvents_remote : ∀ x : RemoteAccess, (Wsl (.remoteAccessArrival x) id).arg = .remoteAccessArrival x := fun _ => rfl

/-- A barrier record of tile 0, and operands of an event. -/
def Wdb (x : Operand) (n : Nat) (r : BarRec) : State := { putBar W 0 n r with issue := none, arg := x }
theorem witness_Deliveries_barriers : let s := Wdb (.arrivalDelivery 0 1 511 0 false) 511 ⟨false, 0, 1, 0, 0, 0, 2, 0⟩
    let h := Wdb (.releaseDelivery 0 1 511 1) 511 ⟨false, 1, 2, 0, 0, 0, 2, 0⟩
    s.memWf ∧ (getBar s 0 511).state ≠ 0 ∧ (getBar s 0 511).home.toNat = 0 ∧ 0 = (getBar s 0 511).gen ∧
    (getBar s 0 511).arr ≠ (getBar s 0 511).exp ∧ (slabOf s 0).relList.length < 8192 ∧ h.memWf ∧ (getBar h 0 511).state = 2 ∧
    (getBar h 0 511).home.toNat = 1 := by decide +kernel
/-- Gang 0 runs a task of two gangs in a running context with a ring, a page of tile 1, and an issued page request. -/
def ring0 : HostRing := ⟨⟨0, 4, 0, 1, 0, 0⟩, 0, 0, 0, 1, 0, []⟩
def task0 : Task := ⟨0, .running, 0, 0, 0, [(0, 1, 0), (1, 1, 0)], 1, 0, false, 0, [], 0, 0, 0, 0, none, none, none, 0, []⟩
def ptes0 (home : Nat) : Tab Word :=
  [(0, 0x8000000000000001), (512, 0x8000000000000002), (1024, 0x8000000000000003),
   (1541, BitVec.ofNat 64 (2 ^ 63 + 2 ^ 62 + 2 ^ 59 + home * 2 ^ 20 + 4))]
def Wrun (x : Operand) (f : Gang → Gang) (r : List (Nat × PageReq)) : State := { W with
  issue := none, arg := x, phase := .service, gangs := [(0, f { gangOf W 0 with seq := .issuing, task := 1 })],
  tasks := [(1, task0)],
  ctxs := [(0, { ctxOf W 0 with st := .running, rings := [(63, ring0)], ptes := ptes0 0, comms := [(0, [(Config.moduleIndex, 0), (Config.moduleIndex, 1)])] })],
  slabs := [(0, { slabOf W 0 with gang := some 0, requests := r })] }
theorem witness_Deliveries_events : let s := Wrun (.tokenDelivery 0 1 0x5000 0 true) id []
    s.memWf ∧ (slabOf s 0).gang = some 0 ∧ takesEvents s 0 ∧ (slabOf s 1).gang = none ∧
    tabGet (ctxOf s 0).rings 63 = some ring0 ∧ ring0.epoch = 0 ∧ ring0.pending ≠ 0 ∧ ring0.set.count ≤ ring0.pending + 1 ∧
    ringUsed ring0 < 2 ^ ring0.set.logsize :=
  ⟨wf_nil rfl rfl, rfl, ⟨rfl, by decide, by decide⟩, rfl, rfl, rfl, by decide, by decide, by decide⟩
theorem witness_Deliveries_fullRing : 2 ^ ({ ring0 with tail := 16 } : HostRing).set.logsize ≤ ringUsed { ring0 with tail := 16 } := by
  decide
theorem witness_Deliveries_alignment : let s := Wrun (.alignmentArrival 0 1) id []
    (tabGet s.gangs 0).isSome = true ∧ 0 ∈ taskGangs s (gangOf s 0).task ∧
    (∃ h ∈ taskGangs s (gangOf s 0).task, h ≠ 1 ∧ ∀ a ∈ (gangOf s 0).aligned, a.1 ≠ h) ∧ s.arg = .alignmentArrival 0 1 :=
  ⟨rfl, by decide, ⟨0, by decide, by decide, fun a h => absurd h List.not_mem_nil⟩, rfl⟩
/-- Page 5 is at home at tile 0, whose slab the context holds; page 4 is not. -/
theorem witness_Deliveries_requests : ∀ v ∈ [4, 5], let s : State := { Wrun (.pageRequestArrival 0 0 0 15 v) id [] with
      slabs := [(0, { slabOf W 0 with
        gang := some 0, holder := some (0, 0), requests := [(15, ⟨0, 15, v, .issued⟩)], pins := [(63, [⟨5, 1541, 1, 3, true⟩])] })] }
    findReq (slabOf s 0) 15 = some (15, ⟨0, 15, v, .issued⟩) ∧ homedAt (ctxOf s 0) v 0 = (v == 5) ∧ (ctxOf s 0).gen = 0 ∧
    holderOf s 0 = some 0 ∧ walk (ctxOf s 0) 5 = some ⟨0, 1541, 0, 4, true, 0⟩ ∧ ⟨5, 1541, 1, 3, true⟩ ∈ pinsOf s 0 63 := fun v h => by
  simp only [List.mem_cons, List.not_mem_nil, or_false] at h
  rcases h with h | h <;> subst h <;> exact ⟨by decide, by decide +kernel, rfl, by decide, by decide +kernel, by decide⟩
theorem witness_Deliveries_contributions :
    let s := Wrun (.collContributionArrival 0 0 0 1) (fun g => { g with coll := some ⟨0, 0, 1, 0⟩ }) []
    ((collGangs s 0 0 1).find? fun e => e.2.rank = 0) = some (0, ⟨0, 0, 1, 0⟩) ∧
    tabGet (ctxOf s 0).comms 0 = some [(Config.moduleIndex, 0), (Config.moduleIndex, 1)] ∧ (ctxOf s 0).colls = [] :=
  ⟨rfl, rfl, rfl⟩

/-! ### Statements of waits, tasks and dispatch -/

/-- Gang 0 waits for one thing. -/
def Wwt (x : Operand) (w : WaitKind) (f : Gang → Gang) : State :=
  Wrun x (fun g => f { g with seq := .waiting, waits := [w] }) []
theorem waits_Wwt (x : Operand) (w : WaitKind) : waitsFor (Wwt x w id) 0 w := ⟨rfl, rfl, rfl⟩
theorem witness_Waits_event : let s := Wwt (.waitevComplete 0) (.waitev 0x80) fun g => { g with events := [⟨0, 0, 0x80⟩] }
    waitsFor s 0 (.waitev 0x80) ∧ (0x80 : BitVec 8) ≠ 0 ∧ pickEvent (gangOf s 0).events 0x80 = some 0x80 ∧
    waitsFor (Wwt (.waitevComplete 0) (.waitev 1) id) 0 (.waitev 1) ∧
    pickEvent (gangOf (Wwt (.waitevComplete 0) (.waitev 1) id) 0).events 1 = none :=
  ⟨⟨rfl, rfl, rfl⟩, by decide, by decide, waits_Wwt _ _, rfl⟩
theorem witness_Waits_others : waitsFor (Wwt (.cycwaitComplete 0) (.cycwait 0) id) 0 (.cycwait 0) ∧
    waitsFor (Wwt (.cycalignComplete 0) .cycalign id) 0 .cycalign ∧
    waitsFor (Wwt (.sysAnswer 0 9) (.sys 1 2) id) 0 (.sys 1 2) ∧
    waitsFor (Wwt (.barwaitComplete 0 511) (.barwait 511) id) 0 (.barwait 511) ∧
    (getBar (Wwt (.barwaitComplete 0 511) (.barwait 511) id) 0 511).state ≠ 1 ∧
    (getBar (putBar (Wwt (.barwaitComplete 0 511) (.barwait 511) id) 0 511 (bar0 1 0)) 0 511).state = 1 ∧
    waitsFor (putBar (Wwt (.barwaitComplete 0 511) (.barwait 511) id) 0 511 (bar0 1 0)) 0 (.barwait 511) :=
  ⟨waits_Wwt _ _, waits_Wwt _ _, waits_Wwt _ _, waits_Wwt _ _, by decide +kernel, by decide +kernel, ⟨rfl, rfl, rfl⟩⟩
theorem witness_Waits_banks : let s := Wwt (.bankwaitComplete 0 false 0x80000000) (.bankwait false 0x80000000 false) id
    let h : State := { s with slabs := [(0, { slabOf s 0 with banks := [(31, 9)] })] }
    waitsFor s 0 (.bankwait false 0x80000000 false) ∧
    (∀ t ∈ gangTiles s 0, ∀ b < 32, (0x80000000 : BitVec 32).getLsbD b = true → tabGet (slabOf s t).banks b = none) ∧
    waitsFor h 0 (.bankwait false 0x80000000 false) ∧ (0x80000000 : BitVec 32).getLsbD 31 = true ∧
    tabGet (slabOf h 0).banks 31 = some 9 ∧ 9 ≠ (gangOf h 0).task ∧ 0 ∈ gangTiles h 0 :=
  ⟨waits_Wwt _ _, by decide, ⟨rfl, rfl, rfl⟩, by decide, rfl, by decide, by decide⟩
theorem witness_Waits_maps : let s := Wwt (.rgnmapComplete 0 true 63) (.rgnmap true 63 0) id
    let h : State := { s with agenda := [⟨5, 0, 0, none, .rgnmapWalkEnd, .rgnmapWalkEnd 0 63⟩] }
    waitsFor s 0 (.rgnmap true 63 0) ∧ (∀ t ∈ gangTiles s 0, mapPending s t 63 = false) ∧ waitsFor h 0 (.rgnmap true 63 0) ∧
    ∃ t ∈ gangTiles h 0, mapPending h t 63 = true :=
  ⟨waits_Wwt _ _, by decide, ⟨rfl, rfl, rfl⟩, ⟨0, by decide, by decide⟩⟩
theorem witness_Waits_collective : let s := Wwt (.collwaitComplete 0) .collwait fun g =>
      { g with coll := some ⟨0, 0, 1, 0⟩, collDone := some 5 }
    waitsFor s 0 .collwait ∧ (gangOf s 0).coll = some ⟨0, 0, 1, 0⟩ ∧ (gangOf s 0).collDone = some 5 :=
  ⟨⟨rfl, rfl, rfl⟩, rfl, rfl⟩
/-- Region 63 of one slot asks for page 5. -/
def Wmap : State :=
  padPutWord (padPutWord (Wrun (.rgnmapWalkEnd 0 63) id []) 0 0x2FC0 (BitVec.ofNat 64 (2 ^ 61 + 2 ^ 20 + 16))) 0 0x2FC8 0x5000
theorem witness_Tasks_walk : Wmap.memWf ∧ rgnNslot Wmap 0 63 = 1 ∧ rgnFtouch Wmap 0 63 = false ∧ rgnGva Wmap 0 63 / 4096 = 5 ∧
    walk (ctxOf Wmap (Wmap.own.getD ⟨0, 0, 0, false, 0, 0xFF, 0, Wmap.now⟩).ctx) 5 = some ⟨0, 1541, 0, 4, true, 0⟩ := by decide +kernel
theorem witness_Tasks_halt : let s := Wrun (.haltDrainComplete 0 1) id []
    unitOps s 0 1 = [] ∧ queuedAtom s 0 1 = false ∧ tabGet s.tasks 1 = some task0 ∧ (gangOf s 0).task = 1 ∧ (ctxOf s task0.ctx).invals = [] ∧
    ∃ e ∈ task0.gangs, e.1 ≠ 0 ∧ e.2.1 ≠ 3 := ⟨by decide, by decide, rfl, rfl, rfl, ⟨(1, 1, 0), by decide, by decide, by decide⟩⟩
def kernel0 : Kernel := ⟨0, 1, 1, false, [(1, 1)], 0, [], [], []⟩
def object0 : Object := ⟨[], 0, 1, 0, 0, [kernel0], [], [], [], []⟩
def taskP : Task := { task0 with st := .placed, gangs := [(0, 0, 0)], object := 1 }
theorem witness_Tasks_start : let s : State := { Wrun (.taskStart 1) id [] with gangs := [], tasks := [(1, taskP)], ctxs := [(0, { Ctx.free with
      st := .running, objects := [(1, object0)] })] }
    tabGet s.tasks 1 = some taskP ∧ taskP.st = .placed ∧ startable s 1 taskP = true ∧
    tabGet (ctxOf s taskP.ctx).objects taskP.object = some object0 ∧ object0.kernels[taskP.kernel]? = some kernel0 :=
  ⟨rfl, rfl, by decide, rfl, rfl⟩
theorem witness_Dispatch_best : let x : Cand := ⟨0, 0, 0, 0, 0, 0, 0, 0, none⟩
    bestCand [(x, 0)] = some (x, 0) := rfl
/-- The record at page 5, with its CRC-32, names kernel 0 of object 1 with its origin at tile 0. -/
def record0 : BitVec 512 := BitVec.ofNat 512 (2 ^ 16 + 0x4ED5869B * 2 ^ 480)
def row0 : TtRow := ⟨0, ⟨0x5000, 1023, true, false, 1, 0, none⟩, 0, 0, false, false⟩
def Wtt : State := { Wrun .none id [] with
  timeTable := [(255, row0)], vault := memWriteN [] 16384 64 record0.toNat,
  ctxs := [(0, { Ctx.free with st := .running, ptes := ptes0 0, objects := [(1, object0)] })] }

def isRec (x : Except (Nat × Option (BitVec 32)) (BitVec 512)) (r : BitVec 512) : Bool :=
  match x with | .ok q => decide (q = r) | .error _ => false
theorem witness_Dispatch_firing : Wtt.timeTable = [(255, row0)] ∧ row0.e.valid = true ∧ row0.active = false ∧ row0.held = false ∧
    ((0 : Int) - row0.e.offset) % row0.e.period = 0 ∧ ctxState Wtt row0.ctx = .running ∧
    isRec (checkRecord Wtt row0.ctx row0.e.record false) record0 = true :=
  ⟨rfl, rfl, rfl, rfl, by decide, rfl, by decide +kernel⟩

/-! ### Statements of commands and host accesses -/

/-- A context in a state, with one gang, and operands in hand. -/
def Wc0 (x : Operand) (st : CtxState) (f : Ctx → Ctx) : State :=
  let s := Wrun x id []
  { s with ctxs := [(0, f { ctxOf s 0 with st := st })] }
def create0 (n u : Nat) : CreateOps := ⟨some (List.replicate n 0), some u, some 0, some 0, some 0, some 0, some 0, 0, 0⟩
theorem witness_Commands_states : (∀ x, ctxState (Wc0 x .free id) 0 ∉ residentStates ∧ ctxState (Wc0 x .free id) 0 ∉ parkedStates ∧
      ctxState (Wc0 x .free id) 0 ∉ pageStates ∧ ctxState (Wc0 x .free id) 0 = .free) ∧
    (∀ x, ctxState (Wc0 x .running id) 0 ∉ [CtxState.free] ∧ ctxState (Wc0 x .running id) 0 ∉ [CtxState.dead]) ∧
    (∀ x st f, (∀ k : Ctx, (f k).st = k.st) → ctxState (Wc0 x st f) 0 = st ∧ (Wc0 x st f).arg = x) ∧ 255 < 256 :=
  ⟨fun _ => ⟨by simp [ctxState, Wc0, ctxOf, tabGetD, tabGet, residentStates], by simp [ctxState, Wc0, ctxOf, tabGetD, tabGet, parkedStates],
      by simp [ctxState, Wc0, ctxOf, tabGetD, tabGet, pageStates], rfl⟩,
    fun _ => ⟨by simp [ctxState, Wc0, ctxOf, tabGetD, tabGet], by simp [ctxState, Wc0, ctxOf, tabGetD, tabGet]⟩,
    fun x st f h => ⟨h _, rfl⟩, by decide⟩
theorem witness_Commands_create : createSound (create0 1 65536) ∧ createSound (create0 8 0) ∧ ¬ createSound (create0 9 0) ∧
    ¬ createSound (create0 0 0) ∧ ¬ createSound (create0 1 65537) :=
  ⟨⟨⟨_, rfl, by decide, by decide⟩, ⟨_, rfl, by decide⟩, rfl, rfl, rfl, rfl, rfl⟩,
    ⟨⟨_, rfl, by decide, by decide⟩, ⟨_, rfl, by decide⟩, rfl, rfl, rfl, rfl, rfl⟩,
    (fun h => by obtain ⟨⟨ks, h, _, g⟩, _⟩ := h; cases h; simp at g), (fun h => by obtain ⟨⟨ks, h, g, _⟩, _⟩ := h; cases h; simp at g),
    fun h => by obtain ⟨_, ⟨n, h, g⟩, _⟩ := h; cases h; omega⟩
theorem witness_Commands_runs : (ctxOf (Wc0 (.freeze 0) .quiescing id) 0).edge = none ∧
    (ctxOf (Wc0 (.resume 0) .frozen id) 0).needRollback = false ∧ (1 : BitVec 2) ≠ 0 ∧
    (BitVec.ofNat 64 (ctxCyc (Wc0 (.resume 0) .frozen id) 0)).toNat + 64 ≤ (64 : Word).toNat ∧ 2 ^ 16 = 2 ^ 16 ∧ (0x700000000 : Word).toNat % 2 ^ 32 = 0 := by decide
def image0 : Image :=
  ⟨0x4D495853, 1, true, true, true, false, false, 96, 66, 0, 0, 0, 0, false, Ctx.free,
    ⟨0, [], [], [], [], [], [], [], [], [], [], [], [], []⟩, [], [], 8⟩
theorem witness_Commands_image : ({ Wc0 (.restore 0 0 0) .free id with images := [image0] } : State).images[0]? = some image0 ∧
    imageCode { Wc0 (.restore 0 0 0) .free id with images := [image0] } { image0 with magic := 0 } 0 ≠ 0 := ⟨rfl, by decide⟩
/-- Gang 0 pins page 5; or none does. -/
def Wpin (x : Operand) (ps : Tab (List Pin)) : State :=
  let s := Wc0 x .running id
  { s with slabs := [(0, { slabOf s 0 with pins := ps })] }
theorem witness_Commands_pins : ¬ gangPins (Wpin (.pgInval 0 5 1 9) []) 0 5 1 ∧
    gangPins (Wpin (.pgInval 0 5 1 9) [(63, [⟨5, 1541, 0, 4, true⟩])]) 0 5 1 ∧
    ¬ gangPins (Wpin (.pgInval 0 6 1 9) [(63, [⟨5, 1541, 0, 4, true⟩])]) 0 6 1 ∧
    ctxState (Wpin (.pgInval 0 5 1 9) []) 0 ∈ pageStates := by unfold gangPins; decide +kernel
theorem witness_Commands_migrate : let s := Wpin (.pgMigrate 0 5 1 0xFFFF 0 9) []
    s.memWf ∧ namesTile 1 = true ∧ walk (ctxOf s 0) 5 = some ⟨0, 1541, 0, 4, true, 0⟩ ∧
    pageSpan (ctxOf s 0) 5 ⟨0, 1541, 0, 4, true, 0⟩ = (5, 1) ∧ ¬ gangPins s 0 5 1 ∧ idleTiles s 0 = [] ∧
    freeRun s 1 1 = some 0 := by
  unfold gangPins; decide +kernel
theorem witness_Commands_answer : let s : State := { Wc0 (.pgAnswer 0 15 0 1) .running id with
      slabs := [(0, { slabOf W 0 with gang := some 0, requests := [(15, ⟨0, 15, 5, .hostPending⟩)] })] }
    namedReq s 0 (ctxOf s 0).gen 15 = some (0, 15, ⟨0, 15, 5, .hostPending⟩) ∧ namedReq s 0 (ctxOf s 0).gen 14 = none ∧
    namedReq s 0 ((ctxOf s 0).gen + 1) 15 = none ∧ ctxState s 0 ∈ pageStates := by decide +kernel
theorem witness_Commands_tables : (Wc0 .none .quiesced id).phase = .service ∧
    ctxState (Wc0 .none .quiesced id) 0 ∈ [CtxState.loading, .ready, .quiesced] ∧ [((0 : Nat), (0 : Nat))].Nodup ∧ namesTile 0 = true ∧
    ∀ r, tabGet (Wc0 .none .quiesced id).timeTable 255 = some r → r.e.valid = false ∨ r.ctx = 0 :=
  ⟨rfl, by decide, by decide, by decide, fun r h => nomatch (h : none = some r)⟩
theorem witness_Commands_phases : (Wc0 .none .frozen id).phase = .service ∧ State.reset.phase ≠ .merging ∧ State.reset.phase ≠ .service ∧
    ∀ n ∈ [1, 65535], ∀ m, (⟨0, 0, true, false, 1, 0, some n⟩ : TimeEntry).gran = some m → 1 ≤ m ∧ m ≤ 65535 := by
  refine ⟨rfl, by decide, by decide, fun n hn m h => ?_⟩
  obtain rfl : n = m := Option.some.inj h
  simp only [List.mem_cons, List.not_mem_nil, or_false] at hn
  omega

theorem witness_HostPort_mailbox : (∀ x st, (tabGet (Wc0 x st id).gangs 0).isSome = true ∧ (gangOf (Wc0 x st id) 0).seq ≠ .idle ∧
    ctxState (Wc0 x st id) (gangOf (Wc0 x st id) 0).ctx = st ∧ tabGet (Wc0 x st id).gangs 1 = none) :=
  fun _ _ => ⟨rfl, by simp [Wc0, Wrun, gangOf, tabGetD, tabGet], rfl, rfl⟩
theorem witness_HostPort_doorbell : let s := Wrun (.doorbellWrite 3 0 9) (fun g => { g with tctl := { g.tctl with event := true } }) []
    (slabOf s 0).gang = some 0 ∧ takesEvents s 0 ∧ (gangOf s 0).tctl.event = true ∧ (slabOf s 1).gang = none ∧
    (gangOf (Wrun (.doorbellWrite 3 0 9) id []) 0).tctl.event = false :=
  ⟨rfl, ⟨rfl, by decide, by decide⟩, rfl, rfl, rfl⟩
/-- Window 255 opens page 5, whose line 63 has an undo entry. -/
def Wwin (x : Operand) (w : Bool) : State :=
  { Wc0 x .running (fun k => { k with undo := [(20416, 0)], ptes := if w then k.ptes else tabPut k.ptes 1541 0xC000000000000004 }) with
    windows := [(255, (0, 0, true))] }
theorem witness_HostPort_window : let s := Wwin (.hostWindowWrite 255 0x5FFF [7]) true
    s.memWf ∧ tabGet s.windows 255 = some (0, 0, true) ∧ walk (ctxOf s 0) 5 = some ⟨0, 1541, 0, 4, true, 0⟩ ∧
    (0x5FFF : Nat) / 4096 = 5 ∧ 0x5FFF % 64 + [(7 : Byte)].length ≤ 64 ∧ (∃ e ∈ (ctxOf s 0).undo, e.1 = vaultKey 0 4 (0x5FFF % 4096 / 64 * 64)) ∧
    walk (ctxOf (Wwin (.hostWindowWrite 255 0x5FFF [7]) false) 0) 5 = some ⟨0, 1541, 0, 4, false, 0⟩ := by decide +kernel
theorem witness_HostPort_leaf : ∀ l < 4, let k := ctxOf (Wc0 (.hostLeafWrite 0 l 0x5000 0) .loading id) 0
    let k' : Ctx := { k with ptes := tabPut k.ptes 1541 0xC000800000000004 }
    let key := [1541, 1024, 512, 0].getD l 0
    pteKey k l 5 = some key ∧ pinnedBelow k l (tabGetD 0 k.ptes key) = false ∧
    pteKey k' l 5 = some key ∧ pinnedBelow k' l (tabGetD 0 k'.ptes key) = true ∧ k'.openLeaves = [] := by
  decide +kernel
/-- A pinned leaf that an invalidation has opened. -/
theorem witness_HostPort_open : let k : Ctx := { ctxOf (Wc0 .none .loading id) 0 with ptes := tabPut (ptes0 0) 1541 0xC000800000000004, openLeaves := [1541] }
    pteKey k 0 5 = some 1541 ∧ pinnedBelow k 0 (tabGetD 0 k.ptes 1541) = true ∧ pteLeaf (tabGetD 0 k.ptes 1541) = true ∧
    1541 ∈ k.openLeaves := by decide +kernel
/-- No table stands where no entry above names one. -/
theorem witness_HostPort_noTable : pteKey Ctx.free 2 5 = none ∧ pteKey Ctx.free 4 5 = none := by decide

/-! ### Statements of the service controller's events -/

theorem witness_Service_heartbeat : let s := Wrun (.heartbeat 0) id []
    (tabGet s.gangs 0).isSome = true ∧ (gangOf s 0).seq = .issuing ∧ ctxState s (gangOf s 0).ctx = .running ∧ runsFree s 0 :=
  ⟨rfl, rfl, rfl, ⟨rfl, rfl, rfl⟩⟩
theorem witness_Service_deadline : let s : State := { Wwt (.heartbeat 0) (.cycwait 5) id with now := 1 }
    let t : State := { s with ctxs := [(0, { ctxOf s 0 with ops := { createOpsAbsent with waitdl := some 1 } })] }
    (gangOf t 0).waits = [.cycwait 5] ∧ runsFree t 0 ∧ (ctxOf t 0).ops.waitdl = some 1 ∧ 1 ≤ t.now - (gangOf t 0).waitStart :=
  ⟨rfl, ⟨rfl, rfl, rfl⟩, rfl, by decide⟩
theorem witness_Service_timeout : let s : State := { Wrun (.heartbeatTimeout 0) id [] with now := 2 ^ 20 + 4096 }
    runsFree s 0 ∧ (gangOf s 0).lastBeat + (2 ^ 20 + 4096) ≤ s.now ∧
    ({ s with now := 5 } : State).now < (gangOf s 0).lastBeat + (2 ^ 20 + 4096) := ⟨⟨rfl, rfl, rfl⟩, by decide, by decide⟩
theorem witness_Service_beacon : let s := Wrun (.beaconReceive 0 0 0) id []
    s.phase = .service ∧ (tileCyc s 0 - ((0 : Word) + BitVec.ofNat 64 0)).toInt = 0 ∧
    (tileCyc s 0 - ((-32767 : Word) + BitVec.ofNat 64 0)).toInt = 32767 ∧
    (tileCyc s 0 - ((32768 : Word) + BitVec.ofNat 64 0)).toInt = -32768 ∧ (slabOf s 0).gang = some 0 ∧
    (tabGet s.gangs 0).isSome = true ∧ (gangOf s 0).seq = .issuing ∧ (gangOf s 0).tst.drift = false ∧ (slabOf s 1).gang = none := by
  decide +kernel
def sampler0 : SampleSt := ⟨⟨10, none, 4, 0⟩, 0, 0, 0⟩
theorem witness_EngineEvents_sampler : let s := Wc0 (.ringHeadAdvance 0 64 5) .running fun k => { k with sampler := some sampler0 }
    tabGet (ctxOf s 0).rings 64 = none ∧ (ctxOf s 0).sampler = some sampler0 := ⟨rfl, rfl⟩
theorem witness_Service_sample : let s := Wc0 (.sampleTick 0) .running fun k => { k with sampler := some sampler0 }
    (ctxOf s 0).sampler = some sampler0 ∧ sampler0.set.rect = none ∧ ctxGangs s 0 = [0] ∧ ctxState s 0 = .running ∧
    (ctxOf s 0).resumeAt = none ∧ ¬ 2 ^ sampler0.set.logsize ≤ sampleUsed sampler0 ∧
    2 ^ sampler0.set.logsize ≤ sampleUsed { sampler0 with tail := 16 } :=
  ⟨rfl, rfl, rfl, rfl, rfl, by decide, by decide⟩
theorem witness_Service_breakpoints : let s := Wc0 (.breakpointHit 0 7 0) .running fun k => { k with bps := [(7, ⟨1, 0xFFFF, 0, 1⟩)] }
    ctxState s 0 = .running ∧ (ctxOf s 0).resumeAt = none ∧ (ctxOf s 0).edge = none ∧
    tabGet (ctxOf s 0).bps 7 = some ⟨1, 0xFFFF, 0, 1⟩ ∧ (0 : Word) = BitVec.ofNat 64 (ctxCyc s 0) ∧ (2 : BitVec 2) ≠ 1 ∧ 1 < 2 :=
  ⟨rfl, rfl, rfl, rfl, rfl, by decide, by decide⟩
theorem witness_Service_step : let s := Wc0 (.stepStopEdge 0) .running fun k => { k with stepEdge := some W.now }
    ctxState s 0 = .running ∧ (ctxOf s 0).edge = none ∧ (ctxOf s 0).stepEdge = some s.now := ⟨rfl, rfl, rfl⟩
def inval0 : Inval := ⟨5, 1, [0], [], [], 0, none, false, false⟩
def fault0 (c : Nat) : FaultRec := ⟨c, 0, 0, true, false, false, false, 0, 0, 0, 0, 0, 0, 0, 0, 0, 0, 0⟩
def Wcx (x : Operand) (st : CtxState) (f : Ctx → Ctx) : State := Wc0 x st f
theorem witness_Service_freeze : let s := Wc0 (.freezeEdge 0) .running fun k => { k with edge := some W.now }
    let h := Wc0 (.freezeEdge 0) .running fun k => { k with edge := some W.now, faults := [fault0 14] }
    s.agenda = W.agenda ∧ noFillDue W ∧ ctxState s 0 = .running ∧
    (ctxOf s 0).resumeAt = none ∧ (ctxOf s 0).edge = some s.now ∧ (ctxOf s 0).waferStop = false ∧
    (ctxOf s 0).needRollback = false ∧ (ctxOf s 0).faults = [] ∧ (ctxOf h 0).faults = [fault0 14] ∧ (fault0 14).primary = true ∧
    (fault0 14).cls < 15 ∧ h.dumpQueue = [] ∧ (ctxOf h 0).mustDump = false :=
  ⟨rfl, (fun e h => by
      have h : e ∈ State.reset.agenda := h
      simp only [State.reset, List.mem_cons, List.not_mem_nil, or_false] at h
      subst h; intros; exact ⟨by simp, by simp, by simp⟩), rfl, rfl, rfl, rfl, rfl, rfl, rfl, rfl, by decide, rfl, rfl⟩
/-- An invalidation whose bound has expired while its context ran. -/
theorem witness_Service_freezeInval :
    let h := Wc0 (.freezeEdge 0) .running fun k => { k with
      edge := some W.now, faults := [fault0 20], invals := [{ inval0 with expired := true }] }
    (ctxOf h 0).faults = [fault0 20] ∧ (fault0 20).primary = true ∧ (fault0 20).cls = 20 ∧ (ctxOf h 0).mustDump = false ∧
    (ctxOf h 0).invals = [{ inval0 with expired := true }] ∧ inval0.told = false ∧ ctxState h 0 = .running ∧
    (ctxOf h 0).edge = some h.now ∧ (ctxOf h 0).needRollback = false := ⟨rfl, rfl, rfl, rfl, rfl, rfl, rfl, rfl, rfl⟩
theorem witness_Service_errors : let e : MemError := ⟨1, some 0, 0, 0, 0, 0, 0⟩
    let s := Wc0 (.uncorrectableErrorDetect e) .running id
    e.ctx = some 0 ∧ e.cause ≠ 0 ∧ ({ e with cause := 0 } : MemError).cause = 0 ∧ runsFree s 0 ∧
    ({ e with ctx := none } : MemError).ctx = none ∧ (ctxOf s 0).edge = none :=
  ⟨rfl, by decide, rfl, ⟨rfl, rfl, rfl⟩, rfl, rfl⟩
def boundary0 : Boundary := ⟨0, [], [], [], [], [], [], [], [], [], [], [], [], []⟩
theorem witness_Service_rollback : let s := Wc0 (.rollback 0) .frozen fun k => { k with
      needRollback := true, boundary := some boundary0, replays := 3 }
    ctxState s 0 = .frozen ∧ (ctxOf s 0).needRollback = true ∧ (ctxOf s 0).boundary = some boundary0 ∧ (ctxOf s 0).replays < 4 ∧
    boundaryTaken s 0 boundary0 = false ∧ boundary0.queues = [] ∧ s.dumpQueue = [] ∧ s.phase ≠ .outOfService ∧
    ({ s with phase := .outOfService } : State).phase = .outOfService :=
  ⟨rfl, rfl, rfl, by decide, by decide, rfl, rfl, by decide, rfl⟩
/-- The boundary's gang stood where a task of another context runs now. -/
theorem witness_Service_rollbackWaits : let b : Boundary := { boundary0 with gangs := [(0, gangOf W 0)] }
    let s : State := { Wc0 (.rollback 0) .frozen fun k => { k with needRollback := true, boundary := some b } with
      tasks := [(1, { task0 with ctx := 1 })], gangs := [(0, { gangOf W 0 with seq := .issuing, task := 1, ctx := 1 })] }
    (ctxOf s 0).boundary = some b ∧ boundaryTaken s 0 b = true ∧ ctxState s 0 = .frozen ∧ (ctxOf s 0).needRollback = true ∧
    (ctxOf s 0).replays < 4 := by decide
theorem witness_Service_replay : let s := Wc0 (.replayRequest 0) .running fun k => { k with ops := { createOpsAbsent with replayint := some 1 } }
    let t : State := { s with now := 1 }
    ctxState t 0 = .running ∧ (ctxOf t 0).replayReq = false ∧ (ctxOf t 0).ops.replayint = some (0 + 1) ∧
    (ctxOf t 0).lastBoundary + 0 + 1 ≤ t.now := ⟨rfl, rfl, rfl, by decide⟩
/-- A context with no task, asked for a boundary and for a quiesce; and one whose gang issues. -/
def Wcut (x : Operand) (st : CtxState) : State :=
  { Wc0 x st fun k => { k with replayReq := true, quiesce := some (1, 0), replayEnd := true } with tasks := [], gangs := [], agenda := [] }
theorem witness_Service_cuts : ctxState (Wcut (.replayBoundaryCut 0) .running) 0 = .running ∧
    (ctxOf (Wcut (.replayBoundaryCut 0) .running) 0).replayReq = true ∧ atCut (Wcut (.replayBoundaryCut 0) .running) 0 2 ∧
    ctxState (Wcut (.quiesceCut 0) .quiescing) 0 = .quiescing ∧ (ctxOf (Wcut (.quiesceCut 0) .quiescing) 0).quiesce = some (1, 0) ∧
    atCut (Wcut (.quiesceCut 0) .quiescing) 0 1 ∧ ¬ atCut (Wc0 (.quiesceCut 0) .quiescing id) 0 3 ∧
    (ctxOf { Wcut (.replayBoundaryCut 0) .running with ctxs := [(0, { ctxOf W 0 with st := .running, replayReq := true })] } 0).quiesce = none ∧
    0 ≤ (Wcut (.quiesceCut 0) .quiescing).now ∧ (ctxOf (Wcut (.quiesceCut 0) .quiescing) 0).edge = none ∧
    cutPoint (Wcut (.replayBoundaryCut 0) .running) 0 :=
  ⟨rfl, rfl, ⟨rfl, rfl, by decide, by decide⟩, rfl, rfl, ⟨rfl, rfl, by decide, by decide⟩, (fun h => absurd h.2.2.1 (by decide)), rfl,
    by decide, rfl, .inl rfl⟩
theorem witness_Service_inval : let s := Wc0 (.invalTimeout 0) .running fun k => { k with invals := [inval0] }
    (ctxOf s 0).invals = [inval0] ∧ inval0.deadline ≤ s.now ∧ inval0.expired = false ∧ (gangOf s (inval0.gangs.headD 0)).ctx = 0 ∧
    runsFree s 0 ∧ ctxState (Wc0 (.invalTimeout 0) .frozen fun k => { k with invals := [inval0] }) 0 ∈ parkedStates :=
  ⟨rfl, by decide, rfl, rfl, ⟨rfl, rfl, rfl⟩, by decide⟩
theorem witness_Service_resume : let s : State := { Wc0 (.contextResumeStart 0) .running fun k => { k with resumeAt := some W.now } with
      gangs := [(0, { gangOf W 0 with seq := .frozen, saved := .issuing })] }
    (s.gangs.map (·.1)).Nodup ∧ (ctxOf s 0).resumeAt = some s.now ∧ (ctxOf s 0).invals = [] ∧ (ctxOf s 0).colls = [] ∧
    (ctxOf s 0).bps = [] ∧ ctxGangs s 0 = [0] ∧ ∀ g ∈ ctxGangs s 0, (gangOf s g).seq = .frozen :=
  ⟨by decide, rfl, rfl, rfl, rfl, rfl, by decide⟩
theorem witness_Service_dump : let s := Wc0 (.dumpWrite 0) .dumping fun k => { k with
      faults := [fault0 1], ops := { createOpsAbsent with dumpBytes := some (Config.dumpSize 0 + 1), dumpKey := some 0 } }
    let z := Wc0 (.dumpWrite 0) .dumping fun k => { k with faults := [fault0 1], ops := { createOpsAbsent with dumpBytes := some 0 } }
    ctxState s 0 = .dumping ∧ Config.dumpSize s.freeCount ≤ (ctxOf s 0).ops.dumpBytes.getD 0 ∧
    0 < (ctxOf s 0).ops.dumpBytes.getD 0 ∧ primaryOf (ctxOf s 0) = some (fault0 1) ∧ (ctxOf z 0).ops.dumpBytes.getD 0 = 0 ∧
    primaryOf (ctxOf z 0) = some (fault0 1) ∧ ctxState z 0 = .dumping :=
  ⟨rfl, Nat.le_succ _, Nat.succ_pos _, rfl, rfl, rfl, rfl⟩
theorem witness_Service_unreadable :
    let s : State := { Wc0 (.dumpWrite 0) .dumping (fun k => { k with faults := [fault0 1] }) with
      slabs := [(0, { Slab.fresh with cellErr := [(4, 63, 504), (4, 63, 575)] })] }
    unreadable s 0 = [(5, 63)] ∧ unreadable (Wc0 (.dumpWrite 0) .dumping id) 0 = [] ∧ ∀ r ∈ (ctxOf s 0).faults, r.nested = false :=
  ⟨by decide, by decide, by decide⟩

/-! ### Statements of links and bring-up -/

def Wln (x : Operand) (st : LinkState) (n : Nat) : State :=
  { W with issue := none, arg := x, links := [(.scale 63, st, n)], ports := [(63, { Port.fresh with
      unacked := [(0, ⟨1, 0, 0, 0, 0, 0, [], true⟩), (1, ⟨1, 0, 0, 0, 1, 0, [], true⟩)], resends := [(0, 15)] })] }
theorem witness_Link_training : (∀ x st n, seamFixed (Wln x st n) (.scale 63) = false ∧ linkState (Wln x st n) (.scale 63) = st ∧
      linkTries (Wln x st n) (.scale 63) = n ∧ (Wln x st n).arg = x) ∧ seamFixed W (.seam 0 1) = false ∧ noneRuns State.reset ∧
    linkState (Wln .none .up 0) (.scale 63) = .up ∧ linkState W (.scale 63) ≠ .up :=
  ⟨fun _ _ _ => ⟨rfl, by simp [linkState, Wln], by simp [linkTries, Wln], rfl⟩, by decide,
    (fun e h => nomatch (h : e ∈ [])), by simp [linkState, Wln], by decide⟩
theorem witness_Link_seam : (∀ e ∈ W.seamErr, e.1 ≠ LinkId.seam 0 1) ∧
    ({ W with seamErr := [(.seam 0 1, 1)] } : State).seamErr = [(.seam 0 1, 1)] ∧
    seamFixed { W with phase := .service, ctxs := [(0, { Ctx.free with st := .running })] } (.seam 0 1) = true :=
  ⟨(fun e h => nomatch (h : e ∈ [])), rfl, by decide⟩
/-- A frame for this module, and a context of its job. -/
def frame0 (k seq ack : BitVec 32) : Frame := ⟨k.setWidth 8, 0, Config.moduleCode, 7, seq, ack, [], true⟩
def Wjob : State :=
  { Wln .none .up 0 with ctxs := [(0, { Ctx.free with st := .running, ops := { createOpsAbsent with job := 7 } })] }
theorem witness_Link_jobs : frameTaken Wjob 63 (frame0 1 0 0) ∧ jobKnown Wjob (frame0 1 0 0) ∧
    jobCounted Wjob Wjob (frame0 1 5 0) ∧ ¬ frameTaken Wjob 63 { frame0 1 0 0 with dstmod := Config.moduleCode + 1 } ∧
    (frame0 1 0 0).crcOk = true ∧ (frame0 1 0 0).kind = 1 ∧ (frame0 1 0 0).seq = (portOf Wjob 63).recvSeq :=
  have k : jobKnown Wjob (frame0 1 0 0) := ⟨(0, { Ctx.free with st := .running, ops := { createOpsAbsent with job := 7 } }), .head _, by decide, by decide, rfl⟩
  ⟨⟨by decide, rfl, by decide⟩, k, ⟨fun _ => rfl, fun h => absurd k h⟩, fun h => absurd h.2.1 (by simp), rfl, rfl, rfl⟩
theorem witness_Link_transport : let s := Wln .none .up 0
    (frame0 1 0 0).crcOk = true ∧ (frame0 1 0 0).kind = 1 ∧ (frame0 1 0 0).seq = (portOf s 63).recvSeq ∧ (frame0 1 5 0).seq ≠ (portOf s 63).recvSeq ∧
    frameTaken s 63 (frame0 1 0 0) ∧ ¬ jobKnown s (frame0 1 0 0) ∧ (frame0 2 0 2).kind = 2 ∧
    (portOf s 63).unacked = [(0, ⟨1, 0, 0, 0, 0, 0, [], true⟩), (1, ⟨1, 0, 0, 0, 1, 0, [], true⟩)] ∧
    ((frame0 2 0 2).ackseq - 0).toNat = 2 ∧ (frame0 3 0 0).kind = 3 ∧ (frame0 3 0 0).ackseq = 0 ∧ mayResend s 63 ∧
    ¬ mayResend { s with ports := [(63, { portOf s 63 with resends := [(1, 16)] })] } 63 :=
  ⟨rfl, rfl, rfl, by decide, ⟨by decide, rfl, by decide⟩, (fun ⟨e, h, _, _, j⟩ => by
      have h : e ∈ [((0 : Nat), ctxOf W 0)] := h
      obtain rfl := List.mem_singleton.mp h
      exact absurd j (by decide)), rfl, rfl, by decide, rfl, rfl, by unfold mayResend; decide, by unfold mayResend; decide⟩
theorem witness_Link_time : W.timeSource ≠ .hostPort ∧ ({ W with timeSource := .hostPort } : State).timeSource ≠ .freeRunning ∧
    W.timeSource = .freeRunning ∧ ({ W with timeSource := .hostPort } : State).timeSource = .hostPort := by decide
/-- The three states of an exchange with a grandmaster on port 63. -/
theorem witness_Link_exchange : ∀ e ∈ [(⟨7, none, 5, none⟩ : PtpExchange), ⟨7, some 3, 5, some 9⟩],
    let s : State := { W with timeSource := .scalePort 63, ptp := some e }
    s.timeSource = .scalePort 63 ∧ s.ptp = some e := fun _ _ => ⟨rfl, rfl⟩

theorem witness_BringUp_phases : State.reset.phase = .off ∧ W.phase ≠ .service ∧
    ({ W with phase := .selftest, tested := List.range 47 } : State).tested.length = 47 ∧ 47 ∉ List.range 47 ∧
    (unitOf W ⟨false, 47, 12, 10⟩).1 ≠ .retired ∧ (unitOf W ⟨false, 47, 12, 10⟩).1 ≠ .retiring ∧
    unitOf { W with units := [(⟨false, 47, 12, 10⟩, .retired, 2)] } ⟨false, 47, 12, 10⟩ = (.retired, 2) ∧
    unitOf { W with units := [(⟨false, 47, 12, 10⟩, .retiring, 0)] } ⟨false, 47, 12, 10⟩ = (.retiring, 0) := by decide
/-- Host port 3 is the last in training. -/
theorem witness_BringUp_hostLink : let s : State := { State.reset with
      phase := .starting, links := [(.host 0, .up, 0), (.host 1, .failed, 0), (.host 2, .up, 0), (.host 3, .training, 0)] }
    s.phase = .starting ∧ linkState s (.host 3) = .training ∧
    ∀ q < 4, q ≠ 3 → linkState s (.host q) = .up ∨ linkState s (.host q) = .failed := by decide
def Wisl (n : Nat) : State := { State.reset with
  phase := .merging, now := n, arg := .islandMerge 0 1, islands := [[0], [1], [2]], ahead := [(1, 4096)] }
theorem witness_BringUp_islands : ∀ n ∈ [4096 + 256, 4097], (Wisl n).phase = .merging ∧ islandOf (Wisl n) 0 ≠ islandOf (Wisl n) 1 ∧
    (∀ e ∈ (Wisl n).ctxs, e.2.st ≠ .running ∧ e.2.st ≠ .quiescing) ∧ (∀ e ∈ (Wisl n).ctxs, e.2.svcStop = false) ∧
    (∃ i ∈ (Wisl n).islands, i ≠ islandOf (Wisl n) 0 ∧ i ≠ islandOf (Wisl n) 1) ∧ ((Wisl n).now % 256 = 0 ↔ n = 4096 + 256) := by
  decide
def map0 : BindingMap := ⟨[(0, 13)], [], [], []⟩
theorem witness_BringUp_binding : ({ State.reset with phase := .binding } : State).phase = .binding ∧
    mapOk { State.reset with phase := .binding } map0 = false := by
  decide +kernel
def Wmapd : State := { State.reset with phase := .service, binding := some map0, arg := .remap ⟨[], [], [], []⟩ }
theorem witness_BringUp_remap : Wmapd.binding = some map0 ∧ Wmapd.phase = .service ∧ allParked Wmapd = true ∧
    allParked { Wmapd with ctxs := [(0, { Ctx.free with st := .running })] } = false ∧ newSkips (swapTiles Wmapd (Wmapd.slabs.map (·.1))) map0 = some map0.skips ∧
    newSkips { Wmapd with units := [(⟨false, 0, 3, 0⟩, .retiring, 0)] } map0 = none := by decide +kernel
/-! ### A good binding map -/

/-- The front end of a logical tile at column c and row r, in the place of its slab. -/
def refN (c r : Nat) : Nat := (8 * (r / 11) + c / 12) * 256 + (c % 12) * 16 + r % 11
def refOf (c r : Nat) : BitVec 16 := BitVec.ofNat 16 (refN c r)
/-- Every row skips column 12; a gang is driven by the front end of one of its tiles. -/
def mapG : BindingMap :=
  ⟨[], (List.range 6336).map fun k => (k, refOf (k % 96) (k / 96)), (List.range 3168).map fun k => (k, refOf (2 * (k % 48)) (k / 48)),
    (List.range 1584).map fun k => (k, refOf (2 * (k % 48)) (2 * (k / 48) + 1))⟩
def unitsG : List (UnitId × UnitState × Nat) :=
  [true, false].flatMap fun f => (List.range 48).flatMap fun r => (List.range 13).flatMap fun c => (List.range 12).map fun p =>
    (⟨f, r, c, p⟩, .spare, 0)

theorem tabGetD_mapRange {α : Type} (d : α) (f : Nat → α) (n k : Nat) (h : k < n) :
    tabGetD d ((List.range n).map fun i => (i, f i)) k = f k := by
  suffices H : ∀ m j, j ≤ k → k < j + m → tabGet ((List.range' j m).map fun i => (i, f i)) k = some (f k) by
    have := H n 0 (by omega) (by omega)
    rw [← List.range_eq_range'] at this
    simp [tabGetD, this]
  intro m
  induction m with
  | zero => intro j h1 h2; omega
  | succ m ih =>
    intro j h1 h2
    by_cases e : j = k
    · subst e; simp [List.range'_succ, tabGet]
    · simpa [List.range'_succ, tabGet, e] using ih (j + 1) (by omega) (by omega)

theorem refN_lt (c r : Nat) (hc : c < 96) (hr : r < 66) : refN c r < 2 ^ 14 := by simp only [refN]; omega
theorem refOf_toNat (c r : Nat) (hc : c < 96) (hr : r < 66) : (refOf c r).toNat = refN c r := by
  have := refN_lt c r hc hr
  simp only [refOf, BitVec.toNat_ofNat]; omega
theorem refN_inj (c r c' r' : Nat) (hc : c < 96) (hr : r < 66) (hc' : c' < 96) (hr' : r' < 66) (h : refN c r = refN c' r') :
    c = c' ∧ r = r' := by simp only [refN] at h; omega
theorem feUnit_refOf (c r : Nat) (hc : c < 96) (hr : r < 66) :
    feUnit (refOf c r) = ⟨true, 8 * (r / 11) + c / 12, c % 12, r % 11⟩ := by
  have h := refOf_toNat c r hc hr
  simp only [feUnit, BitVec.extractLsb'_toNat, h, refN, Nat.shiftRight_eq_div_pow, UnitId.mk.injEq, true_and, Nat.reducePow,
    Nat.pow_zero, Nat.div_one]
  have h1 : r / 11 < 6 := by omega
  have h2 : c / 12 < 8 := by omega
  have h3 : c % 12 < 12 := by omega
  have h4 : r % 11 < 11 := by omega
  clear h
  generalize r / 11 = a at *
  generalize c / 12 = b at *
  generalize c % 12 = d at *
  generalize r % 11 = e at *
  omega

theorem mk1 (c r c' r' n : Nat) (h : r * 128 + c + n = r' * 128 + c') : mkTile c r + n = mkTile c' r' := h

/-- An entry is that of a gang whose front end is the one of its tile (c, r). -/
def ownRef (e : List TileName × BitVec 16) : Prop :=
  ∃ c r, c < 96 ∧ r < 66 ∧ e.2 = refOf c r ∧ mkTile c r ∈ e.1 ∧
    ∀ t ∈ e.1, ∃ c' r', c' < 96 ∧ r' < 66 ∧ t = mkTile c' r' ∧ c ≤ c' ∧ c' ≤ c + 1 ∧ c / 12 = c' / 12 ∧ (r' = r ∨ r' + 1 = r)

theorem mapG_entries : ∀ e ∈ mapEntries mapG, ownRef e := by
  intro e h
  simp only [mapEntries, List.mem_append, List.mem_flatMap, List.mem_map, List.mem_range] at h
  rcases h with (⟨r, hr, c, hc, rfl⟩ | ⟨r, hr, i, hi, rfl⟩) | ⟨j, hj, i, hi, rfl⟩
  · refine ⟨c, r, hc, hr, ?_, by simp, ?_⟩
    · have hcol : tileCol (mkTile c r) = c := by simp only [tileCol, mkTile]; omega
      have hrow : tileRow (mkTile c r) = r := by simp only [tileRow, mkTile]; omega
      simp only [feRef, mapG, hcol, hrow]
      rw [if_neg (by decide), if_neg (by decide), tabGetD_mapRange _ _ _ _ (by omega)]
      congr 1 <;> omega
    · intro t ht
      exact ⟨c, r, hc, hr, List.mem_singleton.mp ht, by omega, by omega, rfl, .inl rfl⟩
  · refine ⟨2 * i, r, by omega, hr, ?_, by simp [gangTilesOf], ?_⟩
    · have hcol : tileCol (mkTile (2 * i) r) = 2 * i := by simp only [tileCol, mkTile]; omega
      have hrow : tileRow (mkTile (2 * i) r) = r := by simp only [tileRow, mkTile]; omega
      simp only [feRef, mapG, hcol, hrow]
      rw [if_neg (by decide), if_pos trivial, tabGetD_mapRange _ _ _ _ (by omega)]
      congr 1 <;> omega
    · intro t ht
      simp only [gangTilesOf, if_neg (show ¬ (2 : Nat) = 4 by decide), if_pos trivial, List.mem_cons, List.not_mem_nil, or_false] at ht
      rcases ht with rfl | rfl
      · exact ⟨2 * i, r, by omega, hr, rfl, by omega, by omega, rfl, .inl rfl⟩
      · exact ⟨2 * i + 1, r, by omega, hr, mk1 _ _ _ _ _ (by omega), by omega, by omega, by omega, .inl rfl⟩
  · refine ⟨2 * i, 2 * j + 1, by omega, by omega, ?_, ?_, ?_⟩
    · have hcol : tileCol (mkTile (2 * i) (2 * j)) = 2 * i := by simp only [tileCol, mkTile]; omega
      have hrow : tileRow (mkTile (2 * i) (2 * j)) = 2 * j := by simp only [tileRow, mkTile]; omega
      simp only [feRef, mapG, hcol, hrow]
      rw [if_pos trivial, tabGetD_mapRange _ _ _ _ (by omega)]
      congr 1 <;> omega
    · exact List.mem_cons_of_mem _ (List.mem_cons_of_mem _ (List.mem_cons.mpr (.inl (mk1 _ _ _ _ 128 (by omega)).symm)))
    · intro t ht
      simp only [gangTilesOf, if_pos trivial, List.mem_cons, List.not_mem_nil, or_false] at ht
      rcases ht with rfl | rfl | rfl | rfl
      · exact ⟨2 * i, 2 * j, by omega, by omega, rfl, by omega, by omega, rfl, .inr rfl⟩
      · exact ⟨2 * i + 1, 2 * j, by omega, by omega, mk1 _ _ _ _ _ (by omega), by omega, by omega, by omega, .inr rfl⟩
      · exact ⟨2 * i, 2 * j + 1, by omega, by omega, mk1 _ _ _ _ _ (by omega), by omega, by omega, rfl, .inl rfl⟩
      · exact ⟨2 * i + 1, 2 * j + 1, by omega, by omega, mk1 _ _ _ _ _ (by omega), by omega, by omega, by omega, .inl rfl⟩

theorem unitsG_spare : ∀ e ∈ unitsG, e.2.1 = .spare := by
  intro e he
  simp only [unitsG, List.mem_flatMap, List.mem_map, List.mem_range] at he
  obtain ⟨_, _, _, _, _, _, _, _, rfl⟩ := he
  rfl

theorem unitsG_good (s : State) (h : s.units = unitsG) (f : Bool) (r c p : Nat) (hr : r < 48) (hc : c < 13) (hp : p < 12) :
    unitGood s ⟨f, r, c, p⟩ = true := by
  have hm : ((⟨f, r, c, p⟩, .spare, 0) : UnitId × UnitState × Nat) ∈ unitsG := by
    simp only [unitsG, List.mem_flatMap, List.mem_map, List.mem_range]
    exact ⟨f, by cases f <;> simp, r, hr, c, hc, p, hp, rfl⟩
  simp only [unitGood, unitOf, h]
  cases hf : unitsG.find? fun e => decide (e.1 = ⟨f, r, c, p⟩) with
  | none => exact absurd (List.find?_eq_none.mp hf _ hm) (by simp)
  | some e => simp [unitsG_spare e (List.mem_of_find?_eq_some hf)]

theorem mapG_ok (s : State) (h : s.units = unitsG) : mapOk s mapG = true := by
  simp only [mapOk, Bool.and_eq_true, List.all_eq_true]
  refine ⟨⟨fun i _ => by simp [mapG, tabGetD, tabGet], fun e he => ?_⟩, fun x hx y hy => ?_⟩
  · obtain ⟨c, r, hc, hr, he2, -, ht⟩ := mapG_entries e he
    simp only [entryGood, he2, feUnit_refOf c r hc hr, refOf_toNat c r hc hr, Bool.and_eq_true, List.all_eq_true, decide_eq_true_eq]
    have := refN_lt c r hc hr
    refine ⟨⟨⟨⟨⟨this, by omega⟩, by omega⟩, by omega⟩, unitsG_good s h _ _ _ _ (by omega) (by omega) (by omega)⟩, fun t htm => ?_⟩
    obtain ⟨c', r', hc', hr', rfl, h1, h2, h3, h4⟩ := ht t htm
    have hcol : tileCol (mkTile c' r') = c' := by simp only [tileCol, mkTile]; omega
    have hrow : tileRow (mkTile c' r') = r' := by simp only [tileRow, mkTile]; omega
    have hq : c' % 12 < 12 := by omega
    simp only [slabUnit, reticleOf, hcol, hrow, skipOf, mapG, tabGetD, tabGet, Option.getD_none, if_pos hq]
    refine ⟨?_, unitsG_good s h _ _ _ _ (by omega) (by omega) (by omega)⟩
    simp only [feDrives, Bool.and_eq_true, Bool.or_eq_true, decide_eq_true_eq]
    omega
  · obtain ⟨c, r, hc, hr, hx2, hxm, -⟩ := mapG_entries x hx
    obtain ⟨c', r', hc', hr', hy2, hym, -⟩ := mapG_entries y hy
    by_cases e : x.2 = y.2
    · have hn : refN c r = refN c' r' := by
        rw [← refOf_toNat c r hc hr, ← refOf_toNat c' r' hc' hr', ← hx2, ← hy2, e]
      obtain ⟨rfl, rfl⟩ := refN_inj c r c' r' hc hr hc' hr' hn
      have : x.1.any y.1.contains = true := List.any_eq_true.mpr ⟨_, hxm, by simpa using hym⟩
      simp [this]
    · simp [e]
def Wgood (p : Phase) : State := { State.reset with phase := p, units := unitsG, binding := some mapG }
theorem witness_BringUp_goodMap : (Wgood .binding).phase = .binding ∧ mapOk (Wgood .binding) mapG = true ∧
    keepsSpares (Wgood .binding) mapG = true := ⟨rfl, mapG_ok _ rfl, rfl⟩
theorem witness_BringUp_goodRemap : (Wgood .service).binding = some mapG ∧ (Wgood .service).phase = .service ∧
    allParked (Wgood .service) = true ∧ swapTiles (Wgood .service) ((Wgood .service).slabs.map (·.1)) = Wgood .service ∧
    newSkips (Wgood .service) mapG = some [] ∧
    mapOk (Wgood .service) { mapG with skips := [] } = true := by
  have h : retiringSlabs (Wgood .service) = [] := by
    simp only [retiringSlabs, List.map_eq_nil_iff, List.filter_eq_nil_iff]
    intro e he
    simp [unitsG_spare e he]
  have e : ({ mapG with skips := [] } : BindingMap) = mapG := by simp only [mapG]
  refine ⟨rfl, rfl, rfl, rfl, ?_, by rw [e]; exact mapG_ok (Wgood .service) rfl⟩
  simp only [newSkips, h]
  rfl

/-! ### Units, voltage -/

def unit0 : UnitId := ⟨true, 47, 12, 10⟩
theorem witness_BringUp_units : unitOf { State.reset with units := [(unit0, .retired, 2)] } unit0 = (.retired, 2) ∧
    unitOf { State.reset with units := [(unit0, .retired, 1)] } unit0 = (.retired, 1) ∧
    ∀ v ∈ [560, 660], tabGetD 600 ({ State.reset with volts := [(767, v)] } : State).volts 767 = v := by decide
/-- A record of the two power cycles before the last, for a unit that has passed three; and one of two cycles that do not follow
each other, which backs nothing. -/
def repair0 (a b : Nat) : RepairRecord := ⟨unit0, a, b, 0, 0⟩
theorem witness_BringUp_repair : (repair0 4 5).unit = unit0 ∧ (repair0 4 5).second = (repair0 4 5).first + 1 ∧
    (repair0 4 5).second ≤ ({ State.reset with powerCycle := 6 } : State).powerCycle ∧
    ({ State.reset with powerCycle := 6 } : State).powerCycle < (repair0 4 5).first + 3 ∧
    (repair0 4 6).second ≠ (repair0 4 6).first + 1 := by decide
/-- No edge stretched among the last 4,096, and half of them. -/
theorem witness_BringUp_droop : (State.reset.stretch.filter fun e => State.reset.now + State.reset.withheld < e + 4096).length < 2048 ∧
    2048 ≤ ((List.replicate 2048 State.reset.now).filter fun e => State.reset.now + State.reset.withheld < e + 4096).length :=
  ⟨by decide, Nat.le_of_eq (by rw [List.filter_replicate, if_pos (by decide), List.length_replicate])⟩

/-! ### Statements of slots, words and steps -/

theorem witness_SlotGuardsAndFrame : W.issue = some WI ∧ (Instr.add 16 1 384).wf = true ∧ slotDest (.add 16 1 384) = some 194 ∧
    slotGuardSrc (.add 16 1 384) = some (16, 384) ∧ guardHolds 16 (srcGang W WI).p = false ∧ guardHolds 0 (srcGang W WI).p = true := by
  decide +kernel
def Whand : State := Gg W fun g => { g with handler := true }
theorem witness_SlotGuardsAndFrame_handler : Whand.issue = some WI ∧ guardHolds 0 (srcGang Whand WI).p = true ∧
    (gangOf Whand 0).handler = true ∧ handlerMay 263 = false ∧ handlerMay 608 = false ∧ (Instr.mxcall 0 0).wf = true ∧
    slotDest (.mxcall 0 0) = some 608 := by decide +kernel
theorem witness_EncodingRoundTrip : (Instr.add 31 1 384).wf = true ∧ slotDest (.add 31 1 384) = some 194 ∧
    microReserved 0x6000000000000000 = false ∧ encodeMicro (.mend 5) = some 0x6000000000000000 ∧
    (decodeSlot 0x010003 = .ok (.registerWrite 0 128 3)) ∧ (List.replicate 8 (0 : BitVec 24)).length = 8 :=
  ⟨by decide, by decide, by decide +kernel, by decide +kernel, rfl, rfl⟩
theorem witness_StepRunsTheNextWork : W.issue = some { WI with words := [(0, 0x010003)] } ∧
    ({ WI with words := [] } : Issue).words = [] ∧ State.reset.issue = none ∧ State.reset.agenda ≠ [] ∧
    ({ State.reset with agenda := [] } : State).agenda = [] ∧ decodeSlot 0x00C003 = .error .constantDest :=
  ⟨rfl, rfl, rfl, by decide, rfl, rfl⟩
def answers (x : Host.Outcome State Fault Refusal) : Bool := match x with | .next _ => true | _ => false
theorem witness_MemoryFormIsKept : W.memWf ∧ agendaSorted W.agenda = true ∧ answers (step W) = true := by decide +kernel

/-! ### Ill-formed terms are refused -/

/-- Reserved source ports, illegal and Reserved destinations of a move, and a unit field that is neither L0 nor L1. -/
theorem test_wf_refuses_ports : [Instr.add 0 0 164, .add 0 0 198, .add 0 0 248, .add 0 0 388, .tctlWrite 0 255, .halt 0 199, .vadd 0 191,
    .mxcall 0 511, .wfill 0 164, .send 0 3 164, .tokput 0 164, .registerWrite 0 7 164, .registerWrite 0 96 0, .registerWrite 0 112 0,
    .registerWrite 0 120 0, .registerWrite 0 130 0, .registerWrite 0 832 0, .registerWrite 0 287 0, .ldB 0 0 0, .ldB 0 3 0, .ldD 0 1 164,
    .bankwait 0 3 0].all (fun i => !i.wf) = true := by decide
/-- Tiles off the grid: column 96, row 66. -/
theorem test_wf_refuses_tiles : [Instr.bundleIssue 96, .bundleIssue (66 * 128), .mnop 96, .mend 16384, .mhalt 127].all (fun i => !i.wf) = true := by
  decide
/-- Operands out of range: tile, slot, context, communicator, ring, region, breakpoint, window, table entry, reticle, island. -/
theorem test_wf_refuses_operands : [Operand.routineLanding 96, .wfillLanding 0 1024, .wflushLanding 96 0, .asyncItemSend 96 false,
    .arrivalDelivery 96 0 0 0 false, .releaseDelivery 0 96 0 0, .tokenDelivery 96 0 0 0 false, .softEventDelivery 0 96 0,
    .collContributionArrival 0 64 0 0, .hostRingEntryWrite 256 0 0 0 0, .ringCoalesceTimeout 0 64 0, .rgnmapWalkEnd 0 64,
    .heartbeat 96, .breakpointHit 0 8 0, .breakpointHit 256 0 0, .freezeEdge 256, .bkClear 0 8, .winSet 0 256 0 true, .mkRead 0 96 0,
    .commSet 0 64 [], .ttSet 0 256 ⟨0, 0, true, false, 1, 0, none⟩, .pgMigrate 0 0 96 0 0 0, .pageRequestArrival 256 0 0 0 0,
    .hostMailboxWrite 96 0 0, .doorbellWrite 0 96 0, .hostWindowRead 256 0 0, .hostLeafWrite 256 0 0 0, .selftestResult 48 [] [],
    .droopAlarm 768, .alignmentArrival 0 96, .pinReleaseComplete 0 64 []].all (fun o => !o.wf) = true := by decide
theorem test_wf_takes : [Instr.add 31 1 387, .registerWrite 0 63 247, .registerWrite 16 831 163, .bankwait 0 2 0, .bundleIssue (65 * 128 + 95),
    .send 0 3 67].all Instr.wf = true := by decide

/-! ### Words of the spec -/

/-- 06_region R148's example, s12 to l1.st.h. -/
theorem test_decode_sth : decodeSlot 0x03180C = .ok (.stH 0 2 12) := rfl
/-- 07_vector R178's example, v3 to v.vfma under p1. -/
theorem test_decode_vfma : decodeSlot 0x0B9043 = .ok (.vfma 1 67) := rfl
/-- 08_accumulator's examples: 0 to m.mxcall; MSTEP all, front, chk; MLDB o1, pair 1. -/
theorem test_decode_mxcall : decodeSlot 0x04C100 = .ok (.mxcall 0 256) := rfl
theorem test_decode_microwords : decodeMicro 0 0x3A00000000000000 = .mstep 0 true false true ∧
    decodeMicro 0 0x2880000000000000 = .mldb 0 true 1 := by decide
/-- 09_window, 10_route and 12_barrier's examples. -/
theorem test_decode_staging : decodeSlot 0x050405 = .ok (.wfill 0 5) ∧ decodeSlot 0x050A07 = .ok (.watom 0 7) := ⟨rfl, rfl⟩
theorem test_decode_send : decodeSlot 0x055443 = .ok (.send 0 2 67) := rfl
theorem test_decode_barriers : decodeSlot 0x058405 = .ok (.bararr 0 5) ∧ decodeSlot 0x058703 = .ok (.barwait 0 259) := ⟨rfl, rfl⟩
/-- A slot's bits 23..19, 18..9 and 8..0 from the tables of 02_bundle R31, R40 to R48: guard !p2, i1.cmpeq (223), s63. -/
theorem test_decode_integer : decodeSlot 0b100100011011111000111111 = .ok (.cmpeq 18 1 63) := rfl
/-- c.sys (281) from e7 (247); c.tctl (285) from k7 (119); l0.fence.sc (360) from the short immediate −1 (383). -/
theorem test_decode_control : decodeSlot 0b000000100011001011110111 = .ok (.sys 0 247) ∧
    decodeSlot 0b000000100011101001110111 = .ok (.tctlWrite 0 119) ∧
    decodeSlot 0b000000101101000101111111 = .ok (.fenceSc 0 1 383) := ⟨rfl, rfl, rfl⟩
/-- v.kpopc (498) from k1 (113); f.feval (578) from v31 (95); x.pop (594) from s0; k.kcopy (674) and q.coll (725) from s1. -/
theorem test_decode_engines : decodeSlot 0b000000111110010001110001 = .ok (.kpopc 0 113) ∧
    decodeSlot 0b000001001000010001011111 = .ok (.feval 0 95) ∧ decodeSlot 0b000001001010010000000000 = .ok (.xpop 0 0) ∧
    decodeSlot 0b000001010100010000000001 = .ok (.kcopy 0 1) ∧ decodeSlot 0b000001011010101000000001 = .ok (.coll 0 1) :=
  ⟨rfl, rfl, rfl, rfl, rfl⟩
/-- The ports at offsets 27 and 28 of L0 are Reserved (R44), as are 120, 287, 500 and 1023; p0 and k0 are no destinations. -/
theorem test_decode_refuses : [0x02B600, 0x02B800, 0x00F000, 0x023E00, 0x03E800, 0x07FE00].all
    (fun w => match decodeSlot w with | .error .reservedDest => true | _ => false) = true ∧
    decodeSlot 0x00C000 = .error .constantDest ∧ decodeSlot 0x00E000 = .error .constantDest := ⟨by decide, rfl, rfl⟩
/-- The canonical empty slot moves s0 to the discard port (R31). -/
theorem test_decode_empty : decodeSlot 0 = .ok (.registerWrite 0 0 0) := rfl

/-! ### Values of the spec's examples -/

/-- 04_scalar R96 and R98. -/
theorem test_divide_examples : divsV (-7) 2 = -3 ∧ divuV 1000 7 = 142 ∧ remuV 1000 7 = 6 ∧
    divuWV 0xFFFFFFFF 1 = 0xFFFFFFFFFFFFFFFF := by decide
theorem test_field_examples : extrV 0x00C35A00 0x880C = 0x35 ∧ extrV 0x00C35A00 0x8810 = 0xFFFFFFFFFFFFFFC3 ∧
    insV 0x00C35A00 0xAB 0x880C = 0x00CABA00 ∧ sextV 0x80 8 = 0xFFFFFFFFFFFFFF80 := by decide
/-- 04_scalar R102, 06_region R142: the tile (25, 12). -/
theorem test_address_examples : mkTile 25 12 = 0x0619 ∧ cvtaV 1 0x0000010186420040 0 = some 0x8000000186420040 ∧
    cvtaV 1 0x0000010186420040 0b10110 = some 0x0000000186420040 ∧ cvtaV 1 0x0000010186420040 0b00100 = none ∧
    cvtaV 1 0x8000000186420040 1 = some 0x0000010186420040 := by decide
/-- 01_wafer R22 and 10_route R260. -/
theorem test_distance_examples : hops (mkTile 11 10) (mkTile 25 12) = 16 ∧ seams (mkTile 11 10) (mkTile 25 12) = 3 ∧
    pathCost (mkTile 11 10) (mkTile 25 12) = 22 ∧ bound (mkTile 2 3) (mkTile 3 3) = 56 ∧ 1001 + toOwned (mkTile 2 3) false 1001 = 1015 ∧
    tilePhase (mkTile 11 10) = 21 ∧ linkCost (mkTile 11 10) (mkTile 12 10) = 3 := by decide
/-- 03_element R64 and R65: 5.0, 5.3, 6.5, −5.3, 3 · 2^−18, 2^−19 and 49,152 in M8; the code 0x31. -/
theorem test_m8_examples : (convertFmt 4 0 0 0x40A9999A).1 = 0x31 ∧ (convertFmt 4 0 0 0x40D00000).1 = 0x32 ∧
    (convertFmt 4 0 0 0xC0A9999A).1 = 0xB1 ∧ (convertFmt 4 0 0 0x37400000).1 = 0x02 ∧ (convertFmt 4 0 0 0x36000000).1 = 0x00 ∧
    (convertFmt 4 0 0 0x47400000).1 = 0x07 ∧ (convertFmt 0 4 0 0x31).1 = 0x40A00000 := by decide +kernel
/-- 03_element R66 and R67: 1 + 2^−8 ties to even in BF16 and rounds up under RUP; 70,000 overflows FP16; 300 saturates INT8. -/
theorem test_round_examples : convertFmt 4 2 0 0x3F808000 = (0x3F80, .none) ∧ convertFmt 4 2 3 0x3F808000 = (0x3F81, .none) ∧
    convertFmt 4 3 0 0x4788B800 = (0x7C00, cvFlag) ∧ convertFmt 4 3 1 0x4788B800 = (0x7BFF, cvFlag) ∧
    convertFmt 4 1 0 0x43960000 = (0x7F, cvFlag) ∧ convertFmt 4 1 0 0x7FC00000 = (0, invFlag) := by decide +kernel
/-- 07_vector R179: 1 + 2 = 3; (1 + 2^−23)² − (1 + 2^−22) = 2^−46 with one rounding; +Inf − Inf is invalid. -/
theorem test_fp32 : add32 0x3F800000 0x40000000 = (0x40400000, false) ∧ fma32 0x3F800001 0x3F800001 0xBF800002 = (0x28800000, false) ∧
    add32 0x7F800000 0xFF800000 = (0x7FC00000, true) ∧ mul32 0x40000000 0x40400000 = (0x40C00000, false) := by decide +kernel
/-- 07_vector R184: VRED.ADD of 2^24, 1, 1, 0, ... is 2^24. -/
theorem test_reduction_example : (redAdd ⟨BitVec.allOnes 64, 0, 0, 0, 0⟩ 0x3F8000003F8000004B800000).1 = 0x4B800000 := by decide +kernel
/-- 07_vector R195: the lane 2.0 under ISHIFT 23 selects segment 128 and gives 3.0 in BF16. -/
theorem test_feval_example : (fevalLane [(384, 0x3F800000), (385, 0x3F000000), (386, 0x3E800000)] 0x217 0x40000000 0).1 = 0x4040 := by
  decide +kernel
/-- 11_group R272's example. -/
theorem test_dmem_example : dmemWord ⟨0, 1, 2, false, [(4, 4), (2, 2)], 0, [], [], []⟩ (mkTile 24 22) 3 = 0x000D400090820B18 := by decide
/-- CRC-32 of IEEE 802.3 over the digits 1 to 9 (15_queue R342). -/
theorem test_crc32 : crc32 [0x31, 0x32, 0x33, 0x34, 0x35, 0x36, 0x37, 0x38, 0x39] = 0xCBF43926 := by decide +kernel

/-- 16_context, a frozen gang: its record holds i0.opa = 6 at 1,160 and s3 = 100 at 240 + 24. -/
theorem test_gang_record : let g := { gangOf W 0 with s := [(3, ⟨100, false⟩), (4, ⟨7, false⟩)], main := [(1128, ⟨6, false⟩)] }
    let r := recordBytes 1424 (gangRecord 0 false g [])
    r[1160]? = some 6 ∧ r[264]? = some 100 ∧ r[272]? = some 7 ∧ r[3]? = some 1 := by decide +kernel
/-- 16_context's frozen gang: its MUL, VLD and DIVS in the order of R384, and the first bytes of the DIVS. -/
def heldOwner (trig born : Nat) : Owner := ⟨0, 1, 0, false, 0, 0, trig, born⟩
def heldEvents : List Ev :=
  [⟨8, 0, 0, some (heldOwner 144 4990), .operationLanding (heldOwner 144 4990) (.feDiv 130 144 ⟨100, false⟩ ⟨7, false⟩), .none⟩,
   ⟨1, 0, 0, some (heldOwner 489 4998), .operationLanding (heldOwner 489 4998) (.vload 0 145 ((List.range 64).map fun i => (i, 0x20000 + 4 * i))), .none⟩,
   ⟨2, 0, 0, some (heldOwner 141 4999), .operationLanding (heldOwner 141 4999) (.feRes 129 ⟨42, false⟩), .none⟩]
theorem test_replay_queue : let q := rqSort (heldEvents.flatMap (eventEntries heldEvents 5000 (fun _ => Slab.fresh) fun _ => 1))
    q.map (fun x => (x.form, x.dest, x.trig, x.remain, x.age, x.payload.length)) =
      [(0, 129, 141, 2, 1, 8), (1, 145, 489, 3, 2, 264), (1, 130, 144, 8, 10, 16)] ∧
    (q.flatMap entryBytes).length = 448 ∧
    (entryBytes (q.getD 2 ⟨0, 0, 0, 0, 0, 0, 0, 0, []⟩)).take 22 =
      [0x01, 0x01, 0xFF, 0x00, 0x82, 0x00, 0x00, 0x00, 0x08, 0x00, 0x00, 0x00, 0x0A, 0x00, 0x00, 0x00, 0x10, 0x00, 0x00, 0x00,
       0x90, 0x00] := by decide +kernel
/-- 01_wafer R25: the island rows of four and of five rows. -/
theorem test_voltage_islands : islandRow 27 = 6 ∧ islandRow 28 = 7 ∧ islandRow 32 = 7 ∧ islandRow 33 = 8 ∧ islandRow 60 = 14 ∧
    islandRow 61 = 15 ∧ islandRow 65 = 15 ∧ voltageIsland (mkTile 95 65) = 767 := by decide
/-- Record sizes of 20_fault R452, 21_marker R461 and R463, 16_context R380 and R382, 19_tile R434. -/
theorem test_record_sizes : (faultBytes ⟨16, 0, 255, true, false, false, false, 0, 0, 0, 0, 0, 0, 0, 0, 0, 0, 0⟩).length = 64 ∧
    (markBytes ⟨0, 0, 0, 0, 0, 0, 0, 0⟩).length = 32 ∧ (traceBytes 0 0 0 .idle 0 [] none 0 0).length = 32 ∧
    (imageHeader [makeImage W 0 0 false] 8 0 0 0).length = 256 ∧ (contextEntry (makeImage W 0 0 false) 0 1).length = 640 ∧
    (attestBytes 0 0 0).length = 192 := by decide +kernel
/-- 16_context R383: the parts of a gang record end at 1,424, the block record is of 32 bytes. -/
theorem test_block_record : (blockBytes Block.empty []).length = 32 ∧
    (gangRecord 0 false (gangOf W 0) []).map (fun e => e.1 + e.2.length) = [2, 3, 4, 5, 6, 16, 18, 19, 20, 22, 24, 168, 232, 240, 752,
      816, 824, 825, 827, 828, 896, 960, 1000, 1064, 1160, 1416, 1424, 1428, 1432] := by decide +kernel

/-! ### One step -/

def nextOf (x : Host.Outcome State Fault Refusal) : State := match x with | .next t => t | _ => State.reset
/-- s3 to i0.opa: the value is there after the step (02_bundle R33). -/
theorem test_step_move : feOpd (nextOf (step (Wg fun g => { g with s := [(3, ⟨77, false⟩)] }))) WI 128 = ⟨77, false⟩ := by decide +kernel
/-- Two operands in I0, one a maximum word: the sum wraps and is due in i0.r one cycle later (04_scalar R94). -/
def Wadd : State := { Wg fun g => { g with s := [(1, ⟨1, false⟩)], main := [(1128, ⟨0xFFFFFFFFFFFFFFFF, true⟩)] } with agenda := [] }
theorem test_add_wraps : (nextOf (exec (.add 0 0 1) Wadd)).agenda.map (fun e => (e.at_, e.instr)) =
    [(Wadd.now + 1, .operationLanding (slotOwner Wadd WI 130) (.feRes 128 ⟨0, true⟩))] := by decide +kernel
/-- A product's upper half, signed and unsigned (R95). -/
theorem test_mulh : mulhV (-1) (-1) = 0 ∧ mulhuV (-1) (-1) = -2 := by decide
theorem test_shifts : sarV 0x8000000000000000 127 = -1 ∧ shrV 0x8000000000000000 63 = 1 ∧ shlV 1 64 = 1 := by decide
/-- A byte stored with its landing stands in its scratchpad, the bytes beside it do not change (06_region R147). -/
theorem test_store_byte : memRead (nextOf (exec .remoteAccessArrival { W with
      arg := .remoteAccessArrival ⟨own0, ⟨1, 0x5001, .store 1 0x1FF, 138, [], none, 0, none⟩, 0⟩ })).mem (2 ^ 22 + 0x5001) = 0xFF ∧
    memRead (nextOf (exec .remoteAccessArrival { W with
      arg := .remoteAccessArrival ⟨own0, ⟨1, 0x5001, .store 1 0x1FF, 138, [], none, 0, none⟩, 0⟩ })).mem (2 ^ 22 + 0x5002) = 0 := by
  decide +kernel
/-- Two exits of one block that differ are an exit collision, and the later stands (02_bundle R51). -/
theorem test_exit_collision : let s := Wg fun g => { g with s := [(1, ⟨200, false⟩)], blk := { g.blk with bpos := 1, exit := some ⟨258, 100, 0, 5, 0⟩ } }
    (gangOf (nextOf (exec (.jmp 0 1) s)) 0).blk.xcol = true ∧
    ((gangOf (nextOf (exec (.jmp 0 1) s)) 0).blk.exit.map (·.tgt)) = some 200 := by decide +kernel
/-- A TRAP at a block end raises a fault of its context with its operand as the auxiliary word (05_sequencer R132). -/
theorem test_trap_faults : (nextOf (exec (.bundleIssue 0) (exitTo 280 5 false))).faultSeq = 1 ∧
    ((ctxOf (nextOf (exec (.bundleIssue 0) (exitTo 280 5 false))) 0).faults.map fun r => r.aux) = [5] := by decide +kernel
/-- EVRET leaves HANDLER for the bundle in eret (05_sequencer R134). -/
theorem test_evret : let t := nextOf (exec (.bundleIssue 0) (exitTo 282 0 true))
    (gangOf t 0).handler = false ∧ (gangOf t 0).pc = 3 := by decide +kernel
/-- The two rows of an INT8 group: 127 · 127 in the first element (08_accumulator R208). -/
theorem test_int8_group : tabGetD 0 (accOf (slabOf (nextOf (exec (.operationLanding own0 (.mxgroup 0 false))
      (Wmic { runI with hm := [(0, 0x10001)], rowsA := [(0, 0x7F)], rowsB := [(0, 0x7F)] } []))) 0).mx false).el 0 = 16129 := by decide +kernel

end Sys2Proof.Machine
end

section
namespace Sys2Proof.Machine

/-! ### Order of the agenda -/

theorem evLt_iff (a b : Ev) :
    evLt a b = true ↔ a.at_ < b.at_ ∨ (a.at_ = b.at_ ∧ (a.ord < b.ord ∨ (a.ord = b.ord ∧ a.sub < b.sub))) := by
  simp [evLt]

/-- An event may stand before another: the other does not come before it. -/
def evLe (a b : Ev) : Prop := evLt b a = false

theorem evLe_iff (a b : Ev) :
    evLe a b ↔ ¬ (b.at_ < a.at_ ∨ (b.at_ = a.at_ ∧ (b.ord < a.ord ∨ (b.ord = a.ord ∧ b.sub < a.sub)))) := by
  rw [evLe, ← evLt_iff, Bool.not_eq_true]

theorem evLe_trans {a b c : Ev} (h : evLe a b) (h' : evLe b c) : evLe a c := by
  rw [evLe_iff] at h h' ⊢
  omega

theorem evLe_of_evLt {a b : Ev} (h : evLt a b = true) : evLe a b := by
  rw [evLt_iff] at h
  rw [evLe_iff]
  omega

/-- The check over neighbours says that the list is sorted. -/
theorem agendaSorted_iff_pairwise (l : List Ev) : agendaSorted l = true ↔ l.Pairwise evLe := by
  induction l with
  | nil => simp [agendaSorted]
  | cons a t ih =>
    cases t with
    | nil => simp [agendaSorted]
    | cons b t =>
      rw [agendaSorted, Bool.and_eq_true, ih, List.pairwise_cons (a := a), Bool.not_eq_true']
      refine and_congr_left fun ht => ⟨fun hab x hx => ?_, fun hall => hall b List.mem_cons_self⟩
      rcases List.mem_cons.mp hx with rfl | hx
      · exact hab
      · exact evLe_trans hab (List.rel_of_pairwise_cons ht hx)

theorem mem_insertEv {e x : Ev} {l : List Ev} : x ∈ insertEv e l ↔ x = e ∨ x ∈ l := by
  induction l with
  | nil => simp [insertEv]
  | cons a t ih =>
    rw [insertEv]
    split
    · simp
    · rw [List.mem_cons, ih, List.mem_cons, or_left_comm]

theorem agendaSorted_insertEv {l : List Ev} (e : Ev) (h : agendaSorted l = true) : agendaSorted (insertEv e l) = true := by
  rw [agendaSorted_iff_pairwise] at h ⊢
  induction l with
  | nil => exact List.pairwise_singleton _ _
  | cons a t ih =>
    have ⟨ha, ht⟩ := List.pairwise_cons.mp h
    rw [insertEv]
    split
    next hlt =>
      have hea := evLe_of_evLt hlt
      refine List.pairwise_cons.mpr ⟨fun x hx => ?_, h⟩
      rcases List.mem_cons.mp hx with rfl | hx
      · exact hea
      · exact evLe_trans hea (ha x hx)
    next hge =>
      refine List.pairwise_cons.mpr ⟨fun x hx => ?_, ih ht⟩
      rcases mem_insertEv.mp hx with rfl | hx
      · exact Bool.eq_false_iff.mpr hge
      · exact ha x hx

theorem agendaSorted_filter {l : List Ev} (p : Ev → Bool) (h : agendaSorted l = true) :
    agendaSorted (l.filter p) = true := by
  rw [agendaSorted_iff_pairwise] at h ⊢
  exact h.filter p

theorem agendaSorted_tail {e : Ev} {l : List Ev} (h : agendaSorted (e :: l) = true) : agendaSorted l = true := by
  rw [agendaSorted_iff_pairwise] at h ⊢
  exact h.of_cons

/-- A change of the events that leaves their places alone keeps their order. -/
theorem agendaSorted_map {l : List Ev} {f : Ev → Ev} (hf : ∀ e, (f e).at_ = e.at_ ∧ (f e).ord = e.ord ∧ (f e).sub = e.sub)
    (h : agendaSorted l = true) : agendaSorted (l.map f) = true := by
  rw [agendaSorted_iff_pairwise] at h ⊢
  refine List.pairwise_map.mpr (h.imp fun {a b} hab => ?_)
  rw [evLe_iff] at hab ⊢
  simpa only [hf] using hab

/-! ### What every operation keeps -/

/-- From one state to another the byte memories keep their form, the agenda keeps its order, and time does not go back. -/
structure Keeps (s t : State) : Prop where
  memWf  : s.memWf → t.memWf
  sorted : agendaSorted s.agenda = true → agendaSorted t.agenda = true
  now_le : s.now ≤ t.now

/-- The parts of the state that `Keeps` speaks of. -/
def State.core (s : State) : List Host.Cell × List Host.Cell × List Ev × Nat := (s.mem, s.vault, s.agenda, s.now)

variable {s₀ s t : State}

theorem Keeps.refl (s : State) : Keeps s s := ⟨id, id, Nat.le_refl _⟩

theorem Keeps.trans (h : Keeps s₀ s) (h' : Keeps s t) : Keeps s₀ t :=
  ⟨h'.memWf ∘ h.memWf, h'.sorted ∘ h.sorted, Nat.le_trans h.now_le h'.now_le⟩

/-- A state that differs in other parts only is as good. -/
theorem Keeps.of_core (h : Keeps s₀ s) (e : t.core = s.core) : Keeps s₀ t := by
  simp only [State.core, Prod.mk.injEq] at e
  obtain ⟨hm, hv, ha, hn⟩ := e
  exact ⟨by simpa only [State.memWf, hm, hv] using h.memWf, ha ▸ h.sorted, hn ▸ h.now_le⟩

/-- An operation that answers something beside the state it leaves. -/
def KeepsFst {α : Type} (s₀ : State) (p : State × α) : Prop := Keeps s₀ p.1

theorem keepsFst_mk {α : Type} {x : α} (h : Keeps s₀ s) : KeepsFst s₀ (s, x) := h

theorem KeepsFst.fst {α : Type} {p : State × α} (h : KeepsFst s₀ p) : Keeps s₀ p.1 := h

/-- The state of a pair that has been taken apart. -/
theorem KeepsFst.of_eq {α : Type} {p : State × α} {x : α} (h : KeepsFst s₀ p) (e : p = (s, x)) : Keeps s₀ s := by
  subst e
  exact h

theorem Keeps.of_snd_eq {α : Type} {p : α × State} {x : α} (h : Keeps s₀ p.2) (e : p = (x, s)) : Keeps s₀ s := by
  subst e
  exact h

theorem Keeps.of_mem {m : List Host.Cell} (h : Keeps s₀ s) (hm : Memory.wf s.mem = true → Memory.wf m = true) :
    Keeps s₀ { s with mem := m } :=
  h.trans ⟨fun w => ⟨hm w.1, w.2⟩, id, Nat.le_refl _⟩

theorem Keeps.of_vault {m : List Host.Cell} (h : Keeps s₀ s) (hm : Memory.wf s.vault = true → Memory.wf m = true) :
    Keeps s₀ { s with vault := m } :=
  h.trans ⟨fun w => ⟨w.1, hm w.2⟩, id, Nat.le_refl _⟩

theorem Keeps.of_agenda {l : List Ev} (h : Keeps s₀ s) (hl : agendaSorted s.agenda = true → agendaSorted l = true) :
    Keeps s₀ { s with agenda := l } :=
  h.trans ⟨id, hl, Nat.le_refl _⟩

theorem keeps_filter {p : Ev → Bool} (h : Keeps s₀ s) : Keeps s₀ { s with agenda := s.agenda.filter p } :=
  h.of_agenda (agendaSorted_filter p)

theorem keeps_freeDelay (h : Keeps s₀ s) : Keeps s₀ (freeDelay s).2 := h.of_core rfl

theorem keeps_ite {c : Prop} [Decidable c] (hs : Keeps s₀ s) (ht : Keeps s₀ t) : Keeps s₀ (if c then s else t) := by
  split
  · exact hs
  · exact ht

theorem keeps_foldl {α : Type} {l : List α} {f : State → α → State} (h : Keeps s₀ s)
    (hf : ∀ s x, Keeps s₀ s → Keeps s₀ (f s x)) : Keeps s₀ (l.foldl f s) :=
  List.foldlRecOn l f h fun s hs x _ => hf s x hs

/-- The same for a loop that carries something beside the state. -/
theorem keepsFst_foldl {α β : Type} {l : List α} {f : State × β → α → State × β} {p : State × β} (h : KeepsFst s₀ p)
    (hf : ∀ p x, KeepsFst s₀ p → KeepsFst s₀ (f p x)) : KeepsFst s₀ (l.foldl f p) :=
  List.foldlRecOn l f h fun p hp x _ => hf p x hp

theorem keepsFst_ite {α : Type} {c : Prop} [Decidable c] {p q : State × α} (hp : KeepsFst s₀ p) (hq : KeepsFst s₀ q) :
    KeepsFst s₀ (if c then p else q) := by
  split
  · exact hp
  · exact hq

/-- What a next state, where there is one, keeps. -/
def KeepsNext (s₀ : State) (o : Host.Outcome State Fault Refusal) : Prop := ∀ t, o = .next t → Keeps s₀ t

theorem keepsNext_next (h : Keeps s₀ s) : KeepsNext s₀ (.next s) := by
  rintro _ ⟨⟩
  exact h

theorem keepsNext_fault (f : Fault) : KeepsNext s₀ (.fault f) := by simp [KeepsNext]
theorem keepsNext_refused (f : Refusal) : KeepsNext s₀ (.refused f) := by simp [KeepsNext]

theorem keepsNext_ite {c : Prop} [Decidable c] {o o' : Host.Outcome State Fault Refusal} (h : KeepsNext s₀ o) (h' : KeepsNext s₀ o') :
    KeepsNext s₀ (if c then o else o') := by
  split
  · exact h
  · exact h'

/-- What the state of an answer that is no error keeps. -/
def KeepsOk {ε α : Type} (s₀ : State) (e : Except ε (State × α)) : Prop := ∀ p, e = .ok p → KeepsFst s₀ p

theorem keepsOk_pure {ε α : Type} {p : State × α} (h : KeepsFst s₀ p) : KeepsOk s₀ (pure p : Except ε (State × α)) := by
  rintro _ ⟨⟩
  exact h

theorem keepsOk_bind {ε α β : Type} {e : Except ε β} {f : β → Except ε (State × α)} (hf : ∀ b, KeepsOk s₀ (f b)) :
    KeepsOk s₀ (e >>= f) := by
  cases e with
  | error x => rintro _ ⟨⟩
  | ok b => exact hf b

end Sys2Proof.Machine
end

section
namespace Sys2Proof.Machine

/-! ### Each operation of the model

One lemma per function that leaves a state, in the order of the model: from a state that keeps what `s₀` has, the
function leaves one that does. `keeps_step` at the end says it of a whole step. -/

variable {s₀ s : State} {own : Owner} {is : Issue} {t g dst : TileName} {src : BitVec 9}
  {a at_ c cause cls comm d i id idx k lat n p port q v va vpn frame line : Nat} {w : Word} {ts : List TileName}
  {inst job : BitVec 32} {r : MxRun} {hand wafer : Bool}

/-! #### Access to the state, the agenda, faults and events of a gang -/

theorem keeps_modGang {n : TileName} {f : Gang → Gang} (h : Keeps s₀ s) : Keeps s₀ (modGang s n f) := by
  unfold modGang
  split
  · exact h.of_core rfl
  · exact h

theorem keeps_modSlab {n : TileName} {f : Slab → Slab} (h : Keeps s₀ s) : Keeps s₀ (modSlab s n f) := h.of_core rfl

theorem keeps_modCtx {f : Ctx → Ctx} (h : Keeps s₀ s) : Keeps s₀ (modCtx s i f) := h.of_core rfl

theorem keeps_modTask {f : Task → Task} (h : Keeps s₀ s) : Keeps s₀ (modTask s i f) := h.of_core rfl

theorem keeps_forTiles {f : State → TileName → State} (h : Keeps s₀ s)
    (hf : ∀ s x2, Keeps s₀ s → Keeps s₀ (f s x2)) :
    Keeps s₀ (forTiles s ts f) := keeps_foldl h fun _ _ h' => hf _ _ h'

theorem keeps_modSlabs {n : TileName} {f : Slab → Slab} (h : Keeps s₀ s) : Keeps s₀ (modSlabs s n f) :=
  keeps_forTiles h fun _ _ => keeps_modSlab

theorem keeps_post {e : Ev} (h : Keeps s₀ s) : Keeps s₀ (post s e) := h.of_agenda (agendaSorted_insertEv e)

theorem keeps_postEv {t ord sub : Nat} {own : Option Owner} {i : Instr} {arg : Operand} (h : Keeps s₀ s) :
    Keeps s₀ (postEv s t ord sub own i arg) := keeps_post h

theorem keeps_postAct {t ord : Nat} {a : Action} (h : Keeps s₀ s) : Keeps s₀ (postAct s own t ord a) := keeps_post h

theorem keeps_postLand {t : Nat} {a : Action} (h : Keeps s₀ s) : Keeps s₀ (postLand s own t a) := keeps_postAct h

theorem keeps_postBundle {t : Nat} (h : Keeps s₀ s) : Keeps s₀ (postBundle s g t) := by
  unfold postBundle
  exact keeps_postEv h

theorem keeps_tell {x : HostOut} (h : Keeps s₀ s) : Keeps s₀ (tell s x) := h.of_core rfl

theorem keeps_setPhase {p : Phase} (h : Keeps s₀ s) : Keeps s₀ (setPhase s p) := keeps_tell (h.of_core rfl)

theorem keeps_padWrite (h : Keeps s₀ s) :
    Keeps s₀ (padWrite s t a n v) := Keeps.of_mem h fun w => memWriteN_wf w _ _ _

theorem keeps_padPutWord (h : Keeps s₀ s) : Keeps s₀ (padPutWord s t a w) := keeps_padWrite h

theorem keeps_setEdge {f : Nat} (h : Keeps s₀ s) : Keeps s₀ (setEdge s c f) := by
  unfold setEdge
  refine keeps_ite h ?_
  split
  · exact keeps_ite h (keeps_postEv (keeps_modCtx h))
  · exact keeps_postEv (keeps_modCtx h)

theorem keeps_oweDump (h : Keeps s₀ s) : Keeps s₀ (oweDump s c cls cause) := by
  unfold oweDump
  exact keeps_ite (keeps_postEv (keeps_ite (keeps_modCtx h) h)) (keeps_ite (keeps_modCtx h) h)

theorem keeps_raiseWith {a : FaultArgs} (h : Keeps s₀ s) : Keeps s₀ (raiseWith s a) := by
  unfold raiseWith
  extract_lets
  split
  next d s' hd =>
    have h' : Keeps s₀ s' := by
      refine Keeps.of_snd_eq ?_ hd
      split
      · exact h
      · exact keeps_freeDelay h
    extract_lets _ _ _ s₁ s₂
    have h₁ : Keeps s₀ s₁ := keeps_oweDump (h'.of_core rfl)
    have h₂ : Keeps s₀ s₂ := keeps_modCtx h₁
    refine keeps_ite (keeps_modCtx h₁) (keeps_ite (keeps_modCtx h₁) ?_)
    exact keeps_ite (keeps_ite (keeps_setEdge h₂) h₂) (keeps_ite (keeps_tell h₂) h₂)

theorem keeps_raise (h : Keeps s₀ s) : Keeps s₀ (raise s own cls cause) := keeps_raiseWith h

theorem keeps_raiseAux {aux : Word} (h : Keeps s₀ s) :
    Keeps s₀ (raiseAux s own cls cause aux k) := keeps_raiseWith h

theorem keeps_raiseDelivery {aux : Word} (h : Keeps s₀ s) : Keeps s₀ (raiseDelivery s own cls cause aux t) :=
  keeps_raiseWith h

theorem keeps_postEvent {src : Nat} (h : Keeps s₀ s) : Keeps s₀ (postEvent s g src w) := by
  unfold postEvent
  split
  · exact h.of_core rfl
  · exact keeps_ite (h.of_core rfl) (keeps_modGang h)

theorem keeps_postEventAt {src : Nat} (h : Keeps s₀ s) : Keeps s₀ (postEventAt s t src w) := by
  unfold postEventAt
  split
  · exact keeps_postEvent h
  · exact h.of_core rfl

theorem keeps_segmentIn (h : Keeps s₀ s) : Keeps s₀ (segmentIn s g k) := by
  unfold segmentIn
  exact keeps_modGang h

theorem keeps_beginSegment (h : Keeps s₀ s) : Keeps s₀ (beginSegment s g) := keeps_segmentIn h

theorem keeps_issueAt {t : Nat} (h : Keeps s₀ s) : Keeps s₀ (issueAt s g t) := keeps_postBundle (keeps_modGang h)

theorem keeps_bumpCounter (h : Keeps s₀ s) : Keeps s₀ (bumpCounter s g k n) := keeps_modGang h

theorem keeps_answer {ctx code : Nat} (h : Keeps s₀ s) : Keeps s₀ (answer s ctx code a) := keeps_tell h

/-! #### Sticky flags -/

theorem keeps_setFlags {f : FlagSet} (h : Keeps s₀ s) : Keeps s₀ (setFlags s g f) := keeps_modGang h

/-! #### Ports, registers and slots -/

theorem keeps_putFE {v : TV} (h : Keeps s₀ s) : Keeps s₀ (putFE s g hand k v) := keeps_modGang h

theorem keeps_putSl {v : TV} (h : Keeps s₀ s) : Keeps s₀ (putSl s t hand k v) := keeps_modSlab h

theorem keeps_putVPort {v : Vec} (h : Keeps s₀ s) : Keeps s₀ (putVPort s t k v) := keeps_modSlab h

theorem keeps_landFE {v : TV} (h : Keeps s₀ s) : Keeps s₀ (landFE s own k v) := keeps_ite (keeps_putFE h) h

theorem keeps_landSl {v : TV} (h : Keeps s₀ s) : Keeps s₀ (landSl s own t k v) := keeps_ite (keeps_putSl h) h

theorem keeps_landVec {v : Vec} (h : Keeps s₀ s) : Keeps s₀ (landVec s own t k v) := keeps_ite (keeps_putVPort h) h

theorem keeps_writeFE {v : TV} (h : Keeps s₀ s) : Keeps s₀ (writeFE s g hand d v) := by
  unfold writeFE
  refine keeps_ite h ?_
  refine keeps_ite (keeps_modGang h) ?_
  refine keeps_ite (keeps_modGang h) ?_
  exact keeps_ite (keeps_putFE h) (keeps_ite (keeps_modGang h) (keeps_ite (keeps_modGang h) (keeps_modGang h)))

theorem keeps_writeSl {v : TV} (h : Keeps s₀ s) : Keeps s₀ (writeSl s t hand d v) :=
  keeps_ite (keeps_modSlab h) (keeps_ite (keeps_modSlab h) (keeps_ite (keeps_modSlab h) (keeps_putSl h)))

theorem keeps_writeVec {v : Vec} (h : Keeps s₀ s) : Keeps s₀ (writeVec s t d v) :=
  keeps_ite (keeps_modSlab h) (keeps_putVPort h)

theorem keeps_blockTrap (h : Keeps s₀ s) : Keeps s₀ (blockTrap s is cause) := keeps_modGang h

theorem keeps_slotStep {g : BitVec 5} {f : Issue → State → State} (h : Keeps s₀ s)
    (hf : ∀ x1 s, Keeps s₀ s → Keeps s₀ (f x1 s)) :
    KeepsNext s₀ (slotStep s g d f) := by
  unfold slotStep
  split
  · exact keepsNext_fault _
  · refine keepsNext_ite (keepsNext_next h) ?_
    refine keepsNext_ite (keepsNext_next (keeps_blockTrap (keeps_bumpCounter (h.of_core rfl)))) ?_
    exact keepsNext_next (hf _ _ (keeps_bumpCounter (h.of_core rfl)))

theorem keeps_consumeDF (h : Keeps s₀ s) : Keeps s₀ (consumeDF s is k) := keeps_raiseAux h

theorem keeps_moveTo (h : Keeps s₀ s) : Keeps s₀ (moveTo s is d src) := by
  unfold moveTo
  refine keeps_ite h ?_
  refine keeps_ite (keeps_ite (keeps_consumeDF h) (keeps_writeFE h)) ?_
  refine keeps_ite ?_ ?_
  · split
    · exact keeps_consumeDF h
    · exact keeps_forTiles h fun _ _ => keeps_writeVec
  · split
    · exact keeps_consumeDF h
    · exact keeps_forTiles h fun _ _ => keeps_writeSl

theorem keeps_execRegisterWrite {g : BitVec 5} {d : BitVec 10} (h : Keeps s₀ s) :
    KeepsNext s₀ (execRegisterWrite g d src s) := keeps_slotStep h fun _ _ => keeps_moveTo

theorem keeps_untagged {f : State → State} (h : Keeps s₀ s) (hf : ∀ s, Keeps s₀ s → Keeps s₀ (f s)) :
    Keeps s₀ (untagged s is ts src f) := by
  unfold untagged
  split
  · exact keeps_consumeDF h
  · exact hf _ h

/-! #### I0 and I1 -/

theorem keeps_intT {f : Word → Word} {g : BitVec 5} {u : BitVec 1} (h : Keeps s₀ s) :
    KeepsNext s₀ (intT k port lat f g u src s) := keeps_slotStep h fun _ _ => keeps_postLand

theorem keeps_intAT {f : Word → Word → Word} {g : BitVec 5} {u : BitVec 1} (h : Keeps s₀ s) :
    KeepsNext s₀ (intAT k port lat f g u src s) := keeps_slotStep h fun _ _ => keeps_postLand

theorem keeps_intACT {f : Word → Word → Word → Word} {g : BitVec 5} {u : BitVec 1} (h : Keeps s₀ s) :
    KeepsNext s₀ (intACT port f g u src s) := keeps_slotStep h fun _ _ => keeps_postLand

theorem keeps_setDzf (h : Keeps s₀ s) : Keeps s₀ (setDzf s g) := keeps_modGang h

theorem keeps_intDiv {zero : Word → Bool} {g : BitVec 5} {u : BitVec 1} (h : Keeps s₀ s) :
    KeepsNext s₀ (intDiv port zero g u src s) :=
  keeps_slotStep h fun _ _ h' => keeps_postLand (keeps_ite (keeps_setDzf h') h')

/-! #### The control unit C -/

theorem keeps_matchBreak {ctx : Nat} {ok : Word → Bool} (h : Keeps s₀ s) : Keeps s₀ (matchBreak s ctx g k ok) :=
  keeps_foldl h fun _ _ h' => keeps_ite (keeps_ite (keeps_postEv (keeps_modCtx h')) (keeps_modCtx h')) h'

theorem keeps_ctlStep {g : BitVec 5} {readsA readsB : Bool} {f : Issue → State → Word → Word → Word → State}
    (h : Keeps s₀ s) (hf : ∀ x1 s x3 x4 x5, Keeps s₀ s → Keeps s₀ (f x1 s x3 x4 x5)) :
    KeepsNext s₀ (ctlStep s g port src readsA readsB f) :=
  keeps_slotStep h fun _ _ h' => keeps_ite (keeps_consumeDF h') (hf _ _ _ _ _ h')

theorem keeps_modBlk {f : Block → Block} (h : Keeps s₀ s) : Keeps s₀ (modBlk s g f) := keeps_modGang h

theorem keeps_recordExit {tgt aux : Word} (h : Keeps s₀ s) : Keeps s₀ (recordExit s is tgt aux) := keeps_modBlk h

theorem keeps_recordLoop {e strides : Word} (h : Keeps s₀ s) : Keeps s₀ (recordLoop s is n e strides) :=
  keeps_ite (keeps_blockTrap h) (keeps_modBlk h)

theorem keeps_recordWait {w : WaitKind} (h : Keeps s₀ s) : Keeps s₀ (recordWait s g w) := keeps_modBlk h

theorem keeps_recordCWait {w : WaitKind} (h : Keeps s₀ s) : Keeps s₀ (recordCWait s is w) :=
  keeps_ite (keeps_blockTrap h) (keeps_modBlk h)

theorem keeps_execChkdf {g : BitVec 5} (h : Keeps s₀ s) : KeepsNext s₀ (execChkdf g src s) :=
  keeps_slotStep h fun _ _ h' => keeps_ite (keeps_consumeDF h') (keeps_ite (keeps_recordExit h') h')

theorem keeps_execChkmx {g : BitVec 5} (h : Keeps s₀ s) : KeepsNext s₀ (execChkmx g src s) :=
  keeps_ctlStep h fun _ _ _ _ _ h' => keeps_ite (keeps_recordExit h') h'

theorem keeps_execQpoint {g : BitVec 5} (h : Keeps s₀ s) : KeepsNext s₀ (execQpoint g src s) :=
  keeps_ctlStep h fun _ _ _ _ _ => keeps_modBlk

theorem keeps_execMark {g : BitVec 5} (h : Keeps s₀ s) : KeepsNext s₀ (execMark g src s) :=
  keeps_ctlStep h fun _ _ _ _ _ h' => keeps_postLand (keeps_matchBreak h')

theorem keeps_predOp {g : BitVec 5} {readsA : Bool} {f : Bool → Bool → Bool} (h : Keeps s₀ s) :
    KeepsNext s₀ (predOp s g port src readsA f) := keeps_slotStep h fun _ _ => keeps_postLand

theorem keeps_execTstclr {g : BitVec 5} (h : Keeps s₀ s) : KeepsNext s₀ (execTstclr g src s) :=
  keeps_ctlStep h fun _ _ _ _ _ => keeps_postAct

theorem keeps_landMark {marker : BitVec 16} {expect : BitVec 32} {actual cyc : Word} (h : Keeps s₀ s) :
    Keeps s₀ (landMark s own marker expect actual cyc) := by
  unfold landMark
  exact keeps_ite h (keeps_modCtx (keeps_bumpCounter h))

/-! #### Records that live in memories -/

theorem keeps_modSlot {f : WSlot → WSlot} (h : Keeps s₀ s) :
    Keeps s₀ (modSlot s t n f) := keeps_ite h (keeps_modSlab h)

theorem keeps_cleanSlot (h : Keeps s₀ s) : Keeps s₀ (cleanSlot s t n) := keeps_modSlot h

theorem keeps_markDirty {as : List Nat} (h : Keeps s₀ s) : Keeps s₀ (markDirty s t as) :=
  keeps_foldl h fun _ _ => keeps_modSlot

theorem keeps_padStore (h : Keeps s₀ s) : Keeps s₀ (padStore s t a n v) := keeps_markDirty (keeps_padWrite h)

theorem keeps_rgnPutState {st : Nat} (h : Keeps s₀ s) : Keeps s₀ (rgnPutState s t i st cause) := by
  unfold rgnPutState
  exact keeps_padPutWord h

theorem keeps_acquireObject {kind sync : Nat} (h : Keeps s₀ s) : Keeps s₀ (acquireObject s ts kind sync) :=
  keeps_forTiles h fun _ _ h' => keeps_foldl h' fun _ _ h'' => keeps_modSlab (keeps_modSlot h'')

theorem keeps_putBar {r : BarRec} (h : Keeps s₀ s) : Keeps s₀ (putBar s t n r) := keeps_padWrite h

theorem keeps_releasePins {p : Pin → Bool} (h : Keeps s₀ s) : Keeps s₀ (releasePins s c t i p) :=
  keeps_padPutWord (keeps_modSlab (keeps_foldl h fun _ _ => keeps_modCtx))

theorem keeps_dropPins (h : Keeps s₀ s) : Keeps s₀ (dropPins s c t) := keeps_foldl h fun _ _ => keeps_releasePins

theorem keeps_raiseUndoFull (h : Keeps s₀ s) : Keeps s₀ (raiseUndoFull s own frame line k) := keeps_raiseAux h

theorem keeps_vaultWriteLine {home : TileName} {v : BitVec 512} (h : Keeps s₀ s) :
    Keeps s₀ (vaultWriteLine s own home frame line v) := by
  unfold vaultWriteLine
  refine keeps_ite (Keeps.of_vault h fun w => memPutLine_wf w _ _) ?_
  refine keeps_ite (keeps_raiseUndoFull h) ?_
  refine keeps_ite (keeps_postEv (Keeps.of_vault (keeps_modCtx h) fun w => memPutLine_wf w _ _)) ?_
  exact Keeps.of_vault (keeps_modCtx h) fun w => memPutLine_wf w _ _

/-! #### The route -/

theorem keeps_putBeat {data : BitVec 512} (h : Keeps s₀ s) : Keeps s₀ (putBeat s own t d data) := by
  unfold putBeat
  split
  · exact h
  · exact keeps_postEv h

theorem keeps_execSend {g : BitVec 5} {d : BitVec 2} (h : Keeps s₀ s) : KeepsNext s₀ (execSend g d src s) := by
  unfold execSend
  refine keeps_slotStep h fun _ _ h' => ?_
  extract_lets
  split
  · exact keeps_consumeDF h'
  · split
    · exact keeps_raiseAux h'
    · exact keeps_forTiles h' fun _ _ => keeps_putBeat

theorem keeps_execRouterStaticBeat (h : Keeps s₀ s) : KeepsNext s₀ (execRouterStaticBeat s) := by
  unfold execRouterStaticBeat
  split
  · refine keepsNext_next ?_
    exact keeps_foldl (keeps_ite (keeps_putVPort h) h) fun _ _ h' => keeps_ite (keeps_putBeat h') h'
  · exact keepsNext_fault _

theorem keeps_dropRouteset (h : Keeps s₀ s) : Keeps s₀ (dropRouteset s t) := keeps_filter h

theorem keeps_execRouteset {g : BitVec 5} (h : Keeps s₀ s) : KeepsNext s₀ (execRouteset g src s) := by
  unfold execRouteset
  refine keeps_slotStep h fun _ _ h' => ?_
  refine keeps_untagged h' fun _ h'' => ?_
  exact keeps_postEv (keeps_forTiles h'' fun _ _ h''' => keeps_foldl (keeps_modSlab (keeps_dropRouteset h'''))
      fun _ _ => keeps_postAct)

theorem keeps_landRouteRow (h : Keeps s₀ s) : Keeps s₀ (landRouteRow s t q) := by
  unfold landRouteRow
  split
  · exact h
  · exact keeps_ite h (keeps_modSlab h)

theorem keeps_giveT0 (h : Keeps s₀ s) : Keeps s₀ (giveT0 s own t) := by
  unfold giveT0
  exact keeps_postEv (keeps_modSlab h)

theorem keeps_execRoutesetCheck (h : Keeps s₀ s) : KeepsNext s₀ (execRoutesetCheck s) := by
  unfold execRoutesetCheck
  split
  · split
    · exact keepsNext_next h
    · extract_lets
      split
      · exact keepsNext_next (keeps_raiseAux (keeps_forTiles h fun _ _ => keeps_modSlab))
      · exact keepsNext_next (keeps_forTiles h fun _ _ => keeps_giveT0)
  · exact keepsNext_fault _

theorem keeps_landNameLoad {n : BitVec 16} (h : Keeps s₀ s) : Keeps s₀ (landNameLoad s t idx n) := keeps_modSlab h

theorem keeps_execNameq {g : BitVec 5} (h : Keeps s₀ s) : KeepsNext s₀ (execNameq g src s) :=
  keeps_slotStep h fun _ _ h' => keeps_untagged h' fun _ h'' => keeps_forTiles h'' fun _ _ => keeps_postAct

theorem keeps_landNameQuery {n : BitVec 16} (h : Keeps s₀ s) : Keeps s₀ (landNameQuery s own t n) := keeps_landSl h

theorem keeps_scheduleSend (h : Keeps s₀ s) : Keeps s₀ (scheduleSend s own t wafer) := keeps_ite h (keeps_postEv h)

theorem keeps_enqueue {unit : Nat} {kind : ItemKind} {eligible : Nat} (h : Keeps s₀ s) :
    Keeps s₀ (enqueue s own t wafer unit kind dst eligible) := by
  unfold enqueue
  exact keeps_scheduleSend (keeps_modSlab h)

theorem keeps_rekind (h : Keeps s₀ s) : Keeps s₀ (rekind s t) := by
  unfold rekind
  exact keeps_modSlab h

theorem keeps_hopOn {lim since : Nat} {denied : Bool} (h : Keeps s₀ s) :
    Keeps s₀ (hopOn s own t dst i lim since c wafer denied) := keeps_ite (keeps_post h)
        (keeps_ite (keeps_raise h) h)

theorem keeps_landHop {lim since : Nat} {denied : Bool} (h : Keeps s₀ s) :
    Keeps s₀ (landHop s own t dst i lim since wafer denied) := by
  unfold landHop
  refine keeps_ite h ?_
  extract_lets
  split
  · exact h
  · exact keeps_ite (keeps_hopOn h) (keeps_ite (keeps_hopOn h) (keeps_hopOn (h.of_core rfl)))

theorem keeps_sendBeat (h : Keeps s₀ s) : Keeps s₀ (sendBeat s own t dst wafer) := keeps_hopOn h

theorem keeps_sendItem {x : Item} (h : Keeps s₀ s) : Keeps s₀ (sendItem s t wafer x) := by
  unfold sendItem
  extract_lets _ _ _ s₂
  have h₂ : Keeps s₀ s₂ := by
    unfold s₂
    split
    · exact keeps_sendBeat (keeps_bumpCounter h)
    · exact keeps_bumpCounter h
  split
  · exact keeps_postEv (keeps_putBar h₂)
  · exact keeps_postEv h₂
  · exact keeps_postEv h₂
  · exact keeps_postEv h₂
  · exact keeps_postEv h₂
  · exact keeps_postEv (keeps_ite (keeps_postAct h₂) h₂)
  · exact keeps_postEv (keeps_freeDelay h₂)
  · exact keeps_postEv (keeps_freeDelay h₂)
  · exact keeps_postEv (keeps_freeDelay h₂)

theorem keeps_wakeSends (h : Keeps s₀ s) : Keeps s₀ (wakeSends s own t) :=
  keeps_foldl h fun _ _ h' => keeps_ite (keeps_scheduleSend h') h'

theorem keeps_execSwitchProgramStart (h : Keeps s₀ s) : KeepsNext s₀ (execSwitchProgramStart s) := by
  unfold execSwitchProgramStart
  split
  · split
    · exact keepsNext_next (keeps_wakeSends (keeps_rekind (keeps_modSlab h)))
    · exact keepsNext_next h
  · exact keepsNext_fault _

theorem keeps_execAsyncItemSend (h : Keeps s₀ s) : KeepsNext s₀ (execAsyncItemSend s) := by
  unfold execAsyncItemSend
  split
  · extract_lets _ _ _ s₁
    have h₁ : Keeps s₀ s₁ := by
      unfold s₁
      refine keeps_ite h ?_
      split
      · exact keeps_sendItem (keeps_modSlab h)
      · split
        · exact keeps_sendItem (keeps_modSlab h)
        · split
          · exact keeps_postAct (keeps_modSlab h)
          · exact h
    exact keepsNext_next (keeps_ite (keeps_postEv h₁) h₁)
  · exact keepsNext_fault _

theorem keeps_execKcopy {g : BitVec 5} (h : Keeps s₀ s) : KeepsNext s₀ (execKcopy g src s) := by
  unfold execKcopy
  refine keeps_slotStep h fun _ _ h' => keeps_untagged h' fun _ h'' => keeps_ite (keeps_raiseAux h'')
      (keeps_ite (keeps_raiseAux h'') (keeps_ite (keeps_raiseAux h'')
      (keeps_ite (keeps_raiseAux h'') (keeps_ite (keeps_raiseAux h'')
      (keeps_ite (keeps_raise h'') (keeps_ite (keeps_raiseAux h'') ?_))))))
  extract_lets
  split
  · exact keeps_forTiles h'' fun _ _ => keeps_postLand
  · exact keeps_forTiles (keeps_scheduleSend (keeps_modSlab h'')) fun _ _ => keeps_postLand

theorem keeps_landCopyRead {num row : Nat} (h : Keeps s₀ s) : Keeps s₀ (landCopyRead s own t num row) := by
  unfold landCopyRead
  split
  · exact h
  · exact keeps_postEv (keeps_sendBeat (keeps_bumpCounter h))

theorem keeps_execCopyBeatDelivery (h : Keeps s₀ s) : KeepsNext s₀ (execCopyBeatDelivery s) := by
  unfold execCopyBeatDelivery
  split
  · exact keepsNext_next (keeps_post (keeps_padStore h))
  · exact keepsNext_fault _

theorem keeps_countBeat {at_ : TileName} {inbound : Bool} (h : Keeps s₀ s) :
    Keeps s₀ (countBeat s own at_ t n inbound) := by
  unfold countBeat
  exact keeps_ite (keeps_raiseDelivery h) (keeps_post (keeps_putBar h))

theorem keeps_landBarBeat {b : CopyBeat} (h : Keeps s₀ s) : Keeps s₀ (landBarBeat s b) := by
  unfold landBarBeat
  extract_lets s₁ s₂
  have h₁ : Keeps s₀ s₁ := by
    unfold s₁
    split
    · exact keeps_countBeat h
    · exact h
  have h₂ : Keeps s₀ s₂ := by
    unfold s₂
    split
    · exact keeps_countBeat h₁
    · exact h₁
  split
  · exact h₂
  · exact keeps_ite (keeps_modSlab h₂) (keeps_ite (keeps_postEventAt (keeps_modSlab h₂)) (keeps_modSlab h₂))

theorem keeps_execKstat {g : BitVec 5} (h : Keeps s₀ s) : KeepsNext s₀ (execKstat g src s) :=
  keeps_slotStep h fun _ _ h' => keeps_untagged h' fun _ => keeps_postLand

/-! #### The sequencer -/

theorem keeps_segmentNext (h : Keeps s₀ s) : Keeps s₀ (segmentNext s g) := keeps_segmentIn h

theorem keeps_finishWaits {o : Nat} (h : Keeps s₀ s) : Keeps s₀ (finishWaits s g o) := by
  unfold finishWaits
  exact keeps_issueAt (keeps_modGang (keeps_foldl (keeps_segmentIn (keeps_bumpCounter h)) fun _ _ => keeps_postAct))

theorem keeps_waitDone {w : WaitKind} (h : Keeps s₀ s) : Keeps s₀ (waitDone s g w) := by
  unfold waitDone
  exact keeps_ite h (keeps_ite (keeps_finishWaits (keeps_modGang h)) (keeps_modGang h))

theorem keeps_dropBeat (h : Keeps s₀ s) : Keeps s₀ (dropBeat s g) := keeps_filter h

theorem keeps_dueBeat (h : Keeps s₀ s) : Keeps s₀ (dueBeat s g) := by
  unfold dueBeat
  exact keeps_postEv (keeps_dropBeat h)

theorem keeps_postBeats (h : Keeps s₀ s) : Keeps s₀ (postBeats s g) := by
  unfold postBeats
  exact keeps_postEv (keeps_modGang (keeps_dueBeat h))

theorem keeps_retimeBeat (h : Keeps s₀ s) : Keeps s₀ (retimeBeat s g) := keeps_ite (keeps_dueBeat h) h

theorem keeps_seeArrival {src : TileName} (h : Keeps s₀ s) : Keeps s₀ (seeArrival s dst src) := by
  unfold seeArrival
  extract_lets _ s₁ _ d s₂ s₃ s₄
  have h₁ : Keeps s₀ s₁ := keeps_modGang h
  have h₄ : Keeps s₀ s₄ :=
    keeps_ite (keeps_modGang (keeps_retimeBeat (keeps_forTiles h₁ fun _ _ => keeps_modSlab))) h₁
  exact keeps_ite (keeps_foldl h₄ fun _ _ h' => keeps_postEv (keeps_modGang h')) h₄

theorem keeps_announce (h : Keeps s₀ s) : Keeps s₀ (announce s g) := by
  unfold announce
  exact keeps_seeArrival (keeps_foldl (keeps_ite (keeps_raise h) h) fun _ _ h' => keeps_ite h' (keeps_enqueue h'))

theorem keeps_startWait {w : WaitKind} (h : Keeps s₀ s) : Keeps s₀ (startWait s g w) := by
  unfold startWait
  extract_lets
  split
  · exact keeps_postEv h
  · exact keeps_postEv h
  · exact keeps_announce h
  · exact keeps_postEv h
  · exact keeps_postEv h
  · exact keeps_postEv (keeps_forTiles h fun _ _ => keeps_postAct)
  · exact keeps_postEv h
  · exact keeps_postEv (keeps_freeDelay h)

theorem keeps_enterWaits {ws : List WaitKind} (h : Keeps s₀ s) : Keeps s₀ (enterWaits s g ws) := by
  unfold enterWaits
  exact keeps_foldl (keeps_modGang h) fun _ _ => keeps_startWait

theorem keeps_endFault {x : EndTrap} (h : Keeps s₀ s) : Keeps s₀ (endFault s is x) := by
  unfold endFault
  extract_lets _ s₁
  have h₁ : Keeps s₀ s₁ := by
    unfold s₁
    split
    · exact keeps_raise h
    · exact keeps_raise h
  exact keeps_postBundle (keeps_modGang h₁)

theorem keeps_deliverEvent {next : Nat} (h : Keeps s₀ s) : Keeps s₀ (deliverEvent s g next w) := by
  unfold deliverEvent
  exact keeps_postBundle (keeps_segmentNext (keeps_modGang h))

theorem keeps_haltGang {code : Word} (h : Keeps s₀ s) : Keeps s₀ (haltGang s g code) := by
  unfold haltGang
  exact keeps_postEv (keeps_modTask (keeps_modGang h))

theorem keeps_takePoint {kinds : BitVec 3} {next : Nat} {ws : List WaitKind} (h : Keeps s₀ s) :
    Keeps s₀ (takePoint s g kinds next ws) := by
  unfold takePoint
  exact keeps_ite (keeps_postAct (keeps_freeDelay (keeps_modGang h))) (keeps_modGang h)

theorem keeps_blockEnd (h : Keeps s₀ s) : Keeps s₀ (blockEnd s is) := by
  unfold blockEnd
  extract_lets
  split
  · exact keeps_endFault h
  · extract_lets _ _ _ _ s₁ s₂ s₃ s₄ s₅ _ s₆
    have h₂ : Keeps s₀ s₂ := keeps_ite (keeps_raise (keeps_modGang h)) (keeps_modGang h)
    have h₄ : Keeps s₀ s₄ := by
      unfold s₄
      split
      · exact keeps_ite (keeps_raiseAux (keeps_bumpCounter h₂)) (keeps_bumpCounter h₂)
      · exact h₂
    have h₅ : Keeps s₀ s₅ := keeps_ite (keeps_raise h₄) h₄
    have h₆ : Keeps s₀ s₆ := keeps_ite (keeps_segmentNext (keeps_modGang h₅)) h₅
    split
    · exact keeps_endFault h
    · refine keeps_ite (keeps_haltGang h₅) (keeps_ite (keeps_takePoint h₅) (keeps_ite (keeps_enterWaits h₅) ?_))
      split
      · exact keeps_deliverEvent h₅
      · exact keeps_postBundle h₆

theorem keeps_openBundle (h : Keeps s₀ s) : Keeps s₀ (openBundle s g) := by
  unfold openBundle
  refine keeps_ite h (keeps_ite (keeps_postEv (keeps_bumpCounter (keeps_ite h (keeps_raise h)))) ?_)
  extract_lets _ _ bad s₁ s₂ _ _ s₃
  have h₂ : Keeps s₀ s₂ := keeps_bumpCounter (keeps_matchBreak h)
  have h₃ : Keeps s₀ s₃ := keeps_ite h₂ (keeps_modSlabs h₂)
  cases bad with
  | some i => exact (keeps_raise h₂).of_core rfl
  | none => exact h₃.of_core rfl

theorem keeps_closeBundle (h : Keeps s₀ s) : Keeps s₀ (closeBundle s is) := by
  unfold closeBundle
  refine keeps_ite (keeps_blockEnd (keeps_modGang (h.of_core rfl))) ?_
  exact keeps_postBundle (keeps_modGang (h.of_core rfl))

theorem keeps_execBundleIssue (h : Keeps s₀ s) : KeepsNext s₀ (execBundleIssue g s) := by
  unfold execBundleIssue
  split
  · exact keepsNext_next (keeps_closeBundle h)
  · exact keepsNext_next (keeps_openBundle h)

theorem keeps_again {i : Instr} (h : Keeps s₀ s) : Keeps s₀ (again s g i) := keeps_postEv h

theorem keeps_execWaitevComplete (h : Keeps s₀ s) : KeepsNext s₀ (execWaitevComplete s) := by
  unfold execWaitevComplete
  split
  · split
    · refine keepsNext_ite (keepsNext_next (keeps_waitDone (keeps_putFE h))) ?_
      split
      · exact keepsNext_next (keeps_again h)
      · exact keepsNext_next (keeps_waitDone (keeps_putFE (keeps_modGang h)))
    · exact keepsNext_next h
  · exact keepsNext_fault _

theorem keeps_execCycwaitComplete (h : Keeps s₀ s) : KeepsNext s₀ (execCycwaitComplete s) := by
  unfold execCycwaitComplete
  split
  · split
    · exact keepsNext_next (keeps_waitDone h)
    · exact keepsNext_next h
  · exact keepsNext_fault _

theorem keeps_execCycalignComplete (h : Keeps s₀ s) : KeepsNext s₀ (execCycalignComplete s) := by
  unfold execCycalignComplete
  split
  · exact keepsNext_next (keeps_waitDone h)
  · exact keepsNext_fault _

theorem keeps_execAlignmentArrival (h : Keeps s₀ s) : KeepsNext s₀ (execAlignmentArrival s) := by
  unfold execAlignmentArrival
  split
  · exact keepsNext_next (keeps_seeArrival h)
  · exact keepsNext_fault _

theorem keeps_execSysAnswer (h : Keeps s₀ s) : KeepsNext s₀ (execSysAnswer s) := by
  unfold execSysAnswer
  split
  · split
    · exact keepsNext_next (keeps_waitDone (keeps_putFE h))
    · exact keepsNext_next h
  · exact keepsNext_fault _

/-! #### The barrier unit B -/

theorem keeps_barStep {g : BitVec 5} {f : Issue → State → Owner → Word → Nat → State} (h : Keeps s₀ s)
    (hf : ∀ x1 s x3 x4 x5, Keeps s₀ s → Keeps s₀ (f x1 s x3 x4 x5)) :
    KeepsNext s₀ (barStep s g port src f) := keeps_slotStep h fun _ _ h' => keeps_untagged h' fun _ h'' => hf _ _ _
        _ _ h''

theorem keeps_barFault (h : Keeps s₀ s) : Keeps s₀ (barFault s own cause n) := keeps_raiseAux h

theorem keeps_execBarinit {g : BitVec 5} (h : Keeps s₀ s) : KeepsNext s₀ (execBarinit g src s) := by
  unfold execBarinit
  refine keeps_barStep h fun _ _ _ _ _ h' => ?_
  refine keeps_ite (keeps_raiseAux h') ?_
  exact keeps_ite (keeps_barFault h') (keeps_ite (keeps_barFault h') (keeps_postAct h'))

theorem keeps_execBararr {g : BitVec 5} (h : Keeps s₀ s) : KeepsNext s₀ (execBararr g src s) := by
  unfold execBararr
  refine keeps_barStep h fun _ _ _ _ _ h' => ?_
  refine keeps_ite (keeps_barFault h') ?_
  refine keeps_ite (keeps_barFault h') ?_
  exact keeps_ite (keeps_raiseAux h') (keeps_ite (keeps_raise h') (keeps_enqueue (keeps_postLand h')))

theorem keeps_execBarwait {g : BitVec 5} (h : Keeps s₀ s) : KeepsNext s₀ (execBarwait g src s) :=
  keeps_barStep h fun _ _ _ _ _ h' => keeps_ite (keeps_barFault h') (keeps_recordWait h')

theorem keeps_execBartest {g : BitVec 5} (h : Keeps s₀ s) : KeepsNext s₀ (execBartest g src s) :=
  keeps_barStep h fun _ _ _ _ _ => keeps_postAct

theorem keeps_barxOp {out : Bool} {g : BitVec 5} (h : Keeps s₀ s) : KeepsNext s₀ (barxOp out port g src s) :=
  keeps_barStep h fun _ _ _ _ _ h' => keeps_ite (keeps_barFault h') (keeps_postAct h')

theorem keeps_postBarCheck {t : Nat} (h : Keeps s₀ s) : Keeps s₀ (postBarCheck s own t n) := keeps_post h

theorem keeps_landBarWrite {t : Nat} {r : BarRec} (h : Keeps s₀ s) : Keeps s₀ (landBarWrite s own t n r) :=
  keeps_postBarCheck (keeps_putBar h)

theorem keeps_landBarAdd {t : Nat} {out : Bool} {k : BitVec 32} (h : Keeps s₀ s) :
    Keeps s₀ (landBarAdd s own t n out k) := by
  unfold landBarAdd
  exact keeps_postBarCheck (keeps_putBar h)

theorem keeps_landBarHeld {t : Nat} (h : Keeps s₀ s) : Keeps s₀ (landBarHeld s t n) := keeps_putBar h

theorem keeps_landBarTest {t : Nat} (h : Keeps s₀ s) : Keeps s₀ (landBarTest s own t n) := keeps_landSl h

theorem keeps_landBarCheck {t : Nat} (h : Keeps s₀ s) : Keeps s₀ (landBarCheck s own t n) := by
  unfold landBarCheck
  exact keeps_ite h (keeps_foldl (keeps_modSlab (keeps_putBar h)) fun _ _ => keeps_scheduleSend)

theorem keeps_execArrivalDelivery (h : Keeps s₀ s) : KeepsNext s₀ (execArrivalDelivery s) := by
  unfold execArrivalDelivery
  split
  · refine keepsNext_ite (keepsNext_next (keeps_raiseDelivery h)) ?_
    refine keepsNext_ite (keepsNext_next (keeps_raiseDelivery h)) ?_
    refine keepsNext_ite (keepsNext_next (keeps_raiseDelivery h)) ?_
    exact keepsNext_next (keeps_postBarCheck (keeps_ite (keeps_modSlab (keeps_putBar h)) (keeps_putBar h)))
  · exact keepsNext_fault _

theorem keeps_execReleaseDelivery (h : Keeps s₀ s) : KeepsNext s₀ (execReleaseDelivery s) := by
  unfold execReleaseDelivery
  split
  · exact keepsNext_ite (keepsNext_next (keeps_putBar h)) (keepsNext_next (keeps_raiseDelivery h))
  · exact keepsNext_fault _

theorem keeps_execBarwaitComplete (h : Keeps s₀ s) : KeepsNext s₀ (execBarwaitComplete s) := by
  unfold execBarwaitComplete
  split
  · split
    · exact keepsNext_ite (keepsNext_next (keeps_waitDone (keeps_modGang h))) (keepsNext_next (keeps_again h))
    · exact keepsNext_next h
  · exact keepsNext_fault _

/-! #### Loads, stores, atomics and fences -/

theorem keeps_launchAccess {p : Place} {acc : MemAccess} (h : Keeps s₀ s) :
    Keeps s₀ (launchAccess s own t p acc) := by
  unfold launchAccess
  refine keeps_ite (keeps_ite (keeps_postAct (keeps_postEv h)) (keeps_postEv h)) ?_
  exact keeps_ite (keeps_postAct (keeps_postAct h)) (keeps_postAct h)

theorem keeps_slabAccess {u : BitVec 2} {k : MemKind} {o : MemOpds} {p : Place} (h : Keeps s₀ s) :
    Keeps s₀ (slabAccess s own u k ts t o p) := by
  unfold slabAccess
  exact keeps_ite h (keeps_launchAccess h)

theorem keeps_memTrigger {u : BitVec 2} {k : MemKind} {generic : Bool} (h : Keeps s₀ s) :
    Keeps s₀ (memTrigger s is u k generic src) := by
  unfold memTrigger
  extract_lets
  split
  · exact keeps_consumeDF h
  · split
    · exact keeps_raiseAux h
    · split
      · exact keeps_raiseAux h
      · refine keeps_ite (keeps_raise h) (keeps_ite (keeps_raiseAux h) ?_)
        refine keeps_foldl (keeps_ite (keeps_modGang h) h) fun _ _ h' => ?_
        split
        · exact keeps_slabAccess h'
        · exact h'

theorem keeps_specTrigger {u : BitVec 2} (h : Keeps s₀ s) : Keeps s₀ (specTrigger s is u n src) := by
  unfold specTrigger
  refine keeps_forTiles h fun _ _ h' => keeps_ite (keeps_postLand h') ?_
  split
  · exact keeps_postLand h'
  · exact keeps_slabAccess h'

theorem keeps_memOp {kind : MemKind} {generic : Bool} {g : BitVec 5} {u : BitVec 2} (h : Keeps s₀ s) :
    KeepsNext s₀ (memOp k kind generic g u src s) := keeps_slotStep h fun _ _ => keeps_memTrigger

theorem keeps_ldsOp {g : BitVec 5} {u : BitVec 2} (h : Keeps s₀ s) : KeepsNext s₀ (ldsOp k n g u src s) :=
  keeps_slotStep h fun _ _ => keeps_specTrigger

theorem keeps_fenceOp {g : BitVec 5} {u : BitVec 2} (h : Keeps s₀ s) : KeepsNext s₀ (fenceOp k g u src s) := by
  unfold fenceOp
  refine keeps_slotStep h fun _ _ h' => ?_
  refine keeps_untagged h' fun _ h'' => ?_
  exact keeps_ite (keeps_raiseAux h'') (keeps_ite (keeps_ite (keeps_raiseAux h'') (keeps_modGang h'')) h'')

theorem keeps_arrayAct {a : MemAccess} (h : Keeps s₀ s) : KeepsFst s₀ (arrayAct s a) := by
  unfold arrayAct
  split
  · exact h
  · exact keeps_padStore h
  · extract_lets
    split
    · exact keeps_padStore h
    · exact h

theorem keeps_raiseUnflushed (h : Keeps s₀ s) : Keeps s₀ (raiseUnflushed s own k) := keeps_ite h (keeps_raiseAux h)

theorem keeps_postResult {a : MemAccess} {back : Nat} {far : Bool} {v : Word} (h : Keeps s₀ s) :
    Keeps s₀ (postResult s own a back far v) :=
  keeps_ite h (keeps_ite (keeps_postLand h) (keeps_foldl h fun _ _ => keeps_postLand))

theorem keeps_landAccess {a : MemAccess} {back : Nat} {far : Bool} (h : Keeps s₀ s) :
    Keeps s₀ (landAccess s own a back far) := by
  unfold landAccess
  split
  next ha =>
    split
    · exact keeps_raiseUnflushed h
    · extract_lets s₁
      have h₁ : Keeps s₀ s₁ := keeps_postResult ((keeps_arrayAct h).of_eq ha)
      split
      · exact keeps_ite (keeps_postLand h₁) h₁
      · exact h₁

theorem keeps_execRemoteAccessArrival (h : Keeps s₀ s) : KeepsNext s₀ (execRemoteAccessArrival s) := by
  unfold execRemoteAccessArrival
  split
  · exact keepsNext_next (keeps_landAccess h)
  · exact keepsNext_fault _

/-! #### The vector unit V -/

theorem keeps_landFlaggedOf {outs : List (Action × FlagSet)} (h : Keeps s₀ s) :
    Keeps s₀ (landFlaggedOf s own lat outs) := by
  unfold landFlaggedOf
  extract_lets
  split
  · exact keeps_raiseAux (keeps_setFlags h)
  · exact keeps_foldl (keeps_setFlags h) fun _ _ => keeps_postLand

theorem keeps_landFlagged {outs : List (Action × FlagSet)} (h : Keeps s₀ s) :
    Keeps s₀ (landFlagged s is lat outs) :=
  keeps_landFlaggedOf h

theorem keeps_vecStep {g : BitVec 5} {f : State → Issue → TileName → Action × FlagSet} (h : Keeps s₀ s) :
    KeepsNext s₀ (vecStep s g port lat src f) := by
  unfold vecStep
  refine keeps_slotStep h fun _ _ h' => ?_
  extract_lets
  split
  · exact keeps_consumeDF h'
  · exact keeps_landFlagged h'

theorem keeps_laneOp {res : Nat} {f : BitVec 32 → BitVec 32 → BitVec 32 → BitVec 32 × FlagSet} {g : BitVec 5}
    (h : Keeps s₀ s) :
    KeepsNext s₀ (laneOp port res lat f g src s) := keeps_vecStep h

theorem keeps_cmpOp {f : BitVec 32 → BitVec 32 → Bool} {g : BitVec 5} (h : Keeps s₀ s) :
    KeepsNext s₀ (cmpOp port f g src s) := keeps_vecStep h

theorem keeps_execVcvt {g : BitVec 5} (h : Keeps s₀ s) : KeepsNext s₀ (execVcvt g src s) := by
  unfold execVcvt
  refine keeps_slotStep h fun _ _ h' => ?_
  extract_lets
  split
  · exact keeps_consumeDF h'
  · split
    · exact keeps_raiseAux h'
    · exact keeps_landFlagged h'

theorem keeps_redOp {f : VOpds → Vec → Word × FlagSet} {g : BitVec 5} (h : Keeps s₀ s) :
    KeepsNext s₀ (redOp port f g src s) := keeps_vecStep h

theorem keeps_maskOp {res : Nat} {f : Nat → Word → Word → Word} {g : BitVec 5} (h : Keeps s₀ s) :
    KeepsNext s₀ (maskOp port res f g src s) :=
  keeps_slotStep h fun _ _ h' => keeps_untagged h' fun _ h'' => keeps_foldl h'' fun _ _ => keeps_postLand

theorem keeps_vmemChecked {ms : List VMem} {writes : Bool} {f : State → State} (h : Keeps s₀ s)
    (hf : ∀ s, Keeps s₀ s → Keeps s₀ (f s)) :
    Keeps s₀ (vmemChecked s is ms lat writes f) := by
  unfold vmemChecked
  extract_lets
  split
  · exact keeps_raiseAux h
  · split
    · exact keeps_raiseAux h
    · exact hf _ h

theorem keeps_vloadAll {ms : List VMem} (h : Keeps s₀ s) : Keeps s₀ (vloadAll s is ms port) :=
  keeps_vmemChecked h fun _ h' => keeps_foldl h' fun _ _ => keeps_postAct

theorem keeps_vstoreAll {ms : List VMem} {shape : Nat} (h : Keeps s₀ s) :
    Keeps s₀ (vstoreAll s is ms lat shape) := by
  unfold vstoreAll
  refine keeps_vmemChecked h fun _ h' => ?_
  extract_lets
  split
  · exact keeps_raiseAux h'
  · exact keeps_foldl (keeps_setFlags h') fun _ _ => keeps_postAct

theorem keeps_execVld {g : BitVec 5} (h : Keeps s₀ s) : KeepsNext s₀ (execVld g src s) :=
  keeps_slotStep h fun _ _ h' => keeps_untagged h' fun _ => keeps_vloadAll

theorem keeps_vmemVec {g : BitVec 5} {lanes : State → Issue → TileName → VOpds → Vec → VMem}
    {f : State → Issue → List VMem → State} (h : Keeps s₀ s) (hf : ∀ s x2 x3, Keeps s₀ s → Keeps s₀ (f s x2 x3)) :
    KeepsNext s₀ (vmemVec s g port src lanes f) := by
  unfold vmemVec
  refine keeps_slotStep h fun _ _ h' => ?_
  extract_lets
  split
  · exact keeps_consumeDF h'
  · exact hf _ _ _ h'

theorem keeps_execVgath {g : BitVec 5} (h : Keeps s₀ s) : KeepsNext s₀ (execVgath g src s) :=
  keeps_vmemVec h fun _ _ _ => keeps_vloadAll

theorem keeps_landVload {ls : List (Nat × Nat)} (h : Keeps s₀ s) : Keeps s₀ (landVload s own t port ls) := by
  unfold landVload
  exact keeps_postLand h

theorem keeps_landVstore {ws : List (Nat × Nat × BitVec 32)} (h : Keeps s₀ s) : Keeps s₀ (landVstore s t ws) :=
  keeps_foldl h fun _ _ => keeps_padStore

/-! #### Interpolation and transposer -/

theorem keeps_execFload {g : BitVec 5} (h : Keeps s₀ s) : KeepsNext s₀ (execFload g src s) := by
  unfold execFload
  refine keeps_slotStep h fun _ _ h' => keeps_untagged h' fun _ h'' => ?_
  extract_lets
  split
  · exact keeps_raiseAux h''
  · split
    · exact keeps_raiseAux h''
    · exact keeps_forTiles h'' fun _ _ h''' => keeps_foldl (keeps_modSlab h''') fun _ _ => keeps_postAct

theorem keeps_landFloadRow {r : Nat} (h : Keeps s₀ s) : Keeps s₀ (landFloadRow s t a r) := keeps_modSlab h

theorem keeps_execFeval {g : BitVec 5} (h : Keeps s₀ s) : KeepsNext s₀ (execFeval g src s) := by
  unfold execFeval
  refine keeps_slotStep h fun _ _ h' => ?_
  extract_lets
  split
  · exact keeps_consumeDF h'
  · split
    · exact keeps_raiseAux h'
    · split
      · exact keeps_raiseAux h'
      · exact keeps_postAct h'

theorem keeps_landFeval {xs : List (TileName × Word × Word × Vec)} (h : Keeps s₀ s) :
    Keeps s₀ (landFeval s own xs) :=
  keeps_landFlaggedOf h

theorem keeps_execXpush {g : BitVec 5} (h : Keeps s₀ s) : KeepsNext s₀ (execXpush g src s) := by
  unfold execXpush
  refine keeps_slotStep h fun _ _ h' => ?_
  extract_lets
  split
  · exact keeps_consumeDF h'
  · split
    · exact keeps_raiseAux h'
    · exact keeps_forTiles h' fun _ _ => keeps_modSlab

theorem keeps_execXpop {g : BitVec 5} (h : Keeps s₀ s) : KeepsNext s₀ (execXpop g src s) := by
  unfold execXpop
  refine keeps_slotStep h fun _ _ h' => keeps_untagged h' fun _ h'' => ?_
  split
  · exact keeps_raiseAux h''
  · refine keeps_forTiles h'' fun _ _ h''' => ?_
    extract_lets s₁
    have h₁ : Keeps s₀ s₁ := by
      unfold s₁
      split
      · exact keeps_postLand h'''
      · exact h'''
    exact keeps_modSlab h₁

theorem keeps_landXclr (h : Keeps s₀ s) : Keeps s₀ (landXclr s t) := keeps_modSlab h

/-! #### Tokens, soft events and rings -/

theorem keeps_execTokput {g : BitVec 5} (h : Keeps s₀ s) : KeepsNext s₀ (execTokput g src s) := by
  unfold execTokput
  refine keeps_barStep h fun _ _ _ _ _ h' => ?_
  extract_lets
  split
  · exact keeps_raiseAux h'
  · exact keeps_ite (keeps_raise h') (keeps_enqueue h')

theorem keeps_execTokget {g : BitVec 5} (h : Keeps s₀ s) : KeepsNext s₀ (execTokget g src s) := by
  unfold execTokget
  refine keeps_barStep h fun _ _ _ _ _ h' => ?_
  extract_lets
  split
  · exact keeps_raiseAux h'
  · exact keeps_ite (keeps_raiseAux h') (keeps_postAct h')

theorem keeps_landTokGet (h : Keeps s₀ s) : Keeps s₀ (landTokGet s own t a) := by
  unfold landTokGet
  split
  extract_lets s₁ s₂
  have h₂ : Keeps s₀ s₂ := keeps_foldl (keeps_ite (keeps_padStore h) h) fun _ _ => keeps_postLand
  exact keeps_ite (keeps_postLand h₂) h₂

theorem keeps_execTokenDelivery (h : Keeps s₀ s) : KeepsNext s₀ (execTokenDelivery s) := by
  unfold execTokenDelivery
  split
  · exact keepsNext_next (keeps_ite (keeps_postEventAt (keeps_padStore h)) (keeps_padStore h))
  · exact keepsNext_fault _

theorem keeps_execSoftEventDelivery (h : Keeps s₀ s) : KeepsNext s₀ (execSoftEventDelivery s) := by
  unfold execSoftEventDelivery
  split
  · extract_lets
    split
    · exact keepsNext_next (h.of_core rfl)
    · exact keepsNext_ite (keepsNext_next (h.of_core rfl)) (keepsNext_next (keeps_postEvent h))
  · exact keepsNext_fault _

theorem keeps_execRingput {g : BitVec 5} (h : Keeps s₀ s) : KeepsNext s₀ (execRingput g src s) := by
  unfold execRingput
  refine keeps_barStep h fun _ _ _ _ _ h' => ?_
  exact keeps_ite (keeps_raise h') (keeps_ite (keeps_raiseAux h') (keeps_enqueue h'))

theorem keeps_modRing {r : Nat} {f : HostRing → HostRing} (h : Keeps s₀ s) :
    Keeps s₀ (modRing s c r f) := keeps_modCtx h

theorem keeps_postWrite {addr : Word} {bs : List Byte} (h : Keeps s₀ s) :
    Keeps s₀ (postWrite s addr bs) := keeps_tell h

theorem keeps_ringIrq {r : Nat} {x : HostRing} (h : Keeps s₀ s) :
    Keeps s₀ (ringIrq s c r x) := keeps_tell (keeps_modRing h)

theorem keeps_ringTimer {r : Nat} {x : HostRing} (h : Keeps s₀ s) : Keeps s₀ (ringTimer s c r x) :=
  keeps_ite (keeps_postEv h) h

theorem keeps_ringTimers (h : Keeps s₀ s) : Keeps s₀ (ringTimers s c) := keeps_foldl h fun _ _ => keeps_ringTimer

theorem keeps_ringWrite {r : Nat} {payload : Word} {source : BitVec 16} {disp : BitVec 8} (h : Keeps s₀ s) :
    Keeps s₀ (ringWrite s c r payload source disp) := by
  unfold ringWrite
  split
  · exact h
  · refine keeps_ite (keeps_modRing h) ?_
    extract_lets _ _ s₁
    have h₁ : Keeps s₀ s₁ := keeps_postWrite (keeps_modRing h)
    exact keeps_ite (keeps_ringIrq h₁) (keeps_ite (keeps_ringTimer h₁) h₁)

theorem keeps_execHostRingEntryWrite (h : Keeps s₀ s) : KeepsNext s₀ (execHostRingEntryWrite s) := by
  unfold execHostRingEntryWrite
  split
  · exact keepsNext_next (keeps_ringWrite h)
  · exact keepsNext_fault _

theorem keeps_execRingCoalesceTimeout (h : Keeps s₀ s) : KeepsNext s₀ (execRingCoalesceTimeout s) := by
  unfold execRingCoalesceTimeout
  split
  · split
    · exact keepsNext_next (keeps_ite (keeps_ringIrq h) h)
    · exact keepsNext_next h
  · exact keepsNext_fault _

theorem keeps_postToEventGangs {c : Option Nat} (h : Keeps s₀ s) : Keeps s₀ (postToEventGangs s c cls w) :=
  keeps_foldl h fun _ _ => keeps_postEvent

theorem keeps_execRingHeadAdvance (h : Keeps s₀ s) : KeepsNext s₀ (execRingHeadAdvance s) := by
  unfold execRingHeadAdvance
  split
  · split
    · exact keepsNext_next (keeps_ite (keeps_modCtx h) h)
    · exact keepsNext_next (keeps_postToEventGangs (keeps_modRing h))
  · exact keepsNext_fault _

theorem keeps_execRingSet (h : Keeps s₀ s) : KeepsNext s₀ (execRingSet s) := by
  unfold execRingSet
  split
  · refine keepsNext_ite (keepsNext_next (keeps_answer h)) ?_
    exact keepsNext_ite (keepsNext_next (keeps_answer h)) (keepsNext_next (keeps_answer (keeps_modCtx h)))
  · exact keepsNext_fault _

/-! #### Collectives -/

theorem keeps_execColl {g : BitVec 5} (h : Keeps s₀ s) : KeepsNext s₀ (execColl g src s) := by
  unfold execColl
  refine keeps_barStep h fun _ _ _ _ _ h' => keeps_ite (keeps_raiseAux h')
      (keeps_ite (keeps_raiseAux h') (keeps_ite (keeps_raise h') ?_))
  split
  · exact keeps_raise h'
  · split
    · exact keeps_raise h'
    · split
      · exact keeps_raiseAux h'
      · refine keeps_ite (keeps_raise h') ?_
        exact keeps_ite (keeps_raise h') (keeps_enqueue (keeps_postAct (keeps_modGang (keeps_modCtx h'))))

theorem keeps_landCollRead (h : Keeps s₀ s) : Keeps s₀ (landCollRead s own t a comm inst) := by
  unfold landCollRead
  exact keeps_modCtx (keeps_ite (keeps_modGang h) h)

theorem keeps_execCollwait {g : BitVec 5} (h : Keeps s₀ s) : KeepsNext s₀ (execCollwait g src s) :=
  keeps_barStep h fun _ _ _ _ _ => keeps_recordWait

theorem keeps_putCollStatus (h : Keeps s₀ s) :
    Keeps s₀ (putCollStatus s g w) := keeps_forTiles h fun _ _ => keeps_putSl

theorem keeps_execCollwaitComplete (h : Keeps s₀ s) : KeepsNext s₀ (execCollwaitComplete s) := by
  unfold execCollwaitComplete
  split
  · split
    · exact keepsNext_next h
    · extract_lets
      split
      · exact keepsNext_next (keeps_waitDone (keeps_putCollStatus (keeps_modGang h)))
      · exact keepsNext_next (keeps_waitDone (keeps_putCollStatus (keeps_modGang (keeps_modGang h))))
      · exact keepsNext_next (keeps_again (keeps_modGang h))
  · exact keepsNext_fault _

theorem keeps_writeResult {bytes : List Byte} (h : Keeps s₀ s) : Keeps s₀ (writeResult s t a bytes) :=
  keeps_foldl h fun _ _ => keeps_padStore

theorem keeps_collEnded {e : TileName × CollOut} (h : Keeps s₀ s) : Keeps s₀ (collEnded s c e w) :=
  keeps_ite (keeps_modCtx h) (keeps_modGang h)

theorem keeps_endCollective {st : Nat} (h : Keeps s₀ s) : Keeps s₀ (endCollective s c comm inst st) := by
  unfold endCollective
  exact keeps_modCtx (keeps_foldl h fun _ _ => keeps_collEnded)

theorem keeps_formResult {cs : List Contribution} (h : Keeps s₀ s) : Keeps s₀ (formResult s c comm inst cs) := by
  unfold formResult
  refine keeps_ite (keeps_endCollective h) ?_
  exact keeps_modCtx (keeps_foldl h fun _ _ h' => keeps_collEnded (keeps_writeResult h'))

theorem keeps_settleColls (h : Keeps s₀ s) : Keeps s₀ (settleColls s c) := by
  unfold settleColls
  refine keeps_ite h ?_
  refine keeps_foldl h fun _ _ h' => ?_
  split
  · exact h'
  · exact keeps_ite (keeps_ite (keeps_modCtx (keeps_formResult h')) (keeps_formResult h')) h'

theorem keeps_addContribution {x : Contribution} (h : Keeps s₀ s) : Keeps s₀ (addContribution s c comm inst x) := by
  unfold addContribution
  split
  · exact h
  · exact keeps_ite h (keeps_settleColls (keeps_modCtx h))

theorem keeps_modPort {f : Port → Port} (h : Keeps s₀ s) : Keeps s₀ (modPort s p f) := h.of_core rfl

theorem keeps_sendFrame {dst : Nat} {job : BitVec 32} {payload : List Byte} (h : Keeps s₀ s) :
    Keeps s₀ (sendFrame s p dst job payload) := by
  unfold sendFrame
  exact keeps_ite (keeps_postEv (keeps_modPort (keeps_tell h))) (keeps_modPort (keeps_tell h))

theorem keeps_sendContribution {x : Contribution} (h : Keeps s₀ s) :
    Keeps s₀ (sendContribution s c comm inst x) := by
  unfold sendContribution
  split
  · exact h
  · refine keeps_foldl h fun _ _ h' => ?_
    split
    · exact keeps_endCollective h'
    · exact keeps_foldl h' fun _ _ => keeps_sendFrame

theorem keeps_restartContributions (h : Keeps s₀ s) : Keeps s₀ (restartContributions s c) :=
  keeps_foldl h fun _ _ h' => keeps_ite h' (keeps_postEv (keeps_freeDelay h'))

theorem keeps_resendContributions (h : Keeps s₀ s) : Keeps s₀ (resendContributions s c) := by
  unfold resendContributions
  refine keeps_ite h ?_
  extract_lets s₁
  have h₁ : Keeps s₀ s₁ := by
    unfold s₁
    refine keeps_foldl h fun _ _ h' => ?_
    split
    · exact h'
    · exact keeps_foldl h' fun _ _ => keeps_sendContribution
  exact keeps_settleColls (keeps_restartContributions h₁)

theorem keeps_contributionArrives {rank : Nat} (h : Keeps s₀ s) :
    Keeps s₀ (contributionArrives s c comm rank inst) := by
  unfold contributionArrives
  split
  · exact h
  · exact keeps_ite (keeps_addContribution h) (keeps_sendContribution (keeps_addContribution h))

theorem keeps_execCollContributionArrival (h : Keeps s₀ s) : KeepsNext s₀ (execCollContributionArrival s) := by
  unfold execCollContributionArrival
  split
  · exact keepsNext_next (keeps_contributionArrives h)
  · exact keepsNext_fault _

theorem keeps_execCommSet (h : Keeps s₀ s) : KeepsNext s₀ (execCommSet s) := by
  unfold execCommSet
  split
  · refine keepsNext_ite (keepsNext_next (keeps_answer h)) ?_
    exact keepsNext_ite (keepsNext_next (keeps_answer h)) (keepsNext_next (keeps_answer (keeps_modCtx h)))
  · exact keepsNext_fault _

/-! #### Global memory through a page table -/

theorem keeps_gvaWrite {bs : List Byte} (h : Keeps s₀ s) : Keeps s₀ (gvaWrite s c va bs) := by
  refine keeps_foldl h fun _ _ h' => ?_
  dsimp only
  split
  · exact h'.of_vault fun w => memWrite_wf w _ _
  · exact h'

theorem keeps_gvaPutNat (h : Keeps s₀ s) : Keeps s₀ (gvaPutNat s c va n v) := keeps_gvaWrite h

theorem keeps_gvaLogged {bs : List Byte} (h : Keeps s₀ s) : KeepsFst s₀ (gvaLogged s own va bs) := by
  unfold gvaLogged
  extract_lets n r
  refine KeepsFst.fst (keepsFst_foldl h fun ⟨s', ok, full⟩ i h' => ?_)
  dsimp only
  split
  · split
    · split
      · exact h'
      · exact keepsFst_mk (keeps_vaultWriteLine h')
    · exact h'
  · exact h'

theorem keeps_putQueueField {off : Nat} (h : Keeps s₀ s) : Keeps s₀ (putQueueField s c q off v) := keeps_gvaPutNat h

theorem keeps_advanceHead (h : Keeps s₀ s) : Keeps s₀ (advanceHead s c q) := by
  unfold advanceHead
  split
  · exact keeps_putQueueField h
  · exact h

theorem keeps_errorEntry {code : Nat} {tag : BitVec 32} (h : Keeps s₀ s) :
    Keeps s₀ (errorEntry s c q idx code tag) := by
  unfold errorEntry
  split
  · exact h
  · refine keeps_ite (keeps_putQueueField (keeps_putQueueField (keeps_gvaWrite h))) ?_
    exact keeps_putQueueField (keeps_gvaWrite h)

theorem keeps_completionEntry {x : Completion} (h : Keeps s₀ s) : Keeps s₀ (completionEntry s x) := by
  unfold completionEntry
  extract_lets _ _ s₁ s₂
  have h₂ : Keeps s₀ s₂ := by
    refine keeps_tell ?_
    unfold s₁
    split
    · exact h
    · exact keeps_putQueueField (keeps_gvaWrite h)
  split
  · exact keeps_ringWrite h₂
  · exact h₂

/-! #### Tag table, region map and bank hand-over -/

theorem keeps_lUntagged {u : BitVec 2} {ks : List Nat} {f : State → State} (h : Keeps s₀ s)
    (hf : ∀ s, Keeps s₀ s → Keeps s₀ (f s)) :
    Keeps s₀ (lUntagged s is u src ks f) := by
  unfold lUntagged
  split
  · exact keeps_consumeDF h
  · exact hf _ h

theorem keeps_landTagLook (h : Keeps s₀ s) : Keeps s₀ (landTagLook s own t port vpn) := keeps_postLand h

theorem keeps_tagChange {u : BitVec 2} {slot : TileName → Nat} {act : TileName → Action} (h : Keeps s₀ s) :
    Keeps s₀ (tagChange s is u slot act) := by
  unfold tagChange
  extract_lets
  split
  · exact keeps_raiseAux h
  · exact keeps_forTiles h fun _ _ => keeps_postAct

theorem keeps_execTagset {g : BitVec 5} {u : BitVec 2} (h : Keeps s₀ s) : KeepsNext s₀ (execTagset g u src s) :=
  keeps_slotStep h fun _ _ h' => keeps_lUntagged h' fun _ => keeps_tagChange

theorem keeps_execTagclr {g : BitVec 5} {u : BitVec 2} (h : Keeps s₀ s) : KeepsNext s₀ (execTagclr g u src s) := by
  unfold execTagclr
  refine keeps_slotStep h fun _ _ h' => ?_
  exact keeps_lUntagged h' fun _ h'' => keeps_forTiles (keeps_tagChange h'') fun _ _ => keeps_postAct

theorem keeps_landTagWrite {slot : Nat} {v : Word} (h : Keeps s₀ s) : Keeps s₀ (landTagWrite s t slot v) :=
  keeps_padPutWord h

theorem keeps_landTagClear {slot : Nat} (h : Keeps s₀ s) : Keeps s₀ (landTagClear s t slot) :=
  keeps_cleanSlot (keeps_padPutWord h)

theorem keeps_execRgnmap {g : BitVec 5} {u : BitVec 2} (h : Keeps s₀ s) : KeepsNext s₀ (execRgnmap g u src s) := by
  unfold execRgnmap
  refine keeps_slotStep h fun _ _ h' => keeps_lUntagged h' fun _ h'' => ?_
  extract_lets
  split
  · exact keeps_raiseAux h''
  · exact keeps_recordWait h''

theorem keeps_dropPinRelease (h : Keeps s₀ s) : Keeps s₀ (dropPinRelease s t i) := keeps_filter h

theorem keeps_landMapStart {desc : Nat} (h : Keeps s₀ s) : Keeps s₀ (landMapStart s own t i desc) := by
  unfold landMapStart
  refine keeps_ite (keeps_rgnPutState h) ?_
  extract_lets _ _ _ s₃
  have h₃ : Keeps s₀ s₃ := keeps_padPutWord (keeps_padPutWord (keeps_releasePins (keeps_dropPinRelease h)))
  split
  · exact keeps_postEv (keeps_freeDelay (keeps_padPutWord (keeps_padPutWord h₃)))
  · exact keeps_rgnPutState (keeps_padPutWord (keeps_padPutWord h₃))

theorem keeps_walkPages {vs : List Nat} {wr : Bool} (h : Keeps s₀ s) : KeepsFst s₀ (walkPages s c t i wr vs) := by
  induction vs generalizing s with
  | nil => exact h
  | cons v vs ih =>
    rw [walkPages]
    split
    · exact h
    · exact keepsFst_ite h (keepsFst_ite h (ih (keeps_modSlab (keeps_modCtx h))))

theorem keeps_walkRegion {vs : List Nat} (h : Keeps s₀ s) : KeepsFst s₀ (walkRegion s c t i vs) := by
  unfold walkRegion
  extract_lets
  split
  next s' r hw =>
    have h' : Keeps s₀ s' := (keeps_walkPages h).of_eq hw
    split
    · exact keeps_rgnPutState (keeps_padPutWord (keeps_releasePins h'))
    · exact keeps_rgnPutState (keeps_padPutWord h')

theorem keeps_closeLeaves {keys : List Nat} (h : Keeps s₀ s) : Keeps s₀ (closeLeaves s c keys) := keeps_modCtx h

theorem keeps_execRgnmapWalkEnd (h : Keeps s₀ s) : KeepsNext s₀ (execRgnmapWalkEnd s) := by
  unfold execRgnmapWalkEnd
  split
  · refine keepsNext_ite (keepsNext_next h) ?_
    refine keepsNext_ite ?_ (keepsNext_next (keeps_closeLeaves (keeps_walkRegion h).fst))
    refine keepsNext_next ?_
    exact keeps_postLand (keeps_foldl (keeps_closeLeaves (keeps_walkRegion h).fst) fun _ _ => keeps_postAct)
  · exact keepsNext_fault _

theorem keeps_execRgnmapComplete (h : Keeps s₀ s) : KeepsNext s₀ (execRgnmapComplete s) := by
  unfold execRgnmapComplete
  split
  · split
    · exact keepsNext_ite (keepsNext_next (keeps_again h)) (keepsNext_next (keeps_waitDone h))
    · exact keepsNext_next h
  · exact keepsNext_fault _

theorem keeps_execRgnunmap {g : BitVec 5} {u : BitVec 2} (h : Keeps s₀ s) :
    KeepsNext s₀ (execRgnunmap g u src s) := by
  unfold execRgnunmap
  refine keeps_slotStep h fun _ _ h' => ?_
  exact keeps_lUntagged h' fun _ h'' => keeps_forTiles h'' fun _ _ h''' => keeps_postAct (keeps_postAct h''')

theorem keeps_landDirtyRegion (h : Keeps s₀ s) : Keeps s₀ (landDirtyRegion s t i) := by
  unfold landDirtyRegion
  exact keeps_modSlab h

theorem keeps_landUnmap (h : Keeps s₀ s) : Keeps s₀ (landUnmap s own t i) := by
  unfold landUnmap
  extract_lets _ _ s₂
  have h₂ : Keeps s₀ s₂ := keeps_foldl (keeps_rgnPutState h) fun _ _ h' => keeps_ite (keeps_padPutWord h') h'
  split
  · exact keeps_modSlab h₂
  · exact keeps_postEv (keeps_freeDelay (keeps_modSlab h₂))

theorem keeps_execPinReleaseComplete (h : Keeps s₀ s) : KeepsNext s₀ (execPinReleaseComplete s) := by
  unfold execPinReleaseComplete
  split
  · exact keepsNext_next (keeps_releasePins h)
  · exact keepsNext_fault _

theorem keeps_landQuery {dw : Nat} {banks : Bool} (h : Keeps s₀ s) : Keeps s₀ (landQuery s own t port i dw banks) :=
  keeps_postLand h

theorem keeps_execBankrel {g : BitVec 5} {u : BitVec 2} (h : Keeps s₀ s) : KeepsNext s₀ (execBankrel g u src s) :=
  keeps_slotStep h fun _ _ h' => keeps_lUntagged h' fun _ h'' => keeps_forTiles h'' fun _ _ => keeps_postLand

theorem keeps_landBankRel {mask : BitVec 32} (h : Keeps s₀ s) :
    Keeps s₀ (landBankRel s own t mask) := keeps_modSlab h

theorem keeps_execBankwait {g : BitVec 5} {u : BitVec 2} (h : Keeps s₀ s) : KeepsNext s₀ (execBankwait g u src s) :=
  keeps_slotStep h fun _ _ h' => keeps_lUntagged h' fun _ h'' => keeps_recordWait (keeps_modGang h'')

theorem keeps_execBankwaitComplete (h : Keeps s₀ s) : KeepsNext s₀ (execBankwaitComplete s) := by
  unfold execBankwaitComplete
  split
  · split
    · refine keepsNext_ite (keepsNext_next (keeps_again h)) ?_
      refine keepsNext_ite ?_ ?_
      · exact keepsNext_next (keeps_waitDone (keeps_forTiles h fun _ _ => keeps_modSlab))
      · extract_lets _ s₂
        have h₂ : Keeps s₀ s₂ := by
          unfold s₂
          refine keeps_foldl (keeps_forTiles h fun _ _ => keeps_modSlab) fun _ _ h' => ?_
          exact keeps_forTiles h' fun _ _ h'' => keeps_foldl h'' fun _ _ => keeps_postAct
        exact keepsNext_next (keeps_postEv (keeps_modGang h₂))
    · exact keepsNext_next h
  · exact keepsNext_fault _

theorem keeps_landConstRow {bytes : List Byte} (h : Keeps s₀ s) : Keeps s₀ (landConstRow s t a bytes) :=
  Keeps.of_mem h fun w => memWriteBytes_wf w _ _

/-! #### The staging engine D -/

theorem keeps_startStage {fill : Bool} (h : Keeps s₀ s) : Keeps s₀ (startStage s own t n fill) := by
  unfold startStage
  extract_lets
  split
  · exact h
  · extract_lets s₁ s₂ s₃ s₄
    have h₄ : Keeps s₀ s₄ := keeps_foldl (keeps_postAct (keeps_modSlot (keeps_modSlab h))) fun _ _ => keeps_postAct
    refine keeps_ite (keeps_postEv ?_) (keeps_postEv (keeps_postAct ?_))
    · exact keeps_foldl (keeps_foldl (keeps_postAct (keeps_postLand h₄)) fun _ _ => keeps_postAct) fun _ _ =>
        keeps_postAct
    · exact keeps_foldl (keeps_foldl h₄ fun _ _ => keeps_postAct) fun _ _ => keeps_postAct

theorem keeps_stageOp {fill : Bool} {g : BitVec 5} (h : Keeps s₀ s) : KeepsNext s₀ (stageOp fill port g src s) := by
  unfold stageOp
  refine keeps_slotStep h fun _ _ h' => keeps_untagged h' fun _ h'' => ?_
  extract_lets
  split
  · exact keeps_raiseAux h''
  · exact keeps_forTiles h'' fun _ _ => keeps_startStage

theorem keeps_execWinv {g : BitVec 5} (h : Keeps s₀ s) : KeepsNext s₀ (execWinv g src s) := by
  unfold execWinv
  refine keeps_slotStep h fun _ _ h' => keeps_untagged h' fun _ h'' => ?_
  extract_lets
  split
  · exact keeps_raiseAux h''
  · exact keeps_forTiles h'' fun _ _ h''' => keeps_postAct (keeps_postLand h''')

theorem keeps_landFtouch {j : Nat} (h : Keeps s₀ s) : Keeps s₀ (landFtouch s own t i j) := by
  unfold landFtouch
  exact keeps_ite h (keeps_ite h (keeps_startStage h))

theorem keeps_uncorrectable {aux : Word} (h : Keeps s₀ s) :
    Keeps s₀ (uncorrectable s own t cause aux) := keeps_postEv h

theorem keeps_failStage {x : StageOp} (h : Keeps s₀ s) : Keeps s₀ (failStage s x) := keeps_modSlabs h

theorem keeps_failWith {x : StageOp} {aux : Word} (h : Keeps s₀ s) : Keeps s₀ (failWith s t n x cause aux) :=
  keeps_ite h (keeps_uncorrectable (keeps_failStage h))

theorem keeps_cellCheck {op frame vpn line at_ visible : Nat} (h : Keeps s₀ s) :
    KeepsFst s₀ (cellCheck s own t op frame vpn line at_ visible) := by
  refine keepsFst_foldl h fun ⟨s', ok⟩ w h' => ?_
  dsimp only
  split
  · exact h'
  · exact keepsFst_mk (keeps_modSlab h')
  · exact keepsFst_mk (keeps_modSlab h')

theorem keeps_landBusTake (h : Keeps s₀ s) : Keeps s₀ (landBusTake s t n) := by
  unfold landBusTake
  split
  · exact h
  · exact keeps_ite h (keeps_modSlab h)

theorem keeps_settleMiss {op : Nat} {x : StageOp} {m : BusMiss} (h : Keeps s₀ s) :
    Keeps s₀ (settleMiss s own t n op k x m) := by
  unfold settleMiss
  exact keeps_ite (keeps_modSlab h) (keeps_failWith (keeps_modSlab h))

theorem keeps_landBusSettle (h : Keeps s₀ s) : Keeps s₀ (landBusSettle s own t n k) := by
  unfold landBusSettle
  split
  · exact h
  · exact keeps_foldl h fun _ _ => keeps_settleMiss

theorem keeps_landResClear (h : Keeps s₀ s) : Keeps s₀ (landResClear s t n) := keeps_modSlot h

theorem keeps_landWinv (h : Keeps s₀ s) : Keeps s₀ (landWinv s t n) := keeps_cleanSlot h

theorem keeps_landDirtySlot (h : Keeps s₀ s) : Keeps s₀ (landDirtySlot s t n) := keeps_modSlot h

theorem keeps_landFillRead (h : Keeps s₀ s) : Keeps s₀ (landFillRead s own t n p) := by
  unfold landFillRead
  split
  · exact h
  · refine keeps_ite h (keeps_foldl (keeps_modSlab h) fun s' l h' => ?_)
    split
    next hc =>
      have h₁ := (keeps_cellCheck h').of_eq hc
      exact keeps_ite h₁ (keeps_failWith h₁)

theorem keeps_landFillRow {l : Nat} (h : Keeps s₀ s) : Keeps s₀ (landFillRow s t n l) := by
  unfold landFillRow
  split
  · exact h
  · exact keeps_ite h (keeps_modSlot (keeps_padWrite h))

theorem keeps_landFlushRow {l : Nat} (h : Keeps s₀ s) : Keeps s₀ (landFlushRow s t n l) := by
  unfold landFlushRow
  split
  · exact h
  · exact keeps_modSlot (keeps_modSlab h)

theorem keeps_landFlushWrite (h : Keeps s₀ s) : Keeps s₀ (landFlushWrite s own t n p) := by
  unfold landFlushWrite
  split
  · exact h
  · refine keeps_foldl h fun s' l h' => keeps_ite h' ?_
    split
    next s₁ _ hc =>
      have h₁ : Keeps s₀ s₁ := by
        refine KeepsFst.of_eq ?_ hc
        split
        · exact keeps_cellCheck h'
        · exact h'
      exact keeps_ite (keeps_failWith h₁)
        (keeps_ite (keeps_raiseUndoFull (keeps_failStage h₁)) (keeps_vaultWriteLine h₁))

theorem keeps_endStage (h : Keeps s₀ s) : Keeps s₀ (endStage s t n) := by
  unfold endStage
  exact keeps_modSlot (keeps_modSlab h)

theorem keeps_execWfillLanding (h : Keeps s₀ s) : KeepsNext s₀ (execWfillLanding s) := by
  unfold execWfillLanding
  split
  · split
    · exact keepsNext_next h
    · refine keepsNext_next ?_
      exact keeps_ite (keeps_modSlot (keeps_bumpCounter (keeps_endStage h))) (keeps_bumpCounter (keeps_endStage h))
  · exact keepsNext_fault _

theorem keeps_execWflushLanding (h : Keeps s₀ s) : KeepsNext s₀ (execWflushLanding s) := by
  unfold execWflushLanding
  split
  · split
    · exact keepsNext_next h
    · exact keepsNext_next (keeps_bumpCounter (keeps_endStage h))
  · exact keepsNext_fault _

theorem keeps_execWatom {g : BitVec 5} (h : Keeps s₀ s) : KeepsNext s₀ (execWatom g src s) := by
  unfold execWatom
  refine keeps_slotStep h fun _ _ h' => keeps_untagged h' fun _ h'' => keeps_ite (keeps_raise h'')
      (keeps_ite (keeps_raiseAux h'') ?_)
  split
  · exact keeps_raiseAux h''
  · refine keeps_ite (keeps_raise h'') ?_
    refine keeps_ite (keeps_raiseAux h'') ?_
    refine keeps_ite (keeps_raise h'') ?_
    extract_lets s₁
    have h₁ : Keeps s₀ s₁ := keeps_ite (keeps_modGang h'') h''
    exact keeps_ite (keeps_postEv (keeps_ite (keeps_postAct h₁) h₁)) (keeps_enqueue h₁)

theorem keeps_applyWatom {w : WAtomOp} (h : Keeps s₀ s) : KeepsFst s₀ (applyWatom s w) := by
  unfold applyWatom
  extract_lets
  split
  next hc =>
    have h₁ := (keeps_cellCheck h).of_eq hc
    extract_lets
    split
    · exact keeps_uncorrectable h₁
    · split
      · exact h₁
      · exact keeps_vaultWriteLine h₁

theorem keeps_watomResult {w : WAtomOp} {old : Word} (h : Keeps s₀ s) : Keeps s₀ (watomResult s w at_ old) := by
  unfold watomResult
  refine keeps_ite (keeps_postLand (keeps_foldl h fun _ _ => keeps_postLand)) ?_
  exact keeps_foldl h fun _ _ => keeps_postLand

theorem keeps_execWatomApply (h : Keeps s₀ s) : KeepsNext s₀ (execWatomApply s) := by
  unfold execWatomApply
  split
  · split
    next ha => exact keepsNext_next (keeps_watomResult ((keeps_applyWatom h).of_eq ha))
    next ha => exact keepsNext_next ((keeps_applyWatom h).of_eq ha)
  · exact keepsNext_fault _

theorem keeps_execRemoteWatomApply (h : Keeps s₀ s) : KeepsNext s₀ (execRemoteWatomApply s) := by
  unfold execRemoteWatomApply
  split
  · split
    next ha => exact keepsNext_next (keeps_postEv ((keeps_applyWatom h).of_eq ha))
    next ha => exact keepsNext_next ((keeps_applyWatom h).of_eq ha)
  · exact keepsNext_fault _

theorem keeps_execRemoteWatomReply (h : Keeps s₀ s) : KeepsNext s₀ (execRemoteWatomReply s) := by
  unfold execRemoteWatomReply
  split
  · refine keepsNext_next ?_
    refine keeps_ite (keeps_acquireObject (keeps_foldl h fun _ _ => keeps_landSl)) ?_
    exact keeps_foldl h fun _ _ => keeps_landSl
  · exact keepsNext_fault _

theorem keeps_dQuery {f : State → Nat → TileName → Word → Word} {g : BitVec 5} (h : Keeps s₀ s) :
    KeepsNext s₀ (dQuery port f g src s) :=
  keeps_slotStep h fun _ _ h' => keeps_untagged h' fun _ h'' => keeps_forTiles h'' fun _ _ => keeps_postLand

theorem keeps_execPgreq {g : BitVec 5} (h : Keeps s₀ s) : KeepsNext s₀ (execPgreq g src s) := by
  unfold execPgreq
  refine keeps_slotStep h fun _ _ h' => keeps_untagged h' fun _ h'' => ?_
  extract_lets
  split
  · exact keeps_raiseAux h''
  · extract_lets
    split
    · exact keeps_forTiles h'' fun _ _ => keeps_postLand
    · refine keeps_ite (keeps_raise h'') ?_
      exact keeps_forTiles (keeps_enqueue (keeps_modSlab h'')) fun _ _ => keeps_postLand

/-! #### Binding map and lane swaps -/

theorem keeps_putUnit {u : UnitId} {st : UnitState} (h : Keeps s₀ s) : Keeps s₀ (putUnit s u st n) := h.of_core rfl

theorem keeps_leavePositions {us : List UnitId} {skip : UnitId → Nat} (h : Keeps s₀ s) :
    Keeps s₀ (leavePositions s us skip) := by
  unfold leavePositions
  refine keeps_foldl h fun _ _ h' => ?_
  split
  · exact h'.of_core rfl
  · exact h'

theorem keeps_leaveLast {us : List UnitId} (h : Keeps s₀ s) : Keeps s₀ (leaveLast s us) := by
  unfold leaveLast
  split
  · exact keeps_leavePositions h
  · exact h

theorem keeps_putTask {t : Task} (h : Keeps s₀ s) : Keeps s₀ (putTask s id t) := h.of_core rfl

theorem keeps_retireUnit {u : UnitId} (h : Keeps s₀ s) : Keeps s₀ (retireUnit s u) := by
  unfold retireUnit
  exact keeps_ite (keeps_putUnit (h.of_core rfl)) h

theorem keeps_retireTile (h : Keeps s₀ s) : Keeps s₀ (retireTile s t) := keeps_retireUnit h

theorem keeps_retireFrontEnd (h : Keeps s₀ s) : Keeps s₀ (retireFrontEnd s g) := by
  unfold retireFrontEnd
  split
  · exact keeps_retireUnit h
  · exact h

theorem keeps_leaveService {rule : Nat} (h : Keeps s₀ s) : Keeps s₀ (leaveService s rule) :=
  keeps_tell (keeps_tell (keeps_setPhase h))

theorem keeps_laneSwaps (h : Keeps s₀ s) : Keeps s₀ (laneSwaps s c t) := by
  unfold laneSwaps
  exact keeps_modSlab (keeps_foldl h fun _ _ h' => keeps_ite (keeps_modSlab h')
      (keeps_retireTile (keeps_modSlab h')))

/-! #### What a stop keeps -/

theorem keeps_shiftCtx {b g : Nat} (h : Keeps s₀ s) : Keeps s₀ (shiftCtx s c b g) := by
  unfold shiftCtx
  exact keeps_modCtx (keeps_forTiles (keeps_foldl h fun _ _ => keeps_modGang) fun _ _ => keeps_modSlab)

theorem keeps_countCtx {d : Word} (h : Keeps s₀ s) : Keeps s₀ (countCtx s c d) :=
  keeps_forTiles (keeps_foldl h fun _ _ => keeps_modGang) fun _ _ => keeps_modSlab

theorem keeps_setForward {rs : List Nat} {l : Nat} (h : Keeps s₀ s) : Keeps s₀ (setForward s rs l) := by
  unfold setForward
  exact h.of_core rfl

theorem keeps_quietPad (h : Keeps s₀ s) : Keeps s₀ (quietPad s t) := Keeps.of_mem h fun w => memClear_wf w _ _

theorem keeps_quietTiles (h : Keeps s₀ s) : Keeps s₀ (quietTiles s g) :=
  keeps_forTiles (keeps_modSlabs h) fun _ _ => keeps_quietPad

theorem keeps_finishFills (h : Keeps s₀ s) : Keeps s₀ (finishFills s c) := by
  unfold finishFills
  rw [List.partition_eq_filter_filter]
  refine keeps_foldl (keeps_filter h) fun s' e h' => ?_
  split
  · exact keeps_landFillRead h'
  · exact keeps_landBusTake h'
  · exact keeps_landBusSettle h'
  · exact h'

theorem keeps_freezeGang (h : Keeps s₀ s) : Keeps s₀ (freezeGang s g) := keeps_modGang h

theorem keeps_freezeCtx (h : Keeps s₀ s) : Keeps s₀ (freezeCtx s c) := by
  unfold freezeCtx
  extract_lets
  split
  · exact keeps_modCtx (keeps_filter h)
  · rw [List.partition_eq_filter_filter]
    refine keeps_modCtx (keeps_foldl ?_ fun _ _ => keeps_freezeGang)
    exact (keeps_filter (keeps_filter (keeps_finishFills h))).of_core rfl

theorem keeps_dropCtxWork (h : Keeps s₀ s) : Keeps s₀ (dropCtxWork s c) := by
  unfold dropCtxWork
  exact keeps_modCtx (keeps_foldl ((keeps_filter h).of_core rfl) fun _ _ => keeps_modSlab)

/-! #### Pages -/

theorem keeps_answerReq {r : PageReq} {code : BitVec 16} (h : Keeps s₀ s) : Keeps s₀ (answerReq s t i r code) := by
  unfold answerReq
  exact keeps_postEventAt (keeps_modSlab h)

theorem keeps_stale (h : Keeps s₀ s) : Keeps s₀ (stale s) := h.of_core rfl

theorem keeps_followPins {v0 : Nat} (h : Keeps s₀ s) :
    Keeps s₀ (followPins s c t v0 n) := keeps_ite h (keeps_modSlab h)

theorem keeps_answerHomed {r : PageReq} (h : Keeps s₀ s) : Keeps s₀ (answerHomed s c t i r) :=
  keeps_answerReq (keeps_followPins h)

theorem keeps_execPageRequestArrival (h : Keeps s₀ s) : KeepsNext s₀ (execPageRequestArrival s) := by
  unfold execPageRequestArrival
  split
  · refine keepsNext_ite (keepsNext_next h) ?_
    split
    · exact keepsNext_next h
    · refine keepsNext_ite (keepsNext_next h) ?_
      exact keepsNext_ite (keepsNext_next (keeps_answerHomed h)) (keepsNext_next (keeps_tell (keeps_modSlab h)))
  · exact keepsNext_fault _

theorem keeps_repostRequests (h : Keeps s₀ s) : Keeps s₀ (repostRequests s c) :=
  keeps_foldl h fun _ _ h' => keeps_tell (keeps_modSlab h')

theorem keeps_resumeStopped (h : Keeps s₀ s) : Keeps s₀ (resumeStopped s g) := by
  unfold resumeStopped
  refine keeps_ite (keeps_postBundle (keeps_segmentNext (keeps_quietTiles (keeps_modGang h)))) ?_
  exact keeps_enterWaits (keeps_quietTiles (keeps_modGang h))

/-- Time stands a cycle back only while the gang resumes. -/
theorem keeps_resumeStoppedNow (h : Keeps s₀ s) : Keeps s₀ (resumeStoppedNow s g) := by
  have hr : Keeps { s with now := s.now - 1 } (resumeStopped { s with now := s.now - 1 } g) :=
    keeps_resumeStopped (.refl _)
  exact h.trans ⟨hr.memWf, hr.sorted, Nat.le_refl _⟩

theorem keeps_invalClear {i : Inval} (h : Keeps s₀ s) : Keeps s₀ (invalClear s c i t) := by
  unfold invalClear
  refine keeps_ite h ?_
  exact keeps_foldl (keeps_foldl h fun _ _ h' => keeps_ite (keeps_releasePins h') h') fun _ _ => keeps_cleanSlot

theorem keeps_invalWalk {ws : List (TileName × Nat × List Nat)} (h : Keeps s₀ s) : Keeps s₀ (invalWalk s c ws) := by
  unfold invalWalk
  refine keeps_foldl h fun _ _ h' => ?_
  exact keeps_ite h' (keeps_ite (keeps_rgnPutState (keeps_walkRegion h').fst) (keeps_walkRegion h').fst)

theorem keeps_invalAct {i : Inval} (h : Keeps s₀ s) : KeepsFst s₀ (invalAct s c i ts) := by
  unfold invalAct
  extract_lets _ s₁
  have h₁ : Keeps s₀ s₁ := keeps_forTiles h fun _ _ => keeps_invalClear
  split
  · exact h₁
  · exact keeps_invalWalk h₁

theorem keeps_invalActs {is : List Inval} (h : Keeps s₀ s) : Keeps s₀ (invalActs s c is ts) :=
  keeps_foldl h fun _ _ h' => keeps_modCtx (keeps_invalAct h').fst

theorem keeps_migratePage {req gen : Nat} (h : Keeps s₀ s) : KeepsFst s₀ (migratePage s c vpn t req gen) := by
  unfold migratePage
  split
  · exact h
  · split
    extract_lets f₀ old moved
    cases hm : moved with
    | none => exact h
    | some s' =>
      have h' : Keeps s₀ s' := by
        simp only [moved] at hm
        split at hm
        · cases hm
          exact h
        · split at hm
          · cases hm
          · cases hm
            exact keeps_modCtx (h.of_vault fun w => memFill_wf (memClear_wf w _ _) _ _)
      dsimp only
      split
      · exact keepsFst_mk (keeps_followPins h')
      · split
        · split
          · exact keepsFst_mk (keeps_answerHomed (keeps_followPins h'))
          · exact keepsFst_mk (keeps_followPins h')
        · exact keepsFst_mk (keeps_stale (keeps_followPins h'))

theorem keeps_resumeAcked {i : Inval} (h : Keeps s₀ s) : Keeps s₀ (resumeAcked s i) :=
  keeps_foldl h fun _ _ h' => keeps_ite (keeps_postBeats (keeps_resumeStopped h')) h'

theorem keeps_openRange {i : Inval} (h : Keeps s₀ s) : Keeps s₀ (openRange s c i) := by
  unfold openRange
  exact keeps_modCtx h

theorem keeps_invalDone {i : Inval} (h : Keeps s₀ s) : Keeps s₀ (invalDone s c i) := by
  unfold invalDone
  split
  · exact keeps_answer (keeps_openRange h)
  · exact keeps_resumeAcked (keeps_answer (keeps_invalWalk (keeps_migratePage h).fst))

theorem keeps_ackInvals {stays : Bool} (h : Keeps s₀ s) : Keeps s₀ (ackInvals s c g stays) := by
  unfold ackInvals
  exact keeps_foldl (keeps_modCtx h) fun _ _ => keeps_invalDone

theorem keeps_landInvalStop (h : Keeps s₀ s) : Keeps s₀ (landInvalStop s g) := by
  unfold landInvalStop
  refine keeps_ite h ?_
  refine keeps_ite (keeps_postBeats (keeps_resumeStopped (keeps_ackInvals (keeps_invalActs h)))) ?_
  exact keeps_ackInvals (keeps_invalActs h)

theorem keeps_expiredInvals (h : Keeps s₀ s) : Keeps s₀ (expiredInvals s c) := by
  unfold expiredInvals
  refine keeps_foldl (keeps_modCtx h) fun _ _ h' => ?_
  refine keeps_foldl (keeps_invalWalk h') fun _ _ h'' => ?_
  exact keeps_modSlab (keeps_ite (keeps_closeLeaves (keeps_invalAct h'').fst) h'')

theorem keeps_startInval {us : Nat} {m : Option (TileName × Nat × Nat)} (h : Keeps s₀ s) :
    Keeps s₀ (startInval s c vpn n us m) := by
  unfold startInval
  exact keeps_ite (keeps_invalDone (keeps_invalAct h).fst) (keeps_postEv (keeps_modCtx (keeps_invalAct h).fst))

theorem keeps_execPgInval (h : Keeps s₀ s) : KeepsNext s₀ (execPgInval s) := by
  unfold execPgInval
  split
  · exact keepsNext_ite (keepsNext_next (keeps_startInval h)) (keepsNext_next (keeps_answer h))
  · exact keepsNext_fault _

theorem keeps_execPgMigrate (h : Keeps s₀ s) : KeepsNext s₀ (execPgMigrate s) := by
  unfold execPgMigrate
  split
  · refine keepsNext_ite (keepsNext_next (keeps_answer h)) ?_
    split
    · exact keepsNext_next (keeps_answer h)
    · exact keepsNext_ite (keepsNext_next (keeps_answer h)) (keepsNext_next (keeps_startInval h))
  · exact keepsNext_fault _

theorem keeps_execPgAnswer (h : Keeps s₀ s) : KeepsNext s₀ (execPgAnswer s) := by
  unfold execPgAnswer
  split
  · refine keepsNext_ite (keepsNext_next (keeps_answer h)) ?_
    refine keepsNext_ite (keepsNext_next (keeps_answer h)) ?_
    split
    · exact keepsNext_next (keeps_answer (keeps_ite (keeps_answerReq h) h))
    · exact keepsNext_next (keeps_answer (keeps_stale h))
  · exact keepsNext_fault _

theorem keeps_execInvalTimeout (h : Keeps s₀ s) : KeepsNext s₀ (execInvalTimeout s) := by
  unfold execInvalTimeout
  split
  · refine keepsNext_next ?_
    refine keeps_foldl h fun _ _ h' => ?_
    exact keeps_ite (keeps_raiseAux (keeps_modCtx h')) (keeps_answer (keeps_openRange (keeps_modCtx h')))
  · exact keepsNext_fault _

theorem keeps_followLeaf {key : Nat} (h : Keeps s₀ s) : Keeps s₀ (followLeaf s c key) :=
  keeps_foldl h fun _ _ => keeps_modSlab

theorem keeps_execHostLeafWrite (h : Keeps s₀ s) : KeepsNext s₀ (execHostLeafWrite s) := by
  unfold execHostLeafWrite
  split
  · extract_lets
    split
    · exact keepsNext_next (keeps_tell h)
    · refine keepsNext_ite (keepsNext_next (keeps_tell h)) ?_
      exact keepsNext_next (keeps_followLeaf (keeps_closeLeaves (keeps_modCtx h)))
  · exact keepsNext_fault _

/-! #### The life of a task -/

theorem keeps_putGraph {g : GraphRun} (h : Keeps s₀ s) : Keeps s₀ (putGraph s g) := h.of_core rfl

theorem keeps_instanceEnded {e : Option Nat} (h : Keeps s₀ s) : Keeps s₀ (instanceEnded s e) := by
  unfold instanceEnded
  split
  · exact h.of_core rfl
  · exact h

theorem keeps_dropGraph {g : GraphRun} (h : Keeps s₀ s) :
    Keeps s₀ (dropGraph s g) := keeps_instanceEnded (h.of_core rfl)

theorem keeps_finishGraph {g : GraphRun} (h : Keeps s₀ s) : Keeps s₀ (finishGraph s g) :=
  keeps_completionEntry (keeps_dropGraph h)

theorem keeps_failGraph {g : GraphRun} {code : Nat} {tag : BitVec 32} (h : Keeps s₀ s) :
    Keeps s₀ (failGraph s g code tag) := keeps_errorEntry (keeps_dropGraph h)

theorem keeps_settleGraph (h : Keeps s₀ s) : Keeps s₀ (settleGraph s id) := by
  unfold settleGraph
  split
  · exact h
  · split
    · exact keeps_ite (keeps_finishGraph h) h
    · exact h

theorem keeps_graphTaskDone {gid task : Nat} {code : BitVec 8} {flag : Bool} (h : Keeps s₀ s) :
    Keeps s₀ (graphTaskDone s gid task code flag) := by
  unfold graphTaskDone
  split
  · exact h
  · exact keeps_settleGraph (keeps_putGraph h)

theorem keeps_completeTask {t : Task} (h : Keeps s₀ s) : Keeps s₀ (completeTask s id t) := by
  unfold completeTask
  extract_lets
  split
  · exact keeps_graphTaskDone (keeps_modCtx (keeps_modTask h))
  · exact keeps_completionEntry (keeps_instanceEnded (keeps_modCtx (keeps_modTask h)))

theorem keeps_orphanColl (h : Keeps s₀ s) : Keeps s₀ (orphanColl s c g) := by
  unfold orphanColl
  split
  · exact keeps_ite (keeps_modCtx h) h
  · exact h

theorem keeps_endGang (h : Keeps s₀ s) : Keeps s₀ (endGang s g id) := by
  unfold endGang
  split
  · exact h
  · extract_lets _ s₁ _ s₂ s₃ _ _ s₄ s₅
    have h₂ : Keeps s₀ s₂ := keeps_modTask (keeps_forTiles h fun _ _ => keeps_modSlab)
    have h₃ : Keeps s₀ (dropBeat s₃ g) := keeps_dropBeat (keeps_orphanColl h₂)
    have h₄ : Keeps s₀ s₄ := keeps_forTiles (h₃.of_core rfl) fun _ _ => keeps_modSlab
    have h₅ : Keeps s₀ s₅ := keeps_ite (keeps_ackInvals (keeps_invalActs h₄)) h₂
    exact keeps_ite (keeps_completeTask h₅) h₅

theorem keeps_execHaltDrainComplete (h : Keeps s₀ s) : KeepsNext s₀ (execHaltDrainComplete s) := by
  unfold execHaltDrainComplete
  split
  · split
    · exact keepsNext_ite (keepsNext_next (keeps_postEv h)) (keepsNext_next (keeps_endGang h))
    · exact keepsNext_next (keeps_postEv h)
  · exact keepsNext_fault _

theorem keeps_loadTile (h : Keeps s₀ s) : Keeps s₀ (loadTile s c t) := by
  unfold loadTile
  refine keeps_ite h ?_
  extract_lets s₁
  have h₁ : Keeps s₀ s₁ := by
    unfold s₁
    split
    · exact keeps_dropPins h
    · exact h
  exact Keeps.of_mem (keeps_modSlab h₁) fun w => memClear_wf w _ _

theorem keeps_bindRegion {r : Nat × Nat × Nat} (h : Keeps s₀ s) : Keeps s₀ (bindRegion s t r) :=
  keeps_ite (keeps_padPutWord h) h

theorem keeps_startTile {o : Object} {k : Kernel} (h : Keeps s₀ s) : Keeps s₀ (startTile s id g t o k) := by
  unfold startTile
  refine keeps_foldl (keeps_foldl (keeps_modSlab (keeps_loadTile h)) fun _ _ h' => Keeps.of_mem h' fun w =>
      memWriteBytes_wf w _ _) fun _ _ => ?_
  exact keeps_bindRegion

theorem keeps_rekindTiles {o : Object} (h : Keeps s₀ s) : Keeps s₀ (rekindTiles s id g ts o) :=
  keeps_ite (keeps_forTiles h fun _ _ h' => keeps_ite h' (keeps_wakeSends (keeps_rekind h'))) h

theorem keeps_startGang {t : Task} {o : Object} {k : Kernel} (h : Keeps s₀ s) :
    Keeps s₀ (startGang s id t o k g) := by
  unfold startGang
  extract_lets s₁ _ _ _ s₂ s₃
  have h₁ : Keeps s₀ s₁ := keeps_forTiles (keeps_orphanColl h) fun _ _ => keeps_startTile
  have h₂ : Keeps s₀ s₂ := keeps_rekindTiles (keeps_beginSegment (h₁.of_core rfl))
  have h₃ : Keeps s₀ s₃ := by
    unfold s₃
    split
    · exact keeps_ite (keeps_postEvent h₂) h₂
    · exact h₂
  exact keeps_postBundle (keeps_postBeats h₃)

theorem keeps_startTask {t : Task} (h : Keeps s₀ s) : Keeps s₀ (startTask s id t) := by
  unfold startTask
  split
  · exact h
  · split
    · exact h
    · exact keeps_foldl (keeps_modTask h) fun _ _ => keeps_startGang

theorem keeps_execTaskStart (h : Keeps s₀ s) : KeepsNext s₀ (execTaskStart s) := by
  unfold execTaskStart
  split
  · split
    · exact keepsNext_next h
    · refine keepsNext_ite (keepsNext_next h) ?_
      exact keepsNext_ite (keepsNext_next (keeps_startTask h)) (keepsNext_next (keeps_postEv h))
  · exact keepsNext_fault _

theorem keeps_placeTask {r : BitVec 512} {k : Kernel} {o : TileName} {l : Launch} (h : Keeps s₀ s) :
    Keeps s₀ (placeTask s c r k o l) := by
  unfold placeTask
  exact keeps_postEv (keeps_freeDelay (h.of_core rfl))

/-! #### The dispatcher -/

theorem keeps_retire {e : Nat × Option (BitVec 32)} (h : Keeps s₀ s) : Keeps s₀ (retire s c q idx e) := by
  unfold retire
  split
  · exact keeps_errorEntry h
  · exact keeps_errorEntry h

theorem keeps_queueHead (h : Keeps s₀ s) : KeepsFst s₀ (queueHead c q n s) := by
  induction n generalizing s with
  | zero => exact h
  | succ n ih =>
    rw [queueHead]
    split
    · exact h
    · refine keepsFst_ite h ?_
      split
      · exact h
      · split
        · exact h
        · exact ih (keeps_advanceHead (keeps_retire h))

theorem keeps_gatherCands (h : Keeps s₀ s) : Keeps s₀ (gatherCands s) := by
  unfold gatherCands
  extract_lets
  split
  next s' _ hf =>
    have h' : Keeps s₀ s' := by
      refine KeepsFst.of_eq (keepsFst_foldl (keepsFst_mk h) fun p c hp => keepsFst_foldl hp fun ⟨s₁, hs⟩ q h₁ => ?_)
          hf
      exact (keeps_queueHead h₁).fst
    exact h'.of_core rfl

theorem keeps_startGraph {queue : Nat} {r : BitVec 512} {record : Nat} {tt : Option Nat} (h : Keeps s₀ s) :
    Keeps s₀ (startGraph s c queue r record tt) := by
  unfold startGraph
  split
  · exact keeps_errorEntry (keeps_instanceEnded h)
  · exact keeps_settleGraph (h.of_core rfl)

theorem keeps_graphPlaced {gid task : Nat} {overlap : Bool} (h : Keeps s₀ s) :
    Keeps s₀ (graphPlaced s gid task overlap) := by
  unfold graphPlaced
  split
  · exact h
  · exact keeps_putGraph h

theorem keeps_nodeCand {g : GraphRun} {source : Nat} {r : BitVec 512} (h : Keeps s₀ s) :
    Keeps s₀ (nodeCand s g source r) := h.of_core rfl

theorem keeps_stepGraph (h : Keeps s₀ s) : Keeps s₀ (stepGraph s id) := by
  unfold stepGraph
  split
  · exact h
  · refine keeps_ite h ?_
    split
    · exact keeps_failGraph h
    · split
      · split
        · exact keeps_nodeCand h
        · exact keeps_failGraph h
        · exact keeps_retire (keeps_dropGraph h)
      · exact keeps_ite h (keeps_nodeCand h)
      · exact keeps_nodeCand h
      · exact keeps_nodeCand h
      · exact keeps_settleGraph h
      · exact keeps_failGraph h

theorem keeps_takeNode (h : Keeps s₀ s) : Keeps s₀ (takeNode s id) := by
  unfold takeNode
  split
  · exact h
  · split
    · exact keeps_failGraph h
    · split
      · split
        · exact keeps_failGraph h
        · exact keeps_settleGraph (keeps_putGraph h)
      · exact keeps_settleGraph (keeps_putGraph h)
      · exact keeps_settleGraph (keeps_putGraph (keeps_ringWrite h))
      · exact h

theorem keeps_placeCand {x : Cand} {o : TileName} (h : Keeps s₀ s) : Keeps s₀ (placeCand s x o) := by
  unfold placeCand
  extract_lets s₁ s₂ row s₃
  have h₁ : Keeps s₀ s₁ := h.of_core rfl
  have h₂ : Keeps s₀ s₂ := keeps_ite (keeps_advanceHead h₁) h₁
  have h₃ : Keeps s₀ s₃ := by
    unfold s₃
    cases row with
    | none => exact h₂
    | some r => exact h₂.of_core rfl
  refine keeps_ite (keeps_takeNode h₁) (keeps_ite (keeps_startGraph h₃) ?_)
  split
  · exact h₃
  · split
    · exact keeps_graphPlaced (keeps_placeTask h₃)
    · exact keeps_placeTask h₃

theorem keeps_takeReservations (h : Keeps s₀ s) : Keeps s₀ (takeReservations s) :=
  keeps_foldl h fun _ _ h' => keeps_ite (h'.of_core rfl) h'

theorem keeps_decide64 (h : Keeps s₀ s) : Keeps s₀ (decide64 s) := by
  unfold decide64
  extract_lets s₁ _ _ _ s₃
  have h₁ : Keeps s₀ s₁ := keeps_foldl h fun _ _ => keeps_stepGraph
  have h₃ : Keeps s₀ s₃ := by
    unfold s₃
    split
    · exact keeps_gatherCands h₁
    · exact keeps_placeCand ((keeps_gatherCands h₁).of_core rfl)
  exact keeps_takeReservations h₃

theorem keeps_execDispatchDecision (h : Keeps s₀ s) : KeepsNext s₀ (execDispatchDecision s) := by
  unfold execDispatchDecision
  exact keepsNext_next (keeps_postEv (keeps_ite (keeps_decide64 h) h))

theorem keeps_fireEntry {r : TtRow} (h : Keeps s₀ s) : Keeps s₀ (fireEntry s i r) := by
  unfold fireEntry
  split
  · exact keeps_retire h
  · exact h.of_core rfl

theorem keeps_overrun {r : TtRow} (h : Keeps s₀ s) : Keeps s₀ (overrun s i r) := h.of_core rfl

theorem keeps_slotEntry {slot : Nat} (h : Keeps s₀ s) : Keeps s₀ (slotEntry slot s i) := by
  unfold slotEntry
  split
  · exact h
  · extract_lets _ _ s₁
    have h₁ : Keeps s₀ s₁ := keeps_ite (keeps_fireEntry (h.of_core rfl)) h
    split
    · exact h₁
    · refine keeps_ite h₁ ?_
      exact keeps_ite (keeps_overrun h₁) (keeps_ite h₁ (keeps_ite (keeps_overrun h₁) (keeps_fireEntry h₁)))

theorem keeps_postSlot (h : Keeps s₀ s) : Keeps s₀ (postSlot s) := by
  unfold postSlot
  exact keeps_postEv (keeps_filter h)

theorem keeps_setSlots (h : Keeps s₀ s) : Keeps s₀ (setSlots s) := by
  unfold setSlots
  exact keeps_ite (keeps_postSlot (h.of_core rfl)) (h.of_core rfl)

theorem keeps_setClockRate {nanos : Nat} {rate : Option Nat} (h : Keeps s₀ s) :
    Keeps s₀ (setClockRate s nanos rate) :=
  keeps_setSlots (h.of_core rfl)

theorem keeps_setClock {nanos : Nat} (h : Keeps s₀ s) : Keeps s₀ (setClock s nanos) := keeps_setClockRate h

theorem keeps_execTimeTableFiring (h : Keeps s₀ s) : KeepsNext s₀ (execTimeTableFiring s) := by
  unfold execTimeTableFiring
  split
  · exact keepsNext_next (keeps_postSlot ((keeps_foldl h fun _ _ => keeps_slotEntry).of_core rfl))
  · exact keepsNext_fault _

theorem keeps_execTtSet (h : Keeps s₀ s) : KeepsNext s₀ (execTtSet s) := by
  unfold execTtSet
  split
  · refine keepsNext_ite (keepsNext_next (keeps_answer h)) ?_
    refine keepsNext_ite (keepsNext_next (keeps_answer h)) ?_
    extract_lets _ s₁
    have h₁ : Keeps s₀ s₁ := by
      unfold s₁
      split
      · exact keeps_setSlots (h.of_core rfl)
      · exact h
    exact keepsNext_next (keeps_answer (h₁.of_core rfl))
  · exact keepsNext_fault _

/-! #### Boundaries, images and return -/

theorem keeps_repin {pins : Tab (List Pin)} (h : Keeps s₀ s) : Keeps s₀ (repin s c t pins) := by
  refine keeps_foldl (keeps_modSlab h) fun s' e h' => ?_
  refine keeps_modSlab (keepsFst_foldl h' fun ⟨s'', ps⟩ x h'' => ?_)
  dsimp only
  split
  · exact keepsFst_mk (keeps_modCtx h'')
  · exact h''

theorem keeps_returnTile {saved : Slab} (h : Keeps s₀ s) : Keeps s₀ (returnTile s c t saved) := by
  unfold returnTile
  extract_lets s₁
  have h₁ : Keeps s₀ s₁ := by
    unfold s₁
    split
    · exact keeps_dropPins h
    · exact h
  exact keeps_repin (keeps_modSlab h₁)

theorem keeps_unwindUndo (h : Keeps s₀ s) : Keeps s₀ (unwindUndo s c) := by
  unfold unwindUndo
  exact keeps_modCtx (keeps_foldl h fun _ _ h' => Keeps.of_vault h' fun w => memPutLine_wf w _ _)

theorem keeps_returnBoundary {b : Boundary} (h : Keeps s₀ s) : Keeps s₀ (returnBoundary s c b) := by
  unfold returnBoundary
  extract_lets _ _ s₂ _ _ s₅
  have h₂ : Keeps s₀ s₂ := by
    unfold s₂
    refine keeps_foldl (keeps_dropCtxWork (keeps_unwindUndo h)) fun _ _ h' => ?_
    exact Keeps.of_mem (keeps_returnTile h') fun w => memFill_wf (memClear_wf w _ _) _ _
  have h₅ : Keeps s₀ s₅ := by
    unfold s₅
    exact keeps_foldl ((keeps_foldl h₂ fun _ _ => keeps_modSlab).of_core rfl) fun _ _ => keeps_putTask
  exact keeps_ringTimers (keeps_modCtx (keeps_foldl h₅ fun _ _ => keeps_gvaWrite))

theorem keeps_placeImage {x : Image} (h : Keeps s₀ s) : Keeps s₀ (placeImage s c x) := by
  unfold placeImage
  extract_lets _ _ _ s₁
  have h₁ : Keeps s₀ s₁ := by
    unfold s₁
    refine keeps_foldl h fun _ _ h' => ?_
    exact Keeps.of_mem (keeps_returnTile h') fun w => memFill_wf (memClear_wf w _ _) _ _
  exact keeps_ringTimers (keeps_foldl (h₁.of_core rfl) fun _ _ => keeps_putTask)

theorem keeps_growTables {level : Nat} {s' : State} (h : Keeps s₀ s) (hg : growTables s c vpn level n = some s') :
    Keeps s₀ s' := by
  induction n generalizing s' with
  | zero => cases hg; exact h
  | succ n ih =>
    rw [growTables] at hg
    split at hg
    · cases hg
    next hn =>
      have h' := ih hn
      dsimp only at hg
      split at hg
      · cases hg
        exact h'
      · split at hg
        · cases hg
          exact keeps_modCtx h'
        · cases hg

theorem keeps_placeLeaf {acc : Option State} {e : Nat × Word} {s' : State} (h : ∀ s, acc = some s → Keeps s₀ s)
    (hp : placeLeaf c acc e = some s') : Keeps s₀ s' := by
  unfold placeLeaf at hp
  extract_lets at hp
  split at hp
  · cases hp
  next hb =>
    obtain ⟨s₁, hs₁, hg⟩ := Option.bind_eq_some_iff.mp hb
    have h₁ := keeps_growTables (h _ hs₁) hg
    split at hp
    · cases hp
    · obtain ⟨f, -, rfl⟩ := Option.map_eq_some_iff.mp hp
      exact keeps_modCtx h₁

theorem keeps_restoreImage {x : Image} {s' : State} (h : Keeps s₀ s) (hr : restoreImage s c x = some s') :
    Keeps s₀ s' := by
  unfold restoreImage at hr
  extract_lets at hr
  split at hr
  · cases hr
  next t ht =>
    have ht' : Keeps s₀ t := by
      refine List.foldlRecOn (motive := fun a => ∀ s, a = some s → Keeps s₀ s) x.leaves (placeLeaf c) ?_ ?_ t ht
      · rintro _ ⟨⟩
        exact h.of_core rfl
      · exact fun acc ha e _ s' => keeps_placeLeaf ha
    split at hr
    · cases hr
    · extract_lets s₁ s₂ s₃ at hr
      have h₁ : Keeps s₀ s₁ := by
        refine keeps_foldl ht' fun s p h' => ?_
        split
        · exact h'.of_vault fun w => memFill_wf (memClear_wf w _ _) _ _
        · exact h'
      cases hr
      exact keeps_countCtx (keeps_placeImage (keeps_modCtx h₁))

theorem keeps_execRestore (h : Keeps s₀ s) : KeepsNext s₀ (execRestore s) := by
  unfold execRestore
  split
  · refine keepsNext_ite (keepsNext_next (keeps_answer h)) ?_
    split
    · exact keepsNext_next (keeps_answer h)
    · refine keepsNext_ite (keepsNext_next (keeps_answer h)) ?_
      split
      · exact keepsNext_next (keeps_answer h)
      next hr => exact keepsNext_next (keeps_answer (keeps_restoreImage h hr))
  · exact keepsNext_fault _

theorem keeps_execExportImage (h : Keeps s₀ s) : KeepsNext s₀ (execExportImage s) := by
  unfold execExportImage
  split
  · exact keepsNext_ite (keepsNext_next (keeps_answer h)) (keepsNext_next (keeps_answer (h.of_core rfl)))
  · exact keepsNext_fault _

/-! #### Stops, dumps and rollback -/

theorem keeps_scheduleResume (h : Keeps s₀ s) : KeepsFst s₀ (scheduleResume s c) :=
  keeps_postEv (keeps_modCtx (keeps_freeDelay h))

theorem keeps_resumeGang (h : Keeps s₀ s) : Keeps s₀ (resumeGang s g) := by
  unfold resumeGang
  exact keeps_postBeats (keeps_ite (keeps_modGang h) (keeps_ite (keeps_resumeStoppedNow h) h))

theorem keeps_restartSends (h : Keeps s₀ s) :
    Keeps s₀ (restartSends s c) := keeps_forTiles h fun _ _ => keeps_wakeSends

theorem keeps_restartPlaced (h : Keeps s₀ s) : Keeps s₀ (restartPlaced s c) :=
  keeps_foldl h fun _ _ h' => keeps_ite (keeps_postEv h') h'

theorem keeps_restartBreaks (h : Keeps s₀ s) : Keeps s₀ (restartBreaks s c) :=
  keeps_foldl h fun _ _ h' => keeps_ite (keeps_postEv (keeps_filter h')) (keeps_filter h')

theorem keeps_postReplayDue (h : Keeps s₀ s) : Keeps s₀ (postReplayDue s c) := by
  unfold postReplayDue
  extract_lets
  split
  · exact keeps_postEv h
  · exact h

theorem keeps_restartCut (h : Keeps s₀ s) : Keeps s₀ (restartCut s c) := keeps_ite (keeps_postEv h) h

theorem keeps_releaseEv {b : Nat} {e : Ev} (h : Keeps s₀ s) : Keeps s₀ (releaseEv c b s e) := by
  unfold releaseEv
  exact keeps_post h

theorem keeps_execContextResumeStart (h : Keeps s₀ s) : KeepsNext s₀ (execContextResumeStart s) := by
  unfold execContextResumeStart
  split
  · refine keepsNext_ite (keepsNext_next h) ?_
    extract_lets _ _ s₁
    have h₁ : Keeps s₀ s₁ := keeps_shiftCtx (keeps_expiredInvals h)
    refine keepsNext_next ?_
    exact keeps_restartCut (keeps_postReplayDue (keeps_resendContributions
        (keeps_restartBreaks (keeps_restartPlaced (keeps_restartSends
        (keeps_repostRequests (keeps_foldl (keeps_foldl (keeps_modCtx h₁) fun _ _ => keeps_resumeGang) fun _ _ =>
        keeps_releaseEv)))))))
  · exact keepsNext_fault _

theorem keeps_postRollback (h : Keeps s₀ s) : Keeps s₀ (postRollback s) := by
  unfold postRollback
  split
  · exact h
  · exact keeps_postEv (keeps_freeDelay h)

theorem keeps_queueRollback (h : Keeps s₀ s) : Keeps s₀ (queueRollback s c) :=
  keeps_ite h (keeps_ite (keeps_postRollback (h.of_core rfl)) (h.of_core rfl))

theorem keeps_leaveRollback (h : Keeps s₀ s) : Keeps s₀ (leaveRollback s c) := by
  unfold leaveRollback
  exact keeps_ite (keeps_postRollback (h.of_core rfl)) (h.of_core rfl)

theorem keeps_tellBreaks (h : Keeps s₀ s) : Keeps s₀ (tellBreaks s c) := by
  unfold tellBreaks
  exact keeps_foldl (keeps_modCtx h) fun _ _ => keeps_tell

theorem keeps_endTasks (h : Keeps s₀ s) : Keeps s₀ (endTasks s c) := by
  unfold endTasks
  extract_lets _ s₁ _ _ _ s₄
  have h₁ : Keeps s₀ s₁ := keeps_leaveRollback (keeps_tellBreaks h)
  have h₄ : Keeps s₀ s₄ := keeps_forTiles (keeps_filter (keeps_dropCtxWork h₁)) fun _ _ => keeps_modSlab
  exact keeps_modCtx ((keeps_foldl h₄ fun _ _ => keeps_modSlab).of_core rfl)

theorem keeps_addSummary {r : FaultRec} (h : Keeps s₀ s) : Keeps s₀ (addSummary s r) := by
  unfold addSummary
  extract_lets l
  generalize l.drop _ = l'
  exact h.of_core rfl

theorem keeps_keepSummary (h : Keeps s₀ s) : Keeps s₀ (keepSummary s c cause) := by
  unfold keepSummary
  split
  · exact h
  · exact keeps_addSummary h

theorem keeps_beginDump (h : Keeps s₀ s) : Keeps s₀ (beginDump s) := by
  unfold beginDump
  split
  · exact h
  · exact keeps_postEv (keeps_modCtx (keeps_freeDelay h))

theorem keeps_enterFaulted (h : Keeps s₀ s) : Keeps s₀ (enterFaulted s c) := by
  unfold enterFaulted
  refine keeps_ite h ?_
  extract_lets s₁
  have h₁ : Keeps s₀ s₁ := keeps_leaveRollback (keeps_modCtx h)
  split
  · exact keeps_beginDump (h₁.of_core rfl)
  · refine keeps_ite ?_ (h₁.of_core rfl)
    refine keeps_endTasks ?_
    split
    · exact keeps_addSummary h₁
    · exact h₁

theorem keeps_endDump (h : Keeps s₀ s) : Keeps s₀ (endDump s c) := by
  unfold endDump
  exact keeps_ite (keeps_beginDump (keeps_endTasks (h.of_core rfl))) (keeps_endTasks (h.of_core rfl))

theorem keeps_waferFreeze (h : Keeps s₀ s) : Keeps s₀ (waferFreeze s) :=
  keeps_foldl h fun _ _ h' => keeps_ite (keeps_setEdge (keeps_modCtx h')) h'

theorem keeps_dumpFaults {bad : List (Nat × Nat)} (h : Keeps s₀ s) : Keeps s₀ (dumpFaults s c bad) := by
  unfold dumpFaults
  refine keeps_ite (keeps_foldl h fun _ _ => keeps_raiseAux) ?_
  exact keeps_waferFreeze (keeps_foldl h fun _ _ => keeps_raiseAux)

theorem keeps_execDumpWrite (h : Keeps s₀ s) : KeepsNext s₀ (execDumpWrite s) := by
  unfold execDumpWrite
  split
  · refine keepsNext_ite (keepsNext_next h) ?_
    refine keepsNext_ite (keepsNext_next (keeps_endDump (keeps_keepSummary (h.of_core rfl)))) ?_
    refine keepsNext_ite (keepsNext_next (keeps_endDump (keeps_keepSummary (h.of_core rfl)))) ?_
    exact keepsNext_next (keeps_endDump (keeps_tell (keeps_dumpFaults (h.of_core rfl))))
  · exact keepsNext_fault _

theorem keeps_execDumpAbort (h : Keeps s₀ s) : KeepsNext s₀ (execDumpAbort s) := by
  unfold execDumpAbort
  split
  · exact keepsNext_ite (keepsNext_next h) (keepsNext_next (keeps_endDump (keeps_keepSummary h)))
  · exact keepsNext_fault _

theorem keeps_replayFault (h : Keeps s₀ s) : Keeps s₀ (replayFault s c cause) := by
  unfold replayFault
  extract_lets _ _ _ s₂
  have h₂ : Keeps s₀ s₂ := by
    unfold s₂
    refine keeps_ite ?_ (keeps_raiseAux h)
    split
    · exact keeps_tell (keeps_raiseAux h)
    · exact keeps_raiseAux h
  exact keeps_enterFaulted h₂

theorem keeps_rollbackNow (h : Keeps s₀ s) : Keeps s₀ (rollbackNow s c) := by
  unfold rollbackNow
  extract_lets
  split
  · exact keeps_replayFault h
  · refine keeps_ite (keeps_replayFault h) ?_
    refine keeps_ite (keeps_queueRollback h) ?_
    exact (keeps_scheduleResume (keeps_tell (keeps_modCtx (keeps_returnBoundary h)))).fst

theorem keeps_execRollback (h : Keeps s₀ s) : KeepsNext s₀ (execRollback s) := by
  unfold execRollback
  split
  · exact keepsNext_next (keeps_ite (keeps_rollbackNow (keeps_leaveRollback h)) (keeps_leaveRollback h))
  · exact keepsNext_fault _

theorem keeps_afterFreeze {k : Ctx} (h : Keeps s₀ s) : Keeps s₀ (afterFreeze s c k) := by
  unfold afterFreeze
  split
  · extract_lets s₁
    have h₁ : Keeps s₀ s₁ := keeps_tell h
    refine keeps_ite (keeps_enterFaulted h₁) (keeps_ite (keeps_queueRollback h₁) ?_)
    exact keeps_ite h₁ (keeps_ite h₁ (keeps_enterFaulted h₁))
  · refine keeps_ite (keeps_queueRollback h) (keeps_ite ?_ h)
    extract_lets
    split
    next hr =>
      have h₁ := (keeps_scheduleResume (keeps_modCtx h)).of_eq hr
      split
      · exact keeps_postEv (keeps_modCtx h₁)
      · exact h₁

theorem keeps_tellTimeouts (h : Keeps s₀ s) : Keeps s₀ (tellTimeouts s c) := by
  unfold tellTimeouts
  exact keeps_modCtx (keeps_foldl h fun _ _ h' => keeps_answer (keeps_openRange h'))

theorem keeps_execFreezeEdge (h : Keeps s₀ s) : KeepsNext s₀ (execFreezeEdge s) := by
  unfold execFreezeEdge
  split
  · refine keepsNext_ite ?_ (keepsNext_ite (keepsNext_next (keeps_enterFaulted h)) (keepsNext_next h))
    exact keepsNext_next (keeps_afterFreeze (keeps_tellTimeouts (keeps_tellBreaks (keeps_freezeCtx h))))
  · exact keepsNext_fault _

theorem keeps_execUncorrectableErrorDetect (h : Keeps s₀ s) : KeepsNext s₀ (execUncorrectableErrorDetect s) := by
  unfold execUncorrectableErrorDetect
  split
  · refine keepsNext_ite (keepsNext_next (h.of_core rfl)) ?_
    split
    · exact keepsNext_next (h.of_core rfl)
    · refine keepsNext_ite (keepsNext_next (h.of_core rfl)) ?_
      exact keepsNext_next (keeps_waferFreeze (keeps_modCtx (keeps_raiseAux h)))
  · exact keepsNext_fault _

theorem keeps_execReplayRequest (h : Keeps s₀ s) : KeepsNext s₀ (execReplayRequest s) := by
  unfold execReplayRequest
  split
  · exact keepsNext_ite (keepsNext_next (keeps_postEv (keeps_modCtx h))) (keepsNext_next h)
  · exact keepsNext_fault _

theorem keeps_swapTiles (h : Keeps s₀ s) : Keeps s₀ (swapTiles s ts) := keeps_forTiles h fun _ _ => keeps_laneSwaps

theorem keeps_cutBoundary (h : Keeps s₀ s) : Keeps s₀ (cutBoundary s c) := by
  unfold cutBoundary
  exact keeps_swapTiles (keeps_modCtx (h.of_core rfl))

theorem keeps_execReplayBoundaryCut (h : Keeps s₀ s) : KeepsNext s₀ (execReplayBoundaryCut s) := by
  unfold execReplayBoundaryCut
  split
  · refine keepsNext_ite (keepsNext_next h) ?_
    refine keepsNext_ite ?_ (keepsNext_next (keeps_postEv h))
    exact keepsNext_next (keeps_ite (keeps_cutBoundary h) (keeps_scheduleResume (keeps_cutBoundary h)).fst)
  · exact keepsNext_fault _

theorem keeps_remapIfDue (h : Keeps s₀ s) : Keeps s₀ (remapIfDue s) := by
  unfold remapIfDue
  refine keeps_ite ?_ h
  split
  · exact keeps_postEv (h.of_core rfl)
  · exact keeps_leaveService (h.of_core rfl)

theorem keeps_execQuiesceCut (h : Keeps s₀ s) : KeepsNext s₀ (execQuiesceCut s) := by
  unfold execQuiesceCut
  split
  · extract_lets
    split
    · refine keepsNext_ite ?_ (keepsNext_next (keeps_postEv h))
      exact keepsNext_next (keeps_remapIfDue (keeps_ite (keeps_swapTiles (keeps_modCtx h)) (keeps_modCtx h)))
    · exact keepsNext_next h
  · exact keepsNext_fault _

theorem keeps_execQuiesceBoundExpiry (h : Keeps s₀ s) : KeepsNext s₀ (execQuiesceBoundExpiry s) := by
  unfold execQuiesceBoundExpiry
  split
  · extract_lets
    split
    · exact keepsNext_ite (keepsNext_next (keeps_setEdge (keeps_freeDelay (keeps_modCtx h)))) (keepsNext_next h)
    · exact keepsNext_next h
  · exact keepsNext_fault _

/-! #### The host's commands on a context -/

theorem keeps_command {ok : CtxState → Bool} {f : State → State} (h : Keeps s₀ s)
    (hf : ∀ s, Keeps s₀ s → Keeps s₀ (f s)) :
    Keeps s₀ (command s c ok f) := keeps_ite (hf _ h) (keeps_answer h)

theorem keeps_commandRun {ok : CtxState → Bool} {f : State → State} (h : Keeps s₀ s)
    (hf : ∀ s, Keeps s₀ s → Keeps s₀ (f s)) :
    Keeps s₀ (commandRun s c ok f) := keeps_ite (keeps_command h fun _ h' => hf _ h') (keeps_answer h)

theorem keeps_done (h : Keeps s₀ s) : Keeps s₀ (done s c) := keeps_answer h

theorem keeps_badArg (h : Keeps s₀ s) : Keeps s₀ (badArg s c) := keeps_answer h

theorem keeps_execCreate (h : Keeps s₀ s) : KeepsNext s₀ (execCreate s) := by
  unfold execCreate
  split
  · refine keepsNext_ite (keepsNext_next (keeps_badArg h)) ?_
    refine keepsNext_next ?_
    exact keeps_command h fun _ h' => keeps_ite (keeps_badArg h') (keeps_done (keeps_modCtx (h'.of_core rfl)))
  · exact keepsNext_fault _

theorem keeps_execLoaddone (h : Keeps s₀ s) : KeepsNext s₀ (execLoaddone s) := by
  unfold execLoaddone
  split
  · exact keepsNext_next (keeps_command h fun _ h' => keeps_done (keeps_modCtx h'))
  · exact keepsNext_fault _

theorem keeps_execStart (h : Keeps s₀ s) : KeepsNext s₀ (execStart s) := by
  unfold execStart
  split
  · exact keepsNext_next (keeps_commandRun h fun _ h' => keeps_done (keeps_postReplayDue (keeps_modCtx h')))
  · exact keepsNext_fault _

theorem keeps_beginQuiesce {kinds : BitVec 3} {deadline : Nat} (h : Keeps s₀ s) :
    Keeps s₀ (beginQuiesce s c kinds deadline) := by
  unfold beginQuiesce
  exact keeps_postEv (keeps_modCtx h)

theorem keeps_execQuiesce (h : Keeps s₀ s) : KeepsNext s₀ (execQuiesce s) := by
  unfold execQuiesce
  split
  · refine keepsNext_next ?_
    refine keeps_command h fun _ h' => ?_
    exact keeps_ite (keeps_badArg h') (keeps_done (keeps_postEv (keeps_beginQuiesce h')))
  · exact keepsNext_fault _

theorem keeps_execFreeze (h : Keeps s₀ s) : KeepsNext s₀ (execFreeze s) := by
  unfold execFreeze
  split
  · refine keepsNext_next ?_
    exact keeps_command h fun _ h' => keeps_done (keeps_setEdge (keeps_freeDelay (keeps_modCtx h')))
  · exact keepsNext_fault _

theorem keeps_resumeCtx (h : Keeps s₀ s) : Keeps s₀ (resumeCtx s c) :=
  keeps_ite (keeps_rollbackNow h) (keeps_scheduleResume h).fst

theorem keeps_execResume (h : Keeps s₀ s) : KeepsNext s₀ (execResume s) := by
  unfold execResume
  split
  · exact keepsNext_next (keeps_commandRun h fun _ h' => keeps_done (keeps_resumeCtx h'))
  · exact keepsNext_fault _

theorem keeps_execStepCmd (h : Keeps s₀ s) : KeepsNext s₀ (execStepCmd s) := by
  unfold execStepCmd
  split
  · refine keepsNext_next ?_
    refine keeps_commandRun h fun _ h' => keeps_ite (keeps_badArg h') ?_
    extract_lets
    split
    · exact keeps_done (keeps_postEv (keeps_modCtx (keeps_resumeCtx h')))
    · exact keeps_done (keeps_resumeCtx h')
  · exact keepsNext_fault _

theorem keeps_execStepStopEdge (h : Keeps s₀ s) : KeepsNext s₀ (execStepStopEdge s) := by
  unfold execStepStopEdge
  split
  · exact keepsNext_ite (keepsNext_next (keeps_setEdge (keeps_modCtx h))) (keepsNext_next h)
  · exact keepsNext_fault _

theorem keeps_execKill (h : Keeps s₀ s) : KeepsNext s₀ (execKill s) := by
  unfold execKill
  split
  · refine keepsNext_next ?_
    exact keeps_command h fun _ h' => keeps_done (keeps_tell (keeps_ite (keeps_endDump h') (keeps_endTasks h')))
  · exact keepsNext_fault _

theorem keeps_forgetErrors (h : Keeps s₀ s) : Keeps s₀ (forgetErrors s c) := keeps_foldl h fun _ _ => keeps_modSlab

theorem keeps_execRelease (h : Keeps s₀ s) : KeepsNext s₀ (execRelease s) := by
  unfold execRelease
  split
  · exact keepsNext_next (keeps_command h fun _ h' => keeps_done ((keeps_forgetErrors h').of_core rfl))
  · exact keepsNext_fault _

theorem keeps_execBkSet (h : Keeps s₀ s) : KeepsNext s₀ (execBkSet s) := by
  unfold execBkSet
  split
  · refine keepsNext_next ?_
    refine keeps_command h fun _ h' => keeps_ite (keeps_badArg h') ?_
    extract_lets s₁
    have h₁ : Keeps s₀ s₁ := keeps_modCtx h'
    exact keeps_done (keeps_ite (keeps_postEv (keeps_filter h₁)) (keeps_filter h₁))
  · exact keepsNext_fault _

theorem keeps_execBkClear (h : Keeps s₀ s) : KeepsNext s₀ (execBkClear s) := by
  unfold execBkClear
  split
  · exact keepsNext_next (keeps_command h fun _ h' => keeps_ite (keeps_badArg h') (keeps_done (keeps_modCtx h')))
  · exact keepsNext_fault _

theorem keeps_breakStop {edge : Nat} (h : Keeps s₀ s) : Keeps s₀ (breakStop s c i k edge) := by
  unfold breakStop
  exact keeps_setEdge (h.of_core rfl)

theorem keeps_execBreakpointHit (h : Keeps s₀ s) : KeepsNext s₀ (execBreakpointHit s) := by
  unfold execBreakpointHit
  split
  · refine keepsNext_ite (keepsNext_next h) ?_
    split
    · exact keepsNext_next h
    · refine keepsNext_ite ?_ (keepsNext_next (keeps_breakStop h))
      refine keepsNext_ite (keepsNext_next h) ?_
      exact keepsNext_next (keeps_ite (keeps_breakStop (keeps_modCtx h)) (keeps_modCtx h))
  · exact keepsNext_fault _

theorem keeps_execTrArm (h : Keeps s₀ s) : KeepsNext s₀ (execTrArm s) := by
  unfold execTrArm
  split
  · refine keepsNext_next ?_
    refine keeps_command h fun _ h' => ?_
    exact keeps_ite (keeps_done h') (keeps_ite (keeps_badArg h') (keeps_done (keeps_modCtx h')))
  · exact keepsNext_fault _

theorem keeps_traceGang (h : Keeps s₀ s) : Keeps s₀ (traceGang c s g) := by
  unfold traceGang
  split
  · exact h
  · exact keeps_ite (keeps_modCtx h) (keeps_tell (keeps_modCtx h))

theorem keeps_postTrace {t : Nat} (h : Keeps s₀ s) : Keeps s₀ (postTrace s own c t) := keeps_post h

theorem keeps_landTraceRow (h : Keeps s₀ s) : Keeps s₀ (landTraceRow s own c) := by
  unfold landTraceRow
  extract_lets
  split
  · exact h
  · split
    · exact h
    · refine keeps_ite h ?_
      refine keeps_ite (keeps_postTrace h) ?_
      extract_lets _ s₁
      have h₁ : Keeps s₀ s₁ := keeps_foldl h fun _ _ => keeps_traceGang
      exact keeps_ite (keeps_modCtx h₁) (keeps_postTrace (keeps_modCtx h₁))

theorem keeps_landMarkTrace {marker : BitVec 16} {expect : BitVec 32} {actual cyc : Word} (h : Keeps s₀ s) :
    Keeps s₀ (landMarkTrace s own marker expect actual cyc) := by
  unfold landMarkTrace
  extract_lets
  split
  · exact keeps_ite (keeps_postTrace (keeps_modCtx (keeps_landMark h))) (keeps_landMark h)
  · exact keeps_landMark h

theorem keeps_postSample (h : Keeps s₀ s) : Keeps s₀ (postSample s c k) := keeps_postEv h

theorem keeps_execSmpSet (h : Keeps s₀ s) : KeepsNext s₀ (execSmpSet s) := by
  unfold execSmpSet
  split
  · refine keepsNext_next ?_
    refine keeps_command h fun _ h' => ?_
    extract_lets
    split
    · exact keeps_done (keeps_modCtx (keeps_filter h'))
    · exact keeps_ite (keeps_badArg h') (keeps_done (keeps_postSample (keeps_modCtx (keeps_filter h'))))
  · exact keepsNext_fault _

theorem keeps_sampleGang (h : Keeps s₀ s) : Keeps s₀ (sampleGang c s g) := by
  unfold sampleGang
  split
  · exact h
  · exact keeps_ite (keeps_modCtx h) (keeps_tell (keeps_modCtx h))

theorem keeps_execSampleTick (h : Keeps s₀ s) : KeepsNext s₀ (execSampleTick s) := by
  unfold execSampleTick
  split
  · extract_lets
    split
    · exact keepsNext_next h
    · exact keepsNext_next (keeps_postSample (keeps_ite (keeps_foldl h fun _ _ => keeps_sampleGang) h))
  · exact keepsNext_fault _

theorem keeps_execMkRead (h : Keeps s₀ s) : KeepsNext s₀ (execMkRead s) := by
  unfold execMkRead
  split
  · exact keepsNext_next (keeps_command h fun _ h' => keeps_done (keeps_tell (keeps_modCtx h')))
  · exact keepsNext_fault _

theorem keeps_execWinSet (h : Keeps s₀ s) : KeepsNext s₀ (execWinSet s) := by
  unfold execWinSet
  split
  · exact keepsNext_next (keeps_command h fun _ h' => keeps_ite (keeps_badArg h') (keeps_done (h'.of_core rfl)))
  · exact keepsNext_fault _

/-! #### The matrix engine's parts -/

theorem keeps_modMx {f : Mx → Mx} (h : Keeps s₀ s) : Keeps s₀ (modMx s t f) := keeps_modSlab h

/-! #### Instructions of M and microwords -/

theorem keeps_modRuns {f : MxRun → MxRun} (h : Keeps s₀ s) : Keeps s₀ (modRuns s g f) :=
  keeps_forTiles h fun _ _ => keeps_modMx

theorem keeps_postRow {b : Bool} {d : MxDesc} {f : Fmt} {fmt g0 : Nat} (h : Keeps s₀ s) :
    Keeps s₀ (postRow s own t b d f fmt q g0) := keeps_postAct h

theorem keeps_forReaders {f : State → TileName → Bool → MxDesc → Nat → State} (h : Keeps s₀ s)
    (hf : ∀ s x2 x3 x4 x5, Keeps s₀ s → Keeps s₀ (f s x2 x3 x4 x5)) :
    Keeps s₀ (forReaders s g r f) := by
  unfold forReaders
  refine keeps_foldl h fun _ _ h' => ?_
  exact keeps_ite (hf _ _ _ _ _ (keeps_ite (hf _ _ _ _ _ h') h')) (keeps_ite (hf _ _ _ _ _ h') h')

theorem keeps_startRows {ins : Instr} {u : Nat} (h : Keeps s₀ s) : Keeps s₀ (startRows s g r ins u) := by
  unfold startRows
  split
  · exact keeps_forReaders h fun _ _ _ _ _ h' => keeps_ite (keeps_postRow h') h'
  · exact h

theorem keeps_startMicro {u upc gi : Nat} (h : Keeps s₀ s) : Keeps s₀ (startMicro s g u upc gi) := by
  unfold startMicro
  split
  · exact h
  · exact keeps_postEv (keeps_startRows (keeps_modRuns h))

theorem keeps_nextMicro {cost : Nat} (h : Keeps s₀ s) : Keeps s₀ (nextMicro s g r cost) :=
  keeps_startMicro (keeps_modRuns h)

theorem keeps_underWay {step : Bool} (h : Keeps s₀ s) : Keeps s₀ (underWay s g step) := keeps_modRuns h

theorem keeps_microStep {f : State → MxRun → State} {step : Bool} (h : Keeps s₀ s)
    (hf : ∀ s x2, Keeps s₀ s → Keeps s₀ (f s x2)) :
    KeepsNext s₀ (microStep g f s step) := by
  unfold microStep
  split
  · exact keepsNext_ite (keepsNext_next h) (keepsNext_next (hf _ _ (keeps_underWay h)))
  · exact keepsNext_next h

theorem keeps_setBanks {acc1 : Bool} {st : BankState} (h : Keeps s₀ s) : Keeps s₀ (setBanks s g acc1 st) :=
  keeps_forTiles h fun _ _ => keeps_modMx

theorem keeps_parkAll {acc1 : Bool} (h : Keeps s₀ s) : Keeps s₀ (parkAll s g r acc1) := by
  unfold parkAll
  exact keeps_bumpCounter (keeps_modRuns (keeps_foldl h fun _ _ => keeps_modMx))

theorem keeps_execMstep {x bk chk : Bool} (h : Keeps s₀ s) : KeepsNext s₀ (execMstep g x bk chk s) := by
  unfold execMstep
  refine keeps_microStep h fun _ _ h' => keeps_ite (keeps_nextMicro h') (keeps_ite (keeps_parkAll h') ?_)
  extract_lets _ s₂
  have h₂ : Keeps s₀ s₂ := by
    unfold s₂
    refine keeps_forReaders (keeps_setBanks h') fun _ _ _ _ _ h'' => ?_
    exact keeps_foldl h'' fun _ _ h''' => keeps_ite h''' (keeps_postRow h''')
  refine keeps_ite ?_ (keeps_nextMicro (keeps_postAct h₂))
  exact keeps_postEv (keeps_forReaders (keeps_postAct h₂) fun _ _ _ _ _ h'' => keeps_ite (keeps_postRow h'') h'')

theorem keeps_execMchk {bk : Bool} (h : Keeps s₀ s) : KeepsNext s₀ (execMchk g bk s) := by
  unfold execMchk
  refine keeps_microStep h fun _ _ h' => ?_
  exact keeps_ite (keeps_parkAll h') (keeps_nextMicro (keeps_ite (keeps_setBanks h') h'))

theorem keeps_execMloop {n : BitVec 12} (h : Keeps s₀ s) : KeepsNext s₀ (execMloop g n s) :=
  keeps_microStep h fun _ _ h' => keeps_ite (keeps_startMicro h') (keeps_nextMicro (keeps_modRuns h'))

theorem keeps_execMend (h : Keeps s₀ s) : KeepsNext s₀ (execMend g s) := by
  unfold execMend
  refine keeps_microStep h fun _ _ h' => ?_
  exact keeps_ite (keeps_startMicro (keeps_modRuns h')) (keeps_nextMicro (keeps_modRuns h'))

theorem keeps_execMhad {bk : Bool} (h : Keeps s₀ s) : KeepsNext s₀ (execMhad g bk s) :=
  keeps_microStep h fun _ _ h' => keeps_nextMicro (keeps_postAct (keeps_setBanks h'))

theorem keeps_startBackground {acc1 flag : Bool} {fmt : BitVec 4} (h : Keeps s₀ s) :
    Keeps s₀ (startBackground s g r acc1 flag fmt) := by
  unfold startBackground
  exact keeps_foldl (keeps_modRuns (keeps_setBanks h)) fun _ _ h' => keeps_forTiles h' fun _ _ => keeps_postAct

theorem keeps_execMzero {bk : Bool} (h : Keeps s₀ s) : KeepsNext s₀ (execMzero g bk s) :=
  keeps_microStep h fun _ _ h' => keeps_nextMicro (keeps_forTiles (keeps_setBanks h') fun _ _ => keeps_postAct)

theorem keeps_execMsnap (h : Keeps s₀ s) : KeepsNext s₀ (execMsnap g s) := by
  unfold execMsnap
  refine keeps_microStep h fun _ _ h' => ?_
  exact keeps_nextMicro (keeps_forTiles (keeps_setBanks (keeps_setBanks h')) fun _ _ => keeps_postAct)

theorem keeps_execMhalt (h : Keeps s₀ s) :
    KeepsNext s₀ (execMhalt g s) := keeps_microStep h fun _ _ => keeps_modRuns

theorem keeps_mxStep {g : BitVec 5} {f : Issue → State → Owner → List TileName → State} (h : Keeps s₀ s)
    (hf : ∀ x1 s x3 x4, Keeps s₀ s → Keeps s₀ (f x1 s x3 x4)) :
    KeepsNext s₀ (mxStep s g port src f) := keeps_slotStep h fun _ _ h' => keeps_untagged h' fun _ h'' => hf _ _ _ _
        h''

theorem keeps_postRoutine (h : Keeps s₀ s) : Keeps s₀ (postRoutine s own at_) := keeps_postEv h

theorem keeps_execMxcall {g : BitVec 5} (h : Keeps s₀ s) : KeepsNext s₀ (execMxcall g src s) := by
  unfold execMxcall
  refine keeps_mxStep h fun _ _ _ _ h' => ?_
  extract_lets
  split
  · exact keeps_raiseAux h'
  · split
    · exact keeps_raiseAux h'
    · split
      · exact keeps_raiseAux h'
      · refine keeps_ite (keeps_raise h') ?_
        extract_lets
        split
        · exact keeps_raiseAux h'
        · exact keeps_postRoutine (keeps_startMicro (keeps_foldl h' fun _ _ => keeps_modSlab))

theorem keeps_execMxresume {g : BitVec 5} (h : Keeps s₀ s) : KeepsNext s₀ (execMxresume g src s) := by
  unfold execMxresume
  refine keeps_mxStep h fun _ _ _ _ h' => ?_
  extract_lets
  split
  · exact keeps_raiseAux h'
  · split
    · exact keeps_raiseAux h'
    · exact keeps_raise h'
    · refine keeps_ite (keeps_raise h') ?_
      extract_lets
      split
      · exact keeps_raiseAux h'
      · exact keeps_postRoutine (keeps_startMicro (keeps_foldl h' fun _ _ => keeps_modMx))

theorem keeps_execMxstat {g : BitVec 5} (h : Keeps s₀ s) : KeepsNext s₀ (execMxstat g src s) :=
  keeps_mxStep h fun _ _ _ _ h' => keeps_forTiles h' fun _ _ => keeps_postAct

theorem keeps_landMxstat {from_ : Option TileName} (h : Keeps s₀ s) :
    Keeps s₀ (landMxstat s own t from_) := keeps_landSl h

theorem keeps_execMxzero {g : BitVec 5} (h : Keeps s₀ s) : KeepsNext s₀ (execMxzero g src s) := by
  unfold execMxzero
  refine keeps_mxStep h fun _ _ _ _ h' => ?_
  split
  · exact keeps_raiseAux h'
  · exact keeps_postRoutine (keeps_forTiles h' fun _ _ h'' => keeps_postLand (keeps_modMx h''))

theorem keeps_execMxswap {g : BitVec 5} (h : Keeps s₀ s) : KeepsNext s₀ (execMxswap g src s) := by
  unfold execMxswap
  refine keeps_mxStep h fun _ _ _ _ h' => ?_
  split
  · exact keeps_raiseAux h'
  · exact keeps_forTiles h' fun _ _ => keeps_postLand

theorem keeps_reclaim {v : Word} (h : Keeps s₀ s) : Keeps s₀ (reclaim s g t k idx v) := by
  unfold reclaim
  split
  · exact keeps_modMx h
  · exact h

theorem keeps_execMxload {g : BitVec 5} (h : Keeps s₀ s) : KeepsNext s₀ (execMxload g src s) := by
  unfold execMxload
  refine keeps_mxStep h fun _ _ _ _ h' => ?_
  extract_lets
  split
  · exact keeps_raiseAux h'
  · split
    · exact keeps_raiseAux h'
    · split
      · exact keeps_raiseAux h'
      · exact keeps_foldl h' fun _ _ h'' => keeps_ite (keeps_postLand h'') (keeps_postLand (keeps_reclaim h''))

theorem keeps_replaceMicro {ins : Instr} (h : Keeps s₀ s) : Keeps s₀ (replaceMicro s r ins) := by
  unfold replaceMicro
  split
  · refine keeps_startRows (h.of_agenda fun ha => agendaSorted_map (fun e => ?_) (agendaSorted_filter _ ha))
    split
    · exact ⟨rfl, rfl, rfl⟩
    · exact ⟨rfl, rfl, rfl⟩
  · exact h

theorem keeps_landMxload {entry : Bool} {v : Word} (h : Keeps s₀ s) : Keeps s₀ (landMxload s t entry idx v) := by
  unfold landMxload
  extract_lets
  split
  · exact keeps_ite (keeps_replaceMicro (keeps_modRuns (keeps_modMx h))) (keeps_modMx h)
  · exact keeps_modMx h

theorem keeps_landMxswap (h : Keeps s₀ s) : Keeps s₀ (landMxswap s t) := keeps_modMx h

theorem keeps_landMxzero {banks : BitVec 2} {kind : Bool} (h : Keeps s₀ s) : Keeps s₀ (landMxzero s t banks kind) :=
  keeps_modMx h

theorem keeps_landMxzeroEnd {acc1 kind : Bool} (h : Keeps s₀ s) :
    Keeps s₀ (landMxzeroEnd s t acc1 kind) := keeps_modMx h

theorem keeps_landMxsnap {front1 : Bool} (h : Keeps s₀ s) : Keeps s₀ (landMxsnap s t front1) := keeps_modMx h

theorem keeps_execRoutineLanding (h : Keeps s₀ s) : KeepsNext s₀ (execRoutineLanding s) := by
  unfold execRoutineLanding
  split
  · exact keepsNext_next (keeps_forTiles h fun _ _ => keeps_modMx)
  · exact keepsNext_fault _

theorem keeps_landMxrow {b : Bool} (h : Keeps s₀ s) : Keeps s₀ (landMxrow s t b q) := by
  unfold landMxrow
  extract_lets
  split
  · exact h
  · exact keeps_modMx h

theorem keeps_landMxgroup {acc1 : Bool} (h : Keeps s₀ s) : Keeps s₀ (landMxgroup s g acc1) := by
  unfold landMxgroup
  split
  · exact h
  · extract_lets
    split
    · exact keeps_raiseAux (keeps_forTiles (keeps_modRuns (keeps_ite (keeps_setFlags h) h)) fun _ _ => keeps_modMx)
    · exact keeps_bumpCounter (keeps_modRuns (keeps_foldl (keeps_ite (keeps_setFlags h) h) fun _ _ => keeps_modMx))

theorem keeps_landMxhad {acc1 : Bool} (h : Keeps s₀ s) : Keeps s₀ (landMxhad s g acc1) := by
  unfold landMxhad
  exact keeps_foldl (keeps_ite (keeps_setFlags h) h) fun _ _ => keeps_modMx

theorem keeps_drainCheck {bg : MxBg} (h : Keeps s₀ s) : Keeps s₀ (drainCheck s g r bg) := by
  unfold drainCheck
  extract_lets _ flags s₁ stop _
  have hflags {s : State} (h : Keeps s₀ s) (fl : FlagSet) : Keeps s₀ (flags s fl) := keeps_ite (keeps_setFlags h) h
  have h₁ : Keeps s₀ s₁ := hflags h _
  split
  · exact keeps_raiseAux (keeps_modRuns h₁)
  · split
    · exact keeps_raiseAux (keeps_modRuns (hflags h₁ _))
    · exact hflags h₁ _

theorem keeps_rowStore (h : Keeps s₀ s) : Keeps s₀ (rowStore s t a n v) := keeps_markDirty (keeps_padWrite h)

theorem keeps_landMxdrainRow (h : Keeps s₀ s) : Keeps s₀ (landMxdrainRow s t i) := by
  unfold landMxdrainRow
  split
  · exact h
  · split
    · exact h
    · extract_lets s₁ _ _ _ _ _ _ s₂
      have h₁ : Keeps s₀ s₁ := keeps_ite (keeps_drainCheck h) h
      have h₂ : Keeps s₀ s₂ := keeps_ite (keeps_modMx (keeps_rowStore h₁)) (keeps_ite h₁ (keeps_rowStore h₁))
      exact keeps_ite (keeps_modMx h₂) h₂

/-! #### The host's ports -/

theorem keeps_execHostMailboxWrite (h : Keeps s₀ s) : KeepsNext s₀ (execHostMailboxWrite s) := by
  unfold execHostMailboxWrite
  split
  · split
    · exact keepsNext_next (h.of_core rfl)
    · refine keepsNext_ite (keepsNext_next (h.of_core rfl)) ?_
      exact keepsNext_ite (keepsNext_next (keeps_modGang h)) (keepsNext_next (keeps_modGang h))
  · exact keepsNext_fault _

theorem keeps_execDoorbellWrite (h : Keeps s₀ s) : KeepsNext s₀ (execDoorbellWrite s) := by
  unfold execDoorbellWrite
  split
  · extract_lets
    split
    · exact keepsNext_next (h.of_core rfl)
    · exact keepsNext_ite (keepsNext_next (h.of_core rfl)) (keepsNext_next (keeps_postEvent h))
  · exact keepsNext_fault _

theorem keeps_windowPiece {w off : Nat} {bs : List Byte} (h : Keeps s₀ s) : Keeps s₀ (windowPiece s w off bs) := by
  unfold windowPiece
  refine keeps_ite h ?_
  split
  · exact h.of_core rfl
  · exact keeps_ite (keeps_gvaLogged h).fst ((keeps_gvaLogged h).fst.of_core rfl)

theorem keeps_execHostWindowWrite (h : Keeps s₀ s) : KeepsNext s₀ (execHostWindowWrite s) := by
  unfold execHostWindowWrite
  split
  · exact keepsNext_next (keeps_windowPiece (keeps_windowPiece h))
  · exact keepsNext_fault _

theorem keeps_execHostWindowRead (h : Keeps s₀ s) : KeepsNext s₀ (execHostWindowRead s) := by
  unfold execHostWindowRead
  split
  · exact keepsNext_next (keeps_tell h)
  · exact keepsNext_fault _

/-! #### The loader -/

theorem keeps_commitLoad {o : List Byte} {p : Placing} {acc : LoadAcc} {spans : List (Nat × Nat)} (h : Keeps s₀ s) :
    Keeps s₀ (commitLoad s c o p acc spans) := keeps_gvaWrite
        (keeps_foldl (keeps_modCtx h) fun _ _ => keeps_modSlab)

theorem keeps_loadSteps {o : List Byte} (h : Keeps s₀ s) : KeepsOk s₀ (loadSteps s c o) := by
  unfold loadSteps
  extract_lets
  repeat' refine keepsOk_bind fun _ => ?_
  exact keepsOk_pure (keepsFst_mk (keeps_commitLoad h))

theorem keeps_execLoadObject (h : Keeps s₀ s) : KeepsNext s₀ (execLoadObject s) := by
  unfold execLoadObject
  split
  · refine keepsNext_ite (keepsNext_next (keeps_tell h)) ?_
    split
    · exact keepsNext_next (keeps_tell h)
    next hl => exact keepsNext_next (keeps_tell (keeps_loadSteps h _ hl).fst)
  · exact keepsNext_fault _

/-! #### Links and the pod transport -/

theorem keeps_linkEvent {st : LinkState} (h : Keeps s₀ s) : Keeps s₀ (linkEvent s port st) := by
  unfold linkEvent
  exact keeps_postToEventGangs h

theorem keeps_putLink {l : LinkId} {st : LinkState} (h : Keeps s₀ s) : Keeps s₀ (putLink s l st n) := h.of_core rfl

theorem keeps_setLink {l : LinkId} {st : LinkState} (h : Keeps s₀ s) : Keeps s₀ (setLink s l st) := by
  unfold setLink
  extract_lets
  split
  · exact keeps_putLink h
  · exact keeps_linkEvent (keeps_putLink h)
  · exact keeps_linkEvent (keeps_putLink h)

theorem keeps_postAttempt {l : LinkId} (h : Keeps s₀ s) : Keeps s₀ (postAttempt s l) := by
  unfold postAttempt
  exact keeps_postEv (keeps_freeDelay h)

theorem keeps_seamTrained {l : LinkId} (h : Keeps s₀ s) : Keeps s₀ (seamTrained s l) := by
  unfold seamTrained
  split
  · extract_lets s₁
    have h₁ : Keeps s₀ s₁ := by
      unfold s₁
      refine keeps_ite ?_ h
      split
      · exact keeps_retireTile h
      · exact keeps_putUnit (keeps_leaveLast h)
    exact keeps_ite (keeps_postEv h₁) h₁
  · exact h

theorem keeps_restartPort {l : LinkId} (h : Keeps s₀ s) : Keeps s₀ (restartPort s l) := by
  unfold restartPort
  split
  · exact keeps_ite h (keeps_postEv h)
  · exact h

theorem keeps_postSelftest {r : Nat} (h : Keeps s₀ s) : Keeps s₀ (postSelftest s r) := by
  unfold postSelftest
  exact keeps_postEv (keeps_freeDelay h)

theorem keeps_startSelftests (h : Keeps s₀ s) : Keeps s₀ (startSelftests s) :=
  keeps_ite (keeps_foldl (keeps_setPhase h) fun _ _ => keeps_postSelftest) h

theorem keeps_execLinkTraining (h : Keeps s₀ s) : KeepsNext s₀ (execLinkTraining s) := by
  unfold execLinkTraining
  split
  · refine keepsNext_ite (keepsNext_next (keeps_ite (keeps_postAttempt h) h)) ?_
    split
    · exact keepsNext_next h
    · refine keepsNext_ite ?_ ?_
      · exact keepsNext_next (keeps_startSelftests (keeps_restartPort (keeps_seamTrained (keeps_setLink h))))
      · refine keepsNext_ite ?_ (keepsNext_next (keeps_postAttempt (keeps_putLink h)))
        exact keepsNext_next (keeps_startSelftests (keeps_seamTrained (keeps_setLink h)))
    · exact keepsNext_next (keeps_postAttempt (keeps_setLink h))
  · exact keepsNext_fault _

theorem keeps_execLinkStop (h : Keeps s₀ s) : KeepsNext s₀ (execLinkStop s) := by
  unfold execLinkStop
  split
  · exact keepsNext_next (keeps_ite (keeps_setLink h) h)
  · exact keepsNext_fault _

theorem keeps_resendFrames (h : Keeps s₀ s) : Keeps s₀ (resendFrames s p) := by
  unfold resendFrames
  exact keeps_postEv (keeps_foldl (keeps_modPort h) fun _ _ => keeps_tell)

theorem keeps_failModule {m : Nat} (h : Keeps s₀ s) : Keeps s₀ (failModule s m) :=
  keeps_foldl h fun _ _ h' => keeps_foldl h' fun _ _ h'' => keeps_ite (keeps_endCollective h'') h''

theorem keeps_failPort (h : Keeps s₀ s) : Keeps s₀ (failPort s p) := by
  unfold failPort
  extract_lets
  split
  · exact keeps_foldl (keeps_setLink (keeps_modPort h)) fun _ _ => keeps_sendFrame
  · exact keeps_failModule (keeps_setLink (keeps_modPort h))

theorem keeps_releaseFrames {ack : BitVec 32} (h : Keeps s₀ s) : Keeps s₀ (releaseFrames s p ack) := by
  unfold releaseFrames
  extract_lets
  split
  · exact h
  · exact keeps_ite h (keeps_ite (keeps_modPort h) (keeps_postEv (keeps_modPort h)))

theorem keeps_resendOrFail (h : Keeps s₀ s) : Keeps s₀ (resendOrFail s p) := by
  unfold resendOrFail
  exact keeps_ite h (keeps_ite (keeps_failPort h) (keeps_resendFrames h))

theorem keeps_control {kind dst : BitVec 8} {job : BitVec 32} (h : Keeps s₀ s) :
    Keeps s₀ (control s p kind dst job) := by
  unfold control
  exact keeps_tell h

theorem keeps_takeContribution (h : Keeps s₀ s) : Keeps s₀ (takeContribution s p job) := by
  unfold takeContribution
  split
  split
  · exact keeps_foldl (keeps_foldl h fun _ _ => keeps_modPort) fun _ _ => keeps_addContribution
  · exact h

theorem keeps_countJob (h : Keeps s₀ s) : Keeps s₀ (countJob s) := h.of_core rfl

theorem keeps_execTransportDataReceive (h : Keeps s₀ s) : KeepsNext s₀ (execTransportDataReceive s) := by
  unfold execTransportDataReceive
  split
  · refine keepsNext_ite (keepsNext_next h) ?_
    refine keepsNext_ite (keepsNext_next (keeps_control h)) ?_
    refine keepsNext_ite (keepsNext_next h) ?_
    refine keepsNext_ite (keepsNext_next (keeps_control (keeps_ite (keeps_countJob h) h))) ?_
    refine keepsNext_ite (keepsNext_next (keeps_countJob (keeps_control (keeps_modPort h)))) ?_
    exact keepsNext_next (keeps_takeContribution (keeps_modPort (keeps_control (keeps_modPort h))))
  · exact keepsNext_fault _

theorem keeps_execTransportAckReceive (h : Keeps s₀ s) : KeepsNext s₀ (execTransportAckReceive s) := by
  unfold execTransportAckReceive
  split
  · exact keepsNext_next (keeps_ite h (keeps_ite (keeps_countJob h) (keeps_releaseFrames h)))
  · exact keepsNext_fault _

theorem keeps_execTransportNakReceive (h : Keeps s₀ s) : KeepsNext s₀ (execTransportNakReceive s) := by
  unfold execTransportNakReceive
  split
  · exact keepsNext_next (keeps_ite h (keeps_ite (keeps_countJob h) (keeps_resendOrFail (keeps_releaseFrames h))))
  · exact keepsNext_fault _

theorem keeps_execTransportResendTimeout (h : Keeps s₀ s) : KeepsNext s₀ (execTransportResendTimeout s) := by
  unfold execTransportResendTimeout
  split
  · exact keepsNext_next (keeps_ite (keeps_resendOrFail h) h)
  · exact keepsNext_fault _

theorem keeps_execLinkUnrecoverableError (h : Keeps s₀ s) : KeepsNext s₀ (execLinkUnrecoverableError s) := by
  unfold execLinkUnrecoverableError
  split
  · refine keepsNext_ite (keepsNext_next h) ?_
    split
    · exact keepsNext_next (keeps_failPort h)
    · exact keepsNext_next (keeps_setLink h)
    · exact keepsNext_next (keeps_retireTile (keeps_retireTile (keeps_setLink h)))
  · exact keepsNext_fault _

theorem keeps_execSeamBeatError (h : Keeps s₀ s) : KeepsNext s₀ (execSeamBeatError s) := by
  unfold execSeamBeatError
  split
  · refine keepsNext_ite (keepsNext_next h) ?_
    exact keepsNext_next (keeps_postEv (keeps_ite (keeps_postEv (h.of_core rfl)) (h.of_core rfl)))
  · exact keepsNext_fault _

theorem keeps_lockClock {nanos : Nat} (h : Keeps s₀ s) : Keeps s₀ (lockClock s nanos) := by
  unfold lockClock
  exact (keeps_setClockRate h).of_core rfl

theorem keeps_ptpExchange {m : PtpMsg} (h : Keeps s₀ s) : Keeps s₀ (ptpExchange s p m) := by
  cases m with
  | sync => exact h.of_core rfl
  | followUp =>
    rw [ptpExchange]
    split
    · exact keeps_ite (h.of_core rfl) h
    · exact h
  | delayResp =>
    rw [ptpExchange]
    split
    · exact keeps_ite (keeps_lockClock h) h
    · exact h
  | ptm => exact h

theorem keeps_execPtpMessage (h : Keeps s₀ s) : KeepsNext s₀ (execPtpMessage s) := by
  unfold execPtpMessage
  split
  · refine keepsNext_next ?_
    refine keeps_ite h ?_
    split
    · exact keeps_ptpExchange h
    · exact keeps_lockClock h
    · exact h
  · exact keepsNext_fault _

theorem keeps_execTimeSourceLoss (h : Keeps s₀ s) : KeepsNext s₀ (execTimeSourceLoss s) :=
  keepsNext_next (keeps_ite h (keeps_tell (h.of_core rfl)))

theorem keeps_execTimeSourceSelect (h : Keeps s₀ s) : KeepsNext s₀ (execTimeSourceSelect s) := by
  unfold execTimeSourceSelect
  split
  · exact keepsNext_next (h.of_core rfl)
  · exact keepsNext_fault _

/-! #### Bring-up and voltage -/

theorem keeps_execPowerOn (h : Keeps s₀ s) : KeepsNext s₀ (execPowerOn s) := by
  unfold execPowerOn
  refine keepsNext_ite (keepsNext_next h) ?_
  exact keepsNext_next (keeps_foldl (h.of_core rfl) fun _ _ h' => keeps_postAttempt (keeps_setLink h'))

theorem keeps_enterMerging (h : Keeps s₀ s) : Keeps s₀ (enterMerging s) := by
  unfold enterMerging
  extract_lets s₁
  have h₁ : Keeps s₀ s₁ := keeps_foldl (keeps_setPhase h) fun _ _ h' => keeps_postAttempt (keeps_setLink h')
  exact keeps_postSlot (keeps_setClock (keeps_postEv (keeps_postEv h₁)))

theorem keeps_execSelftestResult (h : Keeps s₀ s) : KeepsNext s₀ (execSelftestResult s) := by
  unfold execSelftestResult
  split
  · refine keepsNext_ite (keepsNext_next h) ?_
    extract_lets _ _ s₂
    have h₂ : Keeps s₀ s₂ := (keeps_leaveLast h).of_core rfl
    refine keepsNext_next ?_
    refine keeps_ite (keeps_enterMerging (keeps_ite (keeps_tell (keeps_tell h₂)) h₂)) ?_
    exact keeps_ite (keeps_tell (keeps_tell h₂)) h₂
  · exact keepsNext_fault _

theorem keeps_execPowerOff (h : Keeps s₀ s) : KeepsNext s₀ (execPowerOff s) := by
  refine keepsNext_next (keeps_foldl (h.trans ⟨fun _ => ⟨rfl, rfl⟩, fun _ => rfl, ?_⟩) fun _ _ => keeps_post)
  change s.now ≤ (s.now / 2 ^ 64 + 1) * 2 ^ 64
  omega

theorem keeps_writeMap {m : BindingMap} {gen : Nat} {a : BitVec 512 × BitVec 512} (h : Keeps s₀ s) :
    Keeps s₀ (writeMap s m gen a) := by
  unfold writeMap
  exact keeps_tell (keeps_tell ((keeps_leavePositions h).of_core rfl))

theorem keeps_resumeServed (h : Keeps s₀ s) : Keeps s₀ (resumeServed s) :=
  keeps_foldl h fun _ _ h' => keeps_ite (keeps_ite (keeps_resumeCtx (keeps_modCtx h')) (keeps_modCtx h')) h'

theorem keeps_execBindingMapWrite (h : Keeps s₀ s) : KeepsNext s₀ (execBindingMapWrite s) := by
  unfold execBindingMapWrite
  split
  · refine keepsNext_ite (keepsNext_next h) ?_
    refine keepsNext_ite (keepsNext_next (keeps_leaveService h)) ?_
    split
    · exact keepsNext_next (keeps_leaveService h)
    · exact keepsNext_next (keeps_resumeServed (keeps_postEv (keeps_setPhase (keeps_writeMap h))))
  · exact keepsNext_fault _

theorem keeps_retimeSamples (h : Keeps s₀ s) : Keeps s₀ (retimeSamples s) := by
  unfold retimeSamples
  refine keeps_foldl h fun _ _ h' => ?_
  split
  · exact keeps_postSample (keeps_filter h')
  · exact h'

theorem keeps_askQuiesce {cs : List Nat} (h : Keeps s₀ s) : Keeps s₀ (askQuiesce s cs) :=
  keeps_foldl h fun _ _ h' => keeps_ite (keeps_modCtx (keeps_beginQuiesce h')) h'

theorem keeps_postBinding (h : Keeps s₀ s) : Keeps s₀ (postBinding s) := by
  unfold postBinding
  extract_lets k y
  have h₁ : Keeps s₀ (freeDelay (setClock (setPhase { s with freeCount := k + 1 } .binding) y)).2 :=
    keeps_freeDelay (keeps_setClock (keeps_setPhase (h.of_core rfl)))
  split
  next hd =>
    split
    · exact keeps_postEv (h₁.of_snd_eq hd)
    · exact keeps_leaveService (h₁.of_snd_eq hd)

theorem keeps_execIslandMerge (h : Keeps s₀ s) : KeepsNext s₀ (execIslandMerge s) := by
  unfold execIslandMerge
  split
  · refine keepsNext_ite (keepsNext_next h) ?_
    refine keepsNext_ite (keepsNext_next h) ?_
    refine keepsNext_ite (keepsNext_next (keeps_postEv (keeps_askQuiesce h))) ?_
    refine keepsNext_ite (keepsNext_next (keeps_postEv h)) ?_
    extract_lets s₁
    have h₁ : Keeps s₀ s₁ := keeps_retimeSamples (keeps_setForward (h.of_core rfl))
    exact keepsNext_next (keeps_ite (keeps_postBinding h₁) (keeps_resumeServed h₁))
  · exact keepsNext_fault _

theorem keeps_moveTile (h : Keeps s₀ s) : Keeps s₀ (moveTile s t) := by
  unfold moveTile
  extract_lets s₁
  have h₁ : Keeps s₀ s₁ := by
    unfold s₁
    refine keeps_foldl h fun _ _ h' => ?_
    split
    · exact keeps_ite (keeps_enterFaulted (keeps_raiseAux h')) h'
    · exact h'
  exact keeps_modSlab h₁

theorem keeps_execRemap (h : Keeps s₀ s) : KeepsNext s₀ (execRemap s) := by
  unfold execRemap
  split
  · split
    · exact keepsNext_next (keeps_answer h)
    · refine keepsNext_ite (keepsNext_next (keeps_answer h)) ?_
      refine keepsNext_ite (keepsNext_next (h.of_core rfl)) ?_
      extract_lets s₁
      have h₁ : Keeps s₀ s₁ := keeps_swapTiles h
      split
      · exact keepsNext_next (keeps_leaveService h₁)
      · extract_lets
        split
        · exact keepsNext_next (keeps_leaveService h₁)
        · refine keepsNext_ite (keepsNext_next (keeps_leaveService h₁)) ?_
          refine keepsNext_next ?_
          refine keeps_foldl (keeps_writeMap (keeps_foldl h₁ fun _ _ => keeps_moveTile)) fun _ _ h' => ?_
          exact keeps_ite (keeps_postAttempt (keeps_setLink h')) h'
  · exact keepsNext_fault _

theorem keeps_execReinstatement (h : Keeps s₀ s) : KeepsNext s₀ (execReinstatement s) := by
  unfold execReinstatement
  split
  · exact keepsNext_next (keeps_ite (keeps_putUnit (h.of_core rfl)) h)
  · exact keepsNext_fault _

theorem keeps_withhold (h : Keeps s₀ s) : Keeps s₀ (withhold s) := by
  unfold withhold
  exact keeps_ite (h.of_core rfl) (keeps_ite (keeps_postSlot (h.of_core rfl)) (h.of_core rfl))

theorem keeps_postThrottle (h : Keeps s₀ s) : Keeps s₀ (postThrottle s) := keeps_ite h (keeps_postAct h)

theorem keeps_landThrottle (h : Keeps s₀ s) : Keeps s₀ (landThrottle s) :=
  keeps_ite h (keeps_postThrottle (keeps_withhold h))

theorem keeps_setDuty {short : Bool} (h : Keeps s₀ s) : Keeps s₀ (setDuty s short) := by
  unfold setDuty
  exact keeps_ite (h.of_core rfl) (keeps_postThrottle (h.of_core rfl))

theorem keeps_trimIsland {p : State × Bool} (h : KeepsFst s₀ p) : KeepsFst s₀ (trimIsland p i) := by
  obtain ⟨s, short⟩ := p
  have h₁ : Keeps s₀ { s with freeCount := s.freeCount + 1 } := h.fst.of_core rfl
  refine keepsFst_ite (keepsFst_mk (h₁.of_core rfl)) (keepsFst_ite ?_ (keepsFst_mk h₁))
  exact keepsFst_ite (keepsFst_mk (keeps_tell h₁)) (keepsFst_mk (h₁.of_core rfl))

theorem keeps_execVoltageTrim (h : Keeps s₀ s) : KeepsNext s₀ (execVoltageTrim s) := by
  unfold execVoltageTrim
  refine keepsNext_ite (keepsNext_next (h.of_core rfl)) ?_
  split
  next hf =>
    have h₁ := (keepsFst_foldl (keepsFst_mk h) fun _ _ => keeps_trimIsland).of_eq hf
    exact keepsNext_next (keeps_postEv (keeps_setDuty h₁))

theorem keeps_execDroopAlarm (h : Keeps s₀ s) : KeepsNext s₀ (execDroopAlarm s) := by
  unfold execDroopAlarm
  split
  · exact keepsNext_next (keeps_ite (keeps_withhold h) h)
  · exact keepsNext_fault _

theorem keeps_execHeartbeat (h : Keeps s₀ s) : KeepsNext s₀ (execHeartbeat s) := by
  unfold execHeartbeat
  split
  · refine keepsNext_ite (keepsNext_next h) ?_
    exact keepsNext_next (keeps_postEv (keeps_ite (keeps_postEv (keeps_modGang (keeps_ite (keeps_raise h) h))) h))
  · exact keepsNext_fault _

theorem keeps_execHeartbeatTimeout (h : Keeps s₀ s) : KeepsNext s₀ (execHeartbeatTimeout s) := by
  unfold execHeartbeatTimeout
  split
  · exact keepsNext_ite (keepsNext_next (keeps_raise (keeps_retireFrontEnd h))) (keepsNext_next h)
  · exact keepsNext_fault _

theorem keeps_execBellwetherRoundStart (h : Keeps s₀ s) : KeepsNext s₀ (execBellwetherRoundStart s) :=
  keepsNext_ite (keepsNext_next h) (keepsNext_next (keeps_postEv (keeps_postEv h)))

theorem keeps_drift {d : Int} (h : Keeps s₀ s) : Keeps s₀ (drift s t d) := by
  unfold drift
  extract_lets s₁
  have h₁ : Keeps s₀ s₁ := keeps_ite (keeps_retireTile h) h
  split
  · exact keeps_modSlab h₁
  · exact keeps_ite (keeps_raiseAux (keeps_modGang h₁)) (keeps_modGang h₁)

theorem keeps_execBeaconReceive (h : Keeps s₀ s) : KeepsNext s₀ (execBeaconReceive s) := by
  unfold execBeaconReceive
  split
  · refine keepsNext_ite (keepsNext_next h) ?_
    exact keepsNext_next (keeps_foldl (keeps_ite h (keeps_drift h)) fun _ _ => keeps_postEv)
  · exact keepsNext_fault _

/-! #### Landings -/

theorem keeps_landGang {f : Gang → Gang} (h : Keeps s₀ s) :
    Keeps s₀ (landGang s own f) := keeps_ite (keeps_modGang h) h

theorem keeps_landAction {x : Action} (h : Keeps s₀ s) : Keeps s₀ (landAction s own x) := by
  unfold landAction
  cases x with
  | feRes | feDiv => exact keeps_landFE h
  | slRes => exact keeps_landSl h
  | vRes => exact keeps_landVec h
  | tctl | tstclr | evm | fmt | bnd => exact keeps_landGang h
  | mark => exact keeps_landMarkTrace h
  | mem => exact keeps_landAccess h
  | reply => exact keeps_foldl h fun _ _ => keeps_landSl
  | relCheck | refresh => exact h
  | acquire => exact keeps_acquireObject h
  | tagWrite => exact keeps_landTagWrite h
  | tagClear => exact keeps_landTagClear h
  | tagLook => exact keeps_landTagLook h
  | unmap => exact keeps_landUnmap h
  | query => exact keeps_landQuery h
  | bankRel => exact keeps_landBankRel h
  | mapStart => exact keeps_landMapStart h
  | ftouch => exact keeps_landFtouch h
  | constRow => exact keeps_landConstRow h
  | vload => exact keeps_landVload h
  | vstore => exact keeps_landVstore h
  | floadRow => exact keeps_landFloadRow h
  | feval => exact keeps_landFeval h
  | xclr => exact keeps_landXclr h
  | mxstat => exact keeps_landMxstat h
  | mxload => exact keeps_landMxload h
  | mxswap => exact keeps_landMxswap h
  | mxzero => exact keeps_landMxzero h
  | mxrow => exact keeps_landMxrow h
  | mxgroup => exact keeps_landMxgroup h
  | mxhad => exact keeps_landMxhad h
  | mxzeroEnd => exact keeps_landMxzeroEnd h
  | mxsnap => exact keeps_landMxsnap h
  | mxdrainRow => exact keeps_landMxdrainRow h
  | resClear => exact keeps_landResClear h
  | winv => exact keeps_landWinv h
  | dirtySlot => exact keeps_landDirtySlot h
  | dirtyRegion => exact keeps_landDirtyRegion h
  | fillRead => exact keeps_landFillRead h
  | fillRow => exact keeps_landFillRow h
  | flushRow => exact keeps_landFlushRow h
  | flushWrite => exact keeps_landFlushWrite h
  | routeRow => exact keeps_landRouteRow h
  | nameLoad => exact keeps_landNameLoad h
  | nameQuery => exact keeps_landNameQuery h
  | barWrite => exact keeps_landBarWrite h
  | barAdd => exact keeps_landBarAdd h
  | barHeld => exact keeps_landBarHeld h
  | barTest => exact keeps_landBarTest h
  | barCheck => exact keeps_landBarCheck h
  | barBeat => exact keeps_landBarBeat h
  | busTake => exact keeps_landBusTake h
  | busSettle => exact keeps_landBusSettle h
  | hop => exact keeps_landHop h
  | copyRead => exact keeps_landCopyRead h
  | invalStop => exact keeps_landInvalStop h
  | traceRow => exact keeps_landTraceRow h
  | throttle => exact keeps_landThrottle h
  | tokGet => exact keeps_landTokGet h
  | collRead => exact keeps_landCollRead h

theorem stopAccess_place (own : Owner) (k : Nat) (e : Ev) :
    (stopAccess own k e).at_ = e.at_ ∧ (stopAccess own k e).ord = e.ord ∧ (stopAccess own k e).sub = e.sub := by
  unfold stopAccess
  split
  · split
    · exact ⟨rfl, rfl, rfl⟩
    · exact ⟨rfl, rfl, rfl⟩
  · split
    · exact ⟨rfl, rfl, rfl⟩
    · exact ⟨rfl, rfl, rfl⟩
  · exact ⟨rfl, rfl, rfl⟩

theorem keeps_checkRelease {a : MemAccess} (h : Keeps s₀ s) : Keeps s₀ (checkRelease s own a) := by
  unfold checkRelease
  split
  · exact h
  · extract_lets
    split
    · exact h
    · refine keeps_ite (keeps_raiseAux (keeps_filter h)) (h.of_agenda (agendaSorted_map fun e => ?_))
      split
      · exact stopAccess_place own _ e
      · exact ⟨rfl, rfl, rfl⟩

theorem keeps_execOperationLanding {act : Action} (h : Keeps s₀ s) :
    KeepsNext s₀ (execOperationLanding own act s) := by
  unfold execOperationLanding
  split
  · exact keepsNext_next (keeps_checkRelease h)
  · exact keepsNext_next (keeps_landAction h)

/-! #### One arm per instruction -/

theorem keeps_exec {i : Instr} (h : Keeps s₀ s) : KeepsNext s₀ (exec i s) := by
  unfold exec
  cases i with
  | bundleIssue => exact keeps_execBundleIssue h
  | registerWrite => exact keeps_execRegisterWrite h
  | tctlWrite | cycrd | evmask => exact keeps_ctlStep h fun _ _ _ _ _ => keeps_postLand
  | tstclr => exact keeps_execTstclr h
  | operationLanding => exact keeps_execOperationLanding h
  | add | sub | and | or | xor | andn | shl | shr | sar | rol | mul | mulh | mulhu | min | max | minu | maxu |
    extr | sext | zext | cmpeq | cmpne | cmplt | cmpltu | cmple | cmpleu | cmpbit | addW | subW | shlW | shrW |
    sarW | rolW | mulW | mulhW | mulhuW | minW | maxW | minuW | maxuW | cmpeqW | cmpneW | cmpltW | cmpltuW |
    cmpleW | cmpleuW => exact keeps_intAT h
  | addsh | ins | sel => exact keeps_intACT h
  | divs | divu | remu | divsW | divuW | remuW => exact keeps_intDiv h
  | clz | ctz | popc | clzW | ctzW => exact keeps_intT h
  | cvta | issp => exact keeps_slotStep h fun _ _ => keeps_postLand
  | jmp | jmpr | call | callr | ret | trap | sys | evret | halt
    => exact keeps_ctlStep h fun _ _ _ _ _ => keeps_recordExit
  | loop | loopm | brkl => exact keeps_ctlStep h fun _ _ _ _ _ => keeps_recordLoop
  | chkdf => exact keeps_execChkdf h
  | chkmx => exact keeps_execChkmx h
  | qpoint => exact keeps_execQpoint h
  | waitev | cycwait | cycalign => exact keeps_ctlStep h fun _ _ _ _ _ => keeps_recordCWait
  | mark => exact keeps_execMark h
  | fmtset | bndset => exact keeps_ctlStep h fun _ _ _ _ _ h' => keeps_ite (keeps_raise h') (keeps_postLand h')
  | pand | por | pxor | pnot => exact keeps_predOp h
  | ldB | ldH | ldW | ldD | stB | stH | stW | stD | ldgB | ldgH | ldgW | ldgD | stgB | stgH | stgW | stgD |
    ldAcq | ldSc | stRel | stSc | atomAdd | atomAnd | atomOr | atomXor | atomMin | atomMax | atomXchg | atomCas
    => exact keeps_memOp h
  | ldsB | ldsH | ldsW | ldsD => exact keeps_ldsOp h
  | fenceAcq | fenceRel | fenceAr | fenceSc => exact keeps_fenceOp h
  | taglook | rgnqry
    => exact keeps_slotStep h fun _ _ h' => keeps_lUntagged h' fun _ h'' => keeps_forTiles h'' fun _ _ => keeps_postAct
  | tagset => exact keeps_execTagset h
  | tagclr => exact keeps_execTagclr h
  | rgnmap => exact keeps_execRgnmap h
  | rgnunmap => exact keeps_execRgnunmap h
  | bankrel => exact keeps_execBankrel h
  | bankwait => exact keeps_execBankwait h
  | vadd | vsub | vmul | vfma | vmin | vmax | vabs | vneg | viadd | visub | vimul | vand | vor | vxor | vshl |
    vshr | vsar => exact keeps_laneOp h
  | vcmpEq | vcmpNe | vcmpLt | vcmpLe | vcmpIeq | vcmpIne | vcmpIlt | vcmpIle | vcmpIltu | vcmpIleu
    => exact keeps_cmpOp h
  | vsel | vshuf | vbcast | vgshuf | vclamp => exact keeps_vecStep h
  | vcvt => exact keeps_execVcvt h
  | vredAdd | vredMin | vredMax | vredIadd => exact keeps_redOp h
  | vld => exact keeps_execVld h
  | vst | vscat => exact keeps_vmemVec h fun _ _ _ => keeps_vstoreAll
  | vgath => exact keeps_execVgath h
  | kand | kor | kxor | knot | ktail | kpopc => exact keeps_maskOp h
  | fload => exact keeps_execFload h
  | feval => exact keeps_execFeval h
  | xpush => exact keeps_execXpush h
  | xpop => exact keeps_execXpop h
  | xclr | nameload
    => exact keeps_slotStep h fun _ _ h' => keeps_untagged h' fun _ h'' => keeps_forTiles h'' fun _ _ => keeps_postLand
  | mxcall => exact keeps_execMxcall h
  | mxload => exact keeps_execMxload h
  | mxresume => exact keeps_execMxresume h
  | mxstat => exact keeps_execMxstat h
  | mxzero => exact keeps_execMxzero h
  | mxswap => exact keeps_execMxswap h
  | mnop | mwait0 => exact keeps_microStep h fun _ _ => keeps_nextMicro
  | mlda | mldb => exact keeps_microStep h fun _ _ h' => keeps_nextMicro (keeps_modRuns h')
  | mstep => exact keeps_execMstep h
  | mchk => exact keeps_execMchk h
  | mloop => exact keeps_execMloop h
  | mend => exact keeps_execMend h
  | mhad => exact keeps_execMhad h
  | mdrain | mflag => exact keeps_microStep h fun _ _ h' => keeps_nextMicro (keeps_startBackground h')
  | mzero => exact keeps_execMzero h
  | mswap | msig => exact keeps_microStep h fun _ _ h' => keeps_nextMicro (keeps_forTiles h' fun _ _ => keeps_modMx)
  | msnap => exact keeps_execMsnap h
  | mhalt => exact keeps_execMhalt h
  | wfill | wflush => exact keeps_stageOp h
  | winv => exact keeps_execWinv h
  | watom => exact keeps_execWatom h
  | wstat | wres => exact keeps_dQuery h
  | pgreq => exact keeps_execPgreq h
  | kcopy => exact keeps_execKcopy h
  | kstat => exact keeps_execKstat h
  | send => exact keeps_execSend h
  | routeset => exact keeps_execRouteset h
  | nameq => exact keeps_execNameq h
  | barinit => exact keeps_execBarinit h
  | bararr => exact keeps_execBararr h
  | barwait => exact keeps_execBarwait h
  | bartest => exact keeps_execBartest h
  | barxin | barxout => exact keeps_barxOp h
  | tokput => exact keeps_execTokput h
  | tokget => exact keeps_execTokget h
  | ringput => exact keeps_execRingput h
  | coll => exact keeps_execColl h
  | collwait => exact keeps_execCollwait h
  | routineLanding => exact keeps_execRoutineLanding h
  | wfillLanding => exact keeps_execWfillLanding h
  | wflushLanding => exact keeps_execWflushLanding h
  | watomApply => exact keeps_execWatomApply h
  | remoteWatomApply => exact keeps_execRemoteWatomApply h
  | remoteWatomReply => exact keeps_execRemoteWatomReply h
  | routesetCheck => exact keeps_execRoutesetCheck h
  | switchProgramStart => exact keeps_execSwitchProgramStart h
  | routerStaticBeat => exact keeps_execRouterStaticBeat h
  | asyncItemSend => exact keeps_execAsyncItemSend h
  | remoteAccessArrival => exact keeps_execRemoteAccessArrival h
  | arrivalDelivery => exact keeps_execArrivalDelivery h
  | releaseDelivery => exact keeps_execReleaseDelivery h
  | copyBeatDelivery => exact keeps_execCopyBeatDelivery h
  | tokenDelivery => exact keeps_execTokenDelivery h
  | softEventDelivery => exact keeps_execSoftEventDelivery h
  | collContributionArrival => exact keeps_execCollContributionArrival h
  | hostRingEntryWrite => exact keeps_execHostRingEntryWrite h
  | ringCoalesceTimeout => exact keeps_execRingCoalesceTimeout h
  | ringHeadAdvance => exact keeps_execRingHeadAdvance h
  | waitevComplete => exact keeps_execWaitevComplete h
  | cycwaitComplete => exact keeps_execCycwaitComplete h
  | cycalignComplete => exact keeps_execCycalignComplete h
  | barwaitComplete => exact keeps_execBarwaitComplete h
  | bankwaitComplete => exact keeps_execBankwaitComplete h
  | rgnmapWalkEnd => exact keeps_execRgnmapWalkEnd h
  | rgnmapComplete => exact keeps_execRgnmapComplete h
  | collwaitComplete => exact keeps_execCollwaitComplete h
  | sysAnswer => exact keeps_execSysAnswer h
  | haltDrainComplete => exact keeps_execHaltDrainComplete h
  | taskStart => exact keeps_execTaskStart h
  | dispatchDecision => exact keeps_execDispatchDecision h
  | timeTableFiring => exact keeps_execTimeTableFiring h
  | heartbeat => exact keeps_execHeartbeat h
  | heartbeatTimeout => exact keeps_execHeartbeatTimeout h
  | bellwetherRoundStart => exact keeps_execBellwetherRoundStart h
  | beaconReceive => exact keeps_execBeaconReceive h
  | sampleTick => exact keeps_execSampleTick h
  | breakpointHit => exact keeps_execBreakpointHit h
  | stepStopEdge => exact keeps_execStepStopEdge h
  | freezeEdge => exact keeps_execFreezeEdge h
  | uncorrectableErrorDetect => exact keeps_execUncorrectableErrorDetect h
  | rollback => exact keeps_execRollback h
  | replayRequest => exact keeps_execReplayRequest h
  | replayBoundaryCut => exact keeps_execReplayBoundaryCut h
  | quiesceCut => exact keeps_execQuiesceCut h
  | quiesceBoundExpiry => exact keeps_execQuiesceBoundExpiry h
  | invalTimeout => exact keeps_execInvalTimeout h
  | contextResumeStart => exact keeps_execContextResumeStart h
  | dumpWrite => exact keeps_execDumpWrite h
  | dumpAbort => exact keeps_execDumpAbort h
  | create => exact keeps_execCreate h
  | start => exact keeps_execStart h
  | quiesce => exact keeps_execQuiesce h
  | freeze => exact keeps_execFreeze h
  | resume => exact keeps_execResume h
  | exportImage => exact keeps_execExportImage h
  | restore => exact keeps_execRestore h
  | kill => exact keeps_execKill h
  | release => exact keeps_execRelease h
  | loaddone => exact keeps_execLoaddone h
  | stepCmd => exact keeps_execStepCmd h
  | bkSet => exact keeps_execBkSet h
  | bkClear => exact keeps_execBkClear h
  | trArm => exact keeps_execTrArm h
  | smpSet => exact keeps_execSmpSet h
  | mkRead => exact keeps_execMkRead h
  | pgInval => exact keeps_execPgInval h
  | pgMigrate => exact keeps_execPgMigrate h
  | pgAnswer => exact keeps_execPgAnswer h
  | winSet => exact keeps_execWinSet h
  | commSet => exact keeps_execCommSet h
  | ringSet => exact keeps_execRingSet h
  | ttSet => exact keeps_execTtSet h
  | loadObject => exact keeps_execLoadObject h
  | pageRequestArrival => exact keeps_execPageRequestArrival h
  | hostMailboxWrite => exact keeps_execHostMailboxWrite h
  | doorbellWrite => exact keeps_execDoorbellWrite h
  | hostWindowWrite => exact keeps_execHostWindowWrite h
  | hostWindowRead => exact keeps_execHostWindowRead h
  | hostLeafWrite => exact keeps_execHostLeafWrite h
  | linkTraining => exact keeps_execLinkTraining h
  | linkUnrecoverableError => exact keeps_execLinkUnrecoverableError h
  | seamBeatError => exact keeps_execSeamBeatError h
  | transportDataReceive => exact keeps_execTransportDataReceive h
  | transportAckReceive => exact keeps_execTransportAckReceive h
  | transportNakReceive => exact keeps_execTransportNakReceive h
  | transportResendTimeout => exact keeps_execTransportResendTimeout h
  | ptpMessage => exact keeps_execPtpMessage h
  | timeSourceLoss => exact keeps_execTimeSourceLoss h
  | powerOn => exact keeps_execPowerOn h
  | selftestResult => exact keeps_execSelftestResult h
  | islandMerge => exact keeps_execIslandMerge h
  | bindingMapWrite => exact keeps_execBindingMapWrite h
  | remap => exact keeps_execRemap h
  | reinstatement => exact keeps_execReinstatement h
  | voltageTrim => exact keeps_execVoltageTrim h
  | droopAlarm => exact keeps_execDroopAlarm h
  | powerOff => exact keeps_execPowerOff h
  | linkStop => exact keeps_execLinkStop h
  | alignmentArrival => exact keeps_execAlignmentArrival h
  | timeSourceSelect => exact keeps_execTimeSourceSelect h
  | pinReleaseComplete => exact keeps_execPinReleaseComplete h

/-! #### What a step takes up -/

theorem keeps_takeEvent {e : Ev} {rest : List Ev} (ha : s.agenda = e :: rest) : Keeps s (takeEvent s e rest) :=
  ⟨id, fun hs => agendaSorted_tail (ha ▸ hs), Nat.le_max_left _ _⟩

theorem keeps_fetchWork {i : Instr} {s' : State} (hf : fetchWork s = .ok (i, s')) : Keeps s s' := by
  unfold fetchWork at hf
  split at hf
  · split at hf
    · cases hf
      exact .refl s
    · split at hf
      · cases hf
        exact (Keeps.refl s).of_core rfl
      · cases hf
  · split at hf
    · cases hf
    next ha =>
      cases hf
      exact keeps_takeEvent ha

theorem fetchWork_error {o : Host.Outcome State Fault Refusal} (hf : fetchWork s = .error o) : KeepsNext s₀ o := by
  unfold fetchWork at hf
  split at hf
  · split at hf
    · cases hf
    · split at hf
      · cases hf
      · cases hf
        exact keepsNext_refused _
  · split at hf
    · cases hf
      exact keepsNext_fault _
    · cases hf

/-! #### One step -/

theorem keeps_step : KeepsNext s (step s) := by
  unfold step
  split
  next hf => exact keeps_exec (keeps_fetchWork hf)
  next hf => exact fetchWork_error hf

end Sys2Proof.Machine
end

section
namespace Sys2Proof.Machine

/-- Settles O59: what every step keeps says it of the two memories. -/
theorem memoryFormIsKept : Obligations.MemoryFormIsKept :=
  fun _ t hs ht => (keeps_step t ht).memWf hs

/-- Settles O60: what every step keeps says it of the agenda and of time. -/
theorem agendaOrderIsKept : Obligations.AgendaOrderIsKept :=
  fun _ t hs ht => ⟨(keeps_step t ht).sorted hs, (keeps_step t ht).now_le⟩

end Sys2Proof.Machine
end

section
namespace Sys2Proof.Machine

/-! ### Lists of keyed entries -/

section
variable {κ α β : Type} [DecidableEq κ]

theorem find?_map_put (t : List (κ × α)) (k k' : κ) (v : α) :
    (t.map fun e => if e.1 = k then (k, v) else e).find? (fun e => e.1 = k') =
      if k' = k then (if t.any (fun e => e.1 = k) then some (k, v) else none) else t.find? fun e => e.1 = k' := by
  induction t with
  | nil => simp
  | cons e t ih => grind

/-- A lookup in a list in which an entry has been replaced, or added at the end. -/
theorem find?_put (t : List (κ × α)) (k k' : κ) (v : α) :
    (if t.any fun e => e.1 = k then t.map fun e => if e.1 = k then (k, v) else e else t ++ [(k, v)]).find? (fun e => e.1 = k') =
      if k' = k then some (k, v) else t.find? fun e => e.1 = k' := by
  split
  next h => rw [find?_map_put, if_pos h]
  next h =>
    grind

/-- A lookup in a list made key by key. -/
theorem find?_map_key {l : List (κ × β)} {k : κ} {b : β} (g : κ → β → α) (h : (k, b) ∈ l)
    (hu : ∀ b', (k, b') ∈ l → b' = b) :
    (l.map fun e => (e.1, g e.1 e.2)).find? (fun e => e.1 = k) = some (k, g k b) := by
  induction l with
  | nil => cases h
  | cons e l ih => grind

end

/-! ### What posting events, training links and setting the clock leave -/

/-- The state with the parts left out that the events due, the links, the clock, the supply and what the host is told make up. -/
def State.still (s : State) : State :=
  { s with
    agenda := [], gangs := [], links := [], out := [], freeCount := 0, dropEvt := 0, moduleTime := 0, timeAt := 0, timeHeld := 0,
    timeRate := 0, nextSlot := 0, volts := [], duty := 0 }

/-- From one state to another only those parts change, and no event is lost but the start of a slot. -/
structure Posts (s t : State) : Prop where
  still : t.still = s.still
  event : ∀ e ∈ s.agenda, e.instr ≠ .timeTableFiring → e ∈ t.agenda

variable {s₀ s t : State}

theorem Posts.refl (s : State) : Posts s s := ⟨rfl, fun _ h _ => h⟩

theorem Posts.trans (h : Posts s₀ s) (h' : Posts s t) : Posts s₀ t :=
  ⟨h'.still.trans h.still, fun e he hi => h'.event e (h.event e he hi) hi⟩

theorem Posts.of_eq (h : Posts s₀ s) (hs : t.still = s.still) (ha : t.agenda = s.agenda) : Posts s₀ t :=
  ⟨hs.trans h.still, ha ▸ h.event⟩

/-- A part that `State.still` has is as before. -/
theorem Posts.same {α : Type} (h : Posts s t) (p : State → α) : p t.still = p s.still := congrArg p h.still

theorem Posts.steady (h : Posts s t) : steady s t := ⟨h.same State.mem, h.same State.vault⟩
theorem Posts.now (h : Posts s t) : t.now = s.now := h.same State.now
theorem Posts.phase (h : Posts s t) : t.phase = s.phase := h.same State.phase
theorem Posts.units (h : Posts s t) : t.units = s.units := h.same State.units

theorem Posts.eventAt {y : Nat} {i : Instr} {a : Operand} (h : Posts s t) (hi : i ≠ .timeTableFiring)
    (he : eventAt s y i a) : eventAt t y i a := by
  obtain ⟨e, hm, hy, rfl, ha⟩ := he
  exact ⟨e, h.event e hm hi, hy, rfl, ha⟩

theorem eventAt_postEv (s : State) (y ord sub : Nat) (own : Option Owner) (i : Instr) (a : Operand) :
    eventAt (postEv s y ord sub own i a) y i a := ⟨_, mem_insertEv.mpr (.inl rfl), rfl, rfl, rfl⟩

theorem posts_post {e : Ev} (h : Posts s₀ s) : Posts s₀ (post s e) :=
  ⟨h.still, fun x hx hi => mem_insertEv.mpr (.inr (h.event x hx hi))⟩

theorem posts_postEv {y ord sub : Nat} {own : Option Owner} {i : Instr} {a : Operand} (h : Posts s₀ s) :
    Posts s₀ (postEv s y ord sub own i a) := posts_post h

theorem posts_tell {x : HostOut} (h : Posts s₀ s) : Posts s₀ (tell s x) := h.of_eq rfl rfl

theorem posts_ite {c : Prop} [Decidable c] (hs : Posts s₀ s) (ht : Posts s₀ t) : Posts s₀ (if c then s else t) := by
  split
  · exact hs
  · exact ht

theorem posts_foldl {α : Type} {l : List α} {f : State → α → State} (h : Posts s₀ s)
    (hf : ∀ s x, Posts s₀ s → Posts s₀ (f s x)) : Posts s₀ (l.foldl f s) :=
  List.foldlRecOn l f h fun s hs x _ => hf s x hs

theorem posts_postEvent {g : TileName} {src : Nat} {w : Word} (h : Posts s₀ s) : Posts s₀ (postEvent s g src w) := by
  unfold postEvent
  split
  · exact h.of_eq rfl rfl
  · refine posts_ite (h.of_eq rfl rfl) (h.of_eq ?_ (modGang_agenda _ _ _))
    unfold modGang
    split <;> rfl

theorem posts_linkEvent {port : Nat} {st : LinkState} (h : Posts s₀ s) : Posts s₀ (linkEvent s port st) :=
  posts_foldl h fun _ _ => posts_postEvent

theorem posts_setLink {l : LinkId} {st : LinkState} (h : Posts s₀ s) : Posts s₀ (setLink s l st) := by
  have hp : Posts s₀ (putLink s l st 0) := h.of_eq rfl rfl
  cases l with
  | seam => exact hp
  | host => exact posts_linkEvent hp
  | scale => exact posts_linkEvent hp

theorem posts_postAttempt {l : LinkId} (h : Posts s₀ s) : Posts s₀ (postAttempt s l) :=
  posts_postEv (h.of_eq rfl rfl)

theorem posts_postSelftest {r : Nat} (h : Posts s₀ s) : Posts s₀ (postSelftest s r) :=
  posts_postEv (h.of_eq rfl rfl)

theorem posts_postSlot (h : Posts s₀ s) : Posts s₀ (postSlot s) := by
  refine posts_postEv ⟨h.still, fun e he hi => ?_⟩
  exact List.mem_filter.mpr ⟨h.event e he hi, by simpa using hi⟩

theorem posts_setClock {nanos : Nat} (h : Posts s₀ s) : Posts s₀ (setClock s nanos) := by
  unfold setClock setClockRate setSlots
  exact posts_ite (posts_postSlot (h.of_eq rfl rfl)) (h.of_eq rfl rfl)

theorem posts_setDuty {short : Bool} (h : Posts s₀ s) : Posts s₀ (setDuty s short) := by
  unfold setDuty postThrottle
  exact posts_ite (h.of_eq rfl rfl) (posts_ite (h.of_eq rfl rfl) (posts_post (h.of_eq rfl rfl)))

end Sys2Proof.Machine
end

section
namespace Sys2Proof.Machine

variable {s₀ s t : State}

/-! ### Power-on and the host link (19_tile R429) -/

theorem linkEvent_links (s : State) (port : Nat) (st : LinkState) : (linkEvent s port st).links = s.links := by
  unfold linkEvent postToEventGangs
  refine List.foldlRecOn _ _ (motive := fun t : State => t.links = s.links) rfl fun t ht e _ => ?_
  rw [← ht]
  unfold postEvent
  split
  · rfl
  · split
    · rfl
    · exact modGang_links _ _ _

theorem setLink_links (s : State) (l : LinkId) (st : LinkState) : (setLink s l st).links = (putLink s l st 0).links := by
  cases l with
  | seam => rfl
  | host => exact linkEvent_links _ _ _
  | scale => exact linkEvent_links _ _ _

theorem linkState_of_links (h : t.links = s.links) (l : LinkId) : linkState t l = linkState s l := by
  simp only [linkState, h]

theorem linkState_putLink (s : State) (l l' : LinkId) (st : LinkState) (n : Nat) :
    linkState (putLink s l st n) l' = if l' = l then st else linkState s l' := by
  simp only [linkState, putLink, find?_put]
  by_cases h : l' = l
  · simp only [if_pos h]
  · simp only [if_neg h]

theorem linkState_setLink (s : State) (l l' : LinkId) (st : LinkState) :
    linkState (setLink s l st) l' = if l' = l then st else linkState s l' := by
  rw [linkState_of_links (setLink_links s l st), linkState_putLink]

/-- Links that begin their training, one after the other. -/
def trainAll (s : State) (ls : List LinkId) : State := ls.foldl (fun s l => postAttempt (setLink s l .training) l) s

theorem posts_trainAll {ls : List LinkId} (h : Posts s₀ s) : Posts s₀ (trainAll s ls) :=
  posts_foldl h fun _ _ h' => posts_postAttempt (posts_setLink h')

theorem linkState_trainAll (s : State) (ls : List LinkId) {l : LinkId} (h : l ∈ ls ∨ linkState s l = .training) :
    linkState (trainAll s ls) l = .training := by
  induction ls generalizing s with
  | nil => exact h.resolve_left List.not_mem_nil
  | cons l' ls ih =>
    refine ih _ ?_
    have hl : linkState (postAttempt (setLink s l' .training) l') l = if l = l' then .training else linkState s l :=
      linkState_setLink s l' l .training
    rw [hl]
    grind

/-- The state at power-on, before the host and scale-out ports train. -/
def poweredOn (s : State) : State :=
  { setPhase s .starting with
    islands := (List.range 48).map fun r => [r], ahead := [], tested := [], links := [], seamErr := []
    powerCycle := s.powerCycle + 1, units := s.units.filter fun e => e.2.1 = .retired || e.2.1 = .retiring }

theorem exec_powerOn_of_off  (h : s.phase = .off) : exec .powerOn s =
    .next (trainAll (poweredOn s) ((List.range 4).map LinkId.host ++ (List.range 64).map LinkId.scale)) := by
  change execPowerOn s = _
  unfold execPowerOn
  rw [if_neg (by simp [h])]
  rfl

theorem powerOn_of_off (h : s.phase = .off) : ∃ st, exec .powerOn s = .next st ∧ steady s st ∧ st.phase = .starting ∧
    st.islands = (List.range 48).map (fun r => [r]) ∧ st.ahead = [] ∧ st.powerCycle = s.powerCycle + 1 ∧
    st.units = (s.units.filter fun e => e.2.1 = .retired || e.2.1 = .retiring) ∧
    (∀ p < 4, linkState st (.host p) = .training) ∧ ∀ p < 64, linkState st (.scale p) = .training := by
  refine ⟨_, exec_powerOn_of_off  h, ?_⟩
  generalize hl : (List.range 4).map LinkId.host ++ (List.range 64).map LinkId.scale = ls
  have hp : Posts (poweredOn s) (trainAll (poweredOn s) ls) := posts_trainAll (Posts.refl _)
  refine ⟨hp.steady, hp.phase, hp.same State.islands, hp.same State.ahead, hp.same State.powerCycle, hp.units, fun p h4 => ?_,
    fun p h64 => ?_⟩
  · exact linkState_trainAll _ _ (.inl (by simp [← hl, h4]))
  · exact linkState_trainAll _ _ (.inl (by simp [← hl, h64]))

theorem powerOn_of_not_off (h : s.phase ≠ .off) : exec .powerOn s = .next s := if_pos (by simpa using h)

theorem eventAt_postSelftest (s : State) (r : Nat) :
    ∃ y a b, s.now < y ∧ eventAt (postSelftest s r) y .selftestResult (.selftestResult r a b) := by
  refine ⟨_, _, _, ?_, eventAt_postEv ..⟩
  change s.now < s.now + 1 + _
  omega

theorem posts_selftests (s : State) (rs : List Nat) : Posts s (rs.foldl postSelftest s) :=
  posts_foldl (Posts.refl s) fun _ _ => posts_postSelftest

/-- Once the self-tests have started, each reticle of a list has its result due. -/
theorem selftests_due (s : State) (rs : List Nat) {r : Nat} (h : r ∈ rs) :
    ∃ y a b, s.now < y ∧ eventAt (rs.foldl postSelftest s) y .selftestResult (.selftestResult r a b) := by
  induction rs generalizing s with
  | nil => cases h
  | cons r' rs ih =>
    rcases List.mem_cons.mp h with rfl | h
    · obtain ⟨y, a, b, hy, he⟩ := eventAt_postSelftest s r
      exact ⟨y, a, b, hy, (posts_selftests _ rs).eventAt (by simp) he⟩
    · obtain ⟨y, a, b, hy, he⟩ := ih (postSelftest s r') h
      exact ⟨y, a, b, hy, he⟩

theorem hostLink_settled {p : Nat} (hs : s.phase = .starting) (ht : linkState s (.host p) = .training)
    (hq : ∀ q < 4, q ≠ p → linkState s (.host q) = .up ∨ linkState s (.host q) = .failed) :
    handles s (.linkTraining (.host p) true) .linkTraining fun st => steady s st ∧ st.phase = .selftest ∧
      ∀ r < 48, ∃ y a b, s.now < y ∧ eventAt st y .selftestResult (.selftestResult r a b) := by
  intro ha
  have hu : Posts s (setLink s (.host p) .up) := posts_setLink (Posts.refl s)
  have hset : hostSettled (setLink s (.host p) .up) = true := by
    simp only [hostSettled, List.all_eq_true, List.mem_range, linkState_setLink]
    intro q h4
    have := hq q h4
    grind
  have hx : exec .linkTraining s =
      .next ((List.range 48).foldl postSelftest (setPhase (setLink s (.host p) .up) .selftest)) := by
    change execLinkTraining s = _
    simp only [execLinkTraining, ha, seamFixed, ht, seamTrained, restartPort, startSelftests, hu.phase, hs, hset]
    rfl
  have hf := posts_selftests (setPhase (setLink s (.host p) .up) .selftest) (List.range 48)
  refine ⟨_, hx, ?_, hf.phase, fun r hr => ?_⟩
  · exact ⟨hf.steady.1.trans hu.steady.1, hf.steady.2.trans hu.steady.2⟩
  · obtain ⟨y, a, b, hy, he⟩ := selftests_due (setPhase (setLink s (.host p) .up) .selftest) _ (List.mem_range.mpr hr)
    exact ⟨y, a, b, hu.now ▸ hy, he⟩

end Sys2Proof.Machine
end

section
namespace Sys2Proof.Machine

variable {s₀ s t : State}

/-! ### Self-test (19_tile R430) -/

/-- Slabs that leave their positions change the record of former positions alone. -/
theorem leavePositions_eq (s : State) (us : List UnitId) (skip : UnitId → Nat) :
    ∃ f, leavePositions s us skip = { s with former := f } := by
  unfold leavePositions
  refine List.foldlRecOn _ _ (motive := fun t : State => ∃ f, t = { s with former := f }) ⟨s.former, rfl⟩ ?_
  rintro _ ⟨f, rfl⟩ u _
  dsimp only
  generalize (if u.frontEnd then none else slabPosition (skip u) u.col) = o
  cases o with
  | none => exact ⟨_, rfl⟩
  | some p => exact ⟨_, rfl⟩

theorem leaveLast_eq (s : State) (us : List UnitId) : ∃ f, leaveLast s us = { s with former := f } := by
  unfold leaveLast
  split
  · exact leavePositions_eq _ _ _
  · exact ⟨s.former, rfl⟩

theorem mem_reticleUnits_slab {r col row : Nat} {bs bf : List Nat} {b : Bool} :
    ((⟨false, r, col, row⟩ : UnitId), b) ∈ reticleUnits r bs bf ↔
      row < 11 ∧ col < 13 ∧ b = !bs.contains (13 * row + col) := by
  simp only [reticleUnits, List.mem_append, List.mem_flatMap, List.mem_map, List.mem_range, Prod.mk.injEq, UnitId.mk.injEq]
  grind

/-- The units of a reticle with their states after its self-test. -/
def unitsTested (s : State) (r : Nat) (bs bf : List Nat) : List (UnitId × UnitState × Nat) :=
  (reticleUnits r bs bf).map fun u => (u.1, testedUnit (unitOf s u.1) u.2)

/-- A slab of the reticle tested has the state that its test gives it. -/
theorem unitOf_tested (hu : t.units = s.units.filter (fun e => e.1.reticle != r) ++ unitsTested s r bs bf) {row col : Nat}
    (hr : row < 11) (hc : col < 13) :
    unitOf t ⟨false, r, col, row⟩ = testedUnit (unitOf s ⟨false, r, col, row⟩) (!bs.contains (13 * row + col)) := by
  have hold : (s.units.filter fun e => e.1.reticle != r).find? (fun e => e.1 = (⟨false, r, col, row⟩ : UnitId)) = none := by
    rw [List.find?_eq_none]
    intro e he heq
    have := (List.mem_filter.mp he).2
    simp_all
  have hmem := (mem_reticleUnits_slab (r := r) (bs := bs) (bf := bf)).mpr ⟨hr, hc, rfl⟩
  have hnew := find?_map_key (fun u b => testedUnit (unitOf s u) b) hmem fun b hb => (mem_reticleUnits_slab.mp hb).2.2
  have hf : t.units.find? (fun e => e.1 = (⟨false, r, col, row⟩ : UnitId)) =
      some (⟨false, r, col, row⟩, testedUnit (unitOf s ⟨false, r, col, row⟩) (!bs.contains (13 * row + col))) := by
    rw [hu, List.find?_append, hold, Option.none_or]
    exact hnew
  generalize testedUnit (unitOf s ⟨false, r, col, row⟩) (!bs.contains (13 * row + col)) = x at hf ⊢
  simp only [unitOf, hf]

theorem testedUnit_plain {x : UnitState × Nat} {pass : Bool} (h : x.1 ≠ .retired) (h' : x.1 ≠ .retiring) :
    (testedUnit x pass).1 = if pass then .spare else .retired := by
  unfold testedUnit
  split
  · contradiction
  · contradiction
  · cases pass <;> rfl

theorem roundUp_spec {n : Nat} (hn : 0 < n) (y : Nat) : roundUp n y % n = 0 ∧ y ≤ roundUp n y ∧ roundUp n y < y + n := by
  have h := Nat.div_add_mod' (y + n - 1) n
  have hm := Nat.mod_lt (y + n - 1) hn
  refine ⟨Nat.mul_mod_left _ _, ?_, ?_⟩ <;>
  · unfold roundUp
    omega

theorem posts_seamsTrain (s : State) : Posts { s with phase := .merging } (trainAll (setPhase s .merging) seamLinks) :=
  posts_trainAll (posts_tell (Posts.refl _))

theorem posts_enterMerging (s : State) : Posts { s with phase := .merging } (enterMerging s) :=
  posts_postSlot (posts_setClock (posts_postEv (posts_postEv (posts_seamsTrain s))))

/-- The dispatcher decides on the next multiple of 64. -/
theorem eventAt_enterMerging (s : State) : eventAt (enterMerging s) (roundUp 64 s.now) .dispatchDecision .none := by
  refine Posts.eventAt (posts_postSlot (posts_setClock (posts_postEv (Posts.refl _)))) (by simp) ?_
  have hn : (trainAll (setPhase s .merging) seamLinks).now = s.now := (posts_seamsTrain s).now
  rw [← hn]
  exact eventAt_postEv ..

/-- The state with a reticle's results taken down. -/
def reticleTested (s : State) (r : Nat) (bs bf : List Nat) (former : List (UnitId × Nat)) : State :=
  { s with
    former := former, units := s.units.filter (fun e => e.1.reticle != r) ++ unitsTested s r bs bf, tested := s.tested ++ [r] }

theorem exec_selftestResult {r : Nat} {bs bf : List Nat} (hp : s.phase = .selftest) (h48 : r < 48) (hr : r ∉ s.tested)
    (ha : s.arg = .selftestResult r bs bf) : ∃ former st, exec .selftestResult s = .next st ∧
      (s.tested.length ≠ 47 → Posts (reticleTested s r bs bf former) st) ∧
      (s.tested.length = 47 → Posts { reticleTested s r bs bf former with phase := .merging } st ∧
        eventAt st (roundUp 64 s.now) .dispatchDecision .none) := by
  obtain ⟨former, hl⟩ := leaveLast_eq s (((unitsTested s r bs bf).filter fun e =>
    e.2.1 = .retired && (unitOf s e.1).1 != .retired).map (·.1))
  let s₁ := reticleTested s r bs bf former
  let s₂ := if rowLost s₁ r then tell (tell s₁ (.report 430 r)) (.failing (badUnits s₁ fun u => u.reticle = r)) else s₁
  have hx : exec .selftestResult s = .next (if s₂.tested.length = 48 then enterMerging s₂ else s₂) := by
    change execSelftestResult s = _
    unfold execSelftestResult
    simp only [ha]
    rw [if_neg (by simp [hp, hr]; omega)]
    unfold unitsTested at hl
    rw [hl]
    rfl
  have h₂ : Posts s₁ s₂ := posts_ite (posts_tell (posts_tell (Posts.refl _))) (Posts.refl _)
  have ht : s₂.tested = s.tested ++ [r] := h₂.same State.tested
  have hlen : s₂.tested.length = s.tested.length + 1 := by simp [ht]
  refine ⟨former, _, hx, fun h => ?_, fun h => ?_⟩
  · rw [if_neg (by omega)]
    exact h₂
  · rw [if_pos (by omega)]
    have hmerge : Posts { s₁ with phase := .merging } { s₂ with phase := .merging } :=
      ⟨congrArg (fun x : State => { x with phase := .merging }) h₂.still, h₂.event⟩
    have hn : s₂.now = s.now := h₂.now
    exact ⟨hmerge.trans (posts_enterMerging s₂), hn ▸ eventAt_enterMerging s₂⟩

/-- Whatever follows it, a reticle's result leaves both memories alone and its slabs in the states of their tests. -/
theorem selftestResult_taken {r : Nat} {bs bf : List Nat} (hp : s.phase = .selftest) (h48 : r < 48) (hr : r ∉ s.tested) :
    handles s (.selftestResult r bs bf) .selftestResult fun st => steady s st ∧ st.tested = s.tested ++ [r] ∧
      (∀ row < 11, ∀ col < 13, unitOf st ⟨false, r, col, row⟩ =
        testedUnit (unitOf s ⟨false, r, col, row⟩) (!bs.contains (13 * row + col))) ∧
      (s.tested.length < 47 → st.phase = .selftest) ∧
      (s.tested.length = 47 → st.phase = .merging ∧ eventAt st (roundUp 64 s.now) .dispatchDecision .none) := by
  intro ha
  obtain ⟨former, st, hx, hless, hlast⟩ := exec_selftestResult hp h48 hr ha
  refine ⟨st, hx, ?_⟩
  by_cases h47 : s.tested.length = 47
  · obtain ⟨h, he⟩ := hlast h47
    exact ⟨h.steady, h.same State.tested, fun row h11 col h13 => unitOf_tested h.units h11 h13, fun hl => by omega,
      fun _ => ⟨h.phase, he⟩⟩
  · have h := hless h47
    exact ⟨h.steady, h.same State.tested, fun row h11 col h13 => unitOf_tested h.units h11 h13, fun _ => h.phase.trans hp,
      fun h => absurd h h47⟩

theorem selftestResult_slabs {r : Nat} {bs bf : List Nat} (hp : s.phase = .selftest) (h48 : r < 48) (hr : r ∉ s.tested) :
    handles s (.selftestResult r bs bf) .selftestResult fun st => steady s st ∧ st.tested = s.tested ++ [r] ∧
      (∀ row < 11, ∀ col < 13, (unitOf s ⟨false, r, col, row⟩).1 ≠ .retired →
        (unitOf s ⟨false, r, col, row⟩).1 ≠ .retiring →
        (unitOf st ⟨false, r, col, row⟩).1 = if 13 * row + col ∈ bs then .retired else .spare) ∧
      (∀ row < 11, ∀ col < 13, ∀ n,
        (unitOf s ⟨false, r, col, row⟩ = (.retired, n) →
          unitOf st ⟨false, r, col, row⟩ = (.retired, if 13 * row + col ∈ bs then 0 else n + 1)) ∧
        (unitOf s ⟨false, r, col, row⟩ = (.retiring, n) →
          (unitOf st ⟨false, r, col, row⟩).1 = if 13 * row + col ∈ bs then .retired else .retiring)) ∧
      (s.tested.length < 47 → st.phase = .selftest) ∧
      (s.tested.length = 47 → st.phase = .merging ∧
        ∃ y, eventAt st y .dispatchDecision .none ∧ y % 64 = 0 ∧ s.now ≤ y ∧ y < s.now + 64) := by
  intro ha
  obtain ⟨st, hx, hs, ht, hu, hless, hlast⟩ := selftestResult_taken hp h48 hr ha
  refine ⟨st, hx, hs, ht, fun row h11 col h13 h h' => ?_, fun row h11 col h13 n => ⟨fun h => ?_, fun h => ?_⟩, hless,
    fun h47 => ?_⟩
  · rw [hu row h11 col h13, testedUnit_plain h h']
    by_cases hb : 13 * row + col ∈ bs <;> simp [hb]
  · rw [hu row h11 col h13, h]
    by_cases hb : 13 * row + col ∈ bs <;> simp [testedUnit, hb]
  · rw [hu row h11 col h13, h]
    by_cases hb : 13 * row + col ∈ bs <;> simp [testedUnit, hb]
  · obtain ⟨hph, he⟩ := hlast h47
    obtain ⟨hmod, hle, hlt⟩ := roundUp_spec (n := 64) (by decide) s.now
    exact ⟨hph, _, he, hmod, hle, hlt⟩

theorem selftestResult_ignored {r : Nat} {bs bf : List Nat} (h : s.phase ≠ .selftest ∨ r ∈ s.tested)
    (ha : s.arg = .selftestResult r bs bf) : exec .selftestResult s = .next s := by
  change execSelftestResult s = _
  unfold execSelftestResult
  simp only [ha]
  refine if_pos ?_
  rcases h with h | h <;> simp [h]

end Sys2Proof.Machine
end

section
namespace Sys2Proof.Machine

variable {s₀ s t : State}

/-! ### Islands (19_tile R431) -/

theorem mem_of_tabGet {α : Type} {t : Tab α} {k : Nat} {v : α} (h : tabGet t k = some v) : (k, v) ∈ t := by
  induction t with
  | nil => cases h
  | cons e t ih =>
    rw [tabGet] at h
    split at h
    next he => exact List.mem_cons.mpr (.inl (by cases h; rw [← he]))
    next => exact List.mem_cons_of_mem _ (ih h)

theorem tabGetD_foldl_tabPut {α : Type} (d v : α) (t : Tab α) (ks : List Nat) (k : Nat) :
    tabGetD d (ks.foldl (fun t k => tabPut t k v) t) k = if k ∈ ks then v else tabGetD d t k := by
  induction ks generalizing t with
  | nil => rfl
  | cons k' ks ih =>
    rw [List.foldl_cons, ih]
    by_cases hk : k = k'
    · simp [hk]
    · simp [hk, tabGetD_tabPut_ne]

/-- No context that the service controller has stopped: none is resumed. -/
theorem resumeServed_of_none (h : ∀ e ∈ s.ctxs, e.2.svcStop = false) : resumeServed s = s := by
  have hc (c : Nat) : (ctxOf s c).svcStop = false := by
    unfold ctxOf tabGetD
    cases hg : tabGet s.ctxs c with
    | none => rfl
    | some k => exact h _ (mem_of_tabGet hg)
  unfold resumeServed
  refine List.foldlRecOn _ _ (motive := fun t : State => t = s) rfl ?_
  rintro _ rfl e _
  simp [hc]

/-- New ticks of the samplers are a change of the agenda alone. -/
theorem retimeSamples_eq (s : State) : ∃ l, retimeSamples s = { s with agenda := l } := by
  unfold retimeSamples
  refine List.foldlRecOn _ _ (motive := fun t : State => ∃ l, t = { s with agenda := l }) ⟨s.agenda, rfl⟩ ?_
  rintro _ ⟨l, rfl⟩ e _
  split
  · exact ⟨_, rfl⟩
  · exact ⟨l, rfl⟩

theorem mergeCtxs_of_noneRuns (h : noneRuns s) (rs : List Nat) : mergeCtxs s rs false = [] := by
  have hf (e : Nat × Ctx) (he : e ∈ s.ctxs) : freezable e.2.st = false := by simp [freezable, h e he]
  simp only [mergeCtxs, List.map_eq_nil_iff, List.filter_eq_nil_iff]
  intro e he
  simp [hf e he]

/-- The islands after a merge of those of a and b. -/
def islandsMerged (s : State) (a b : Nat) : List (List Nat) :=
  (islandOf s a ++ islandOf s b) :: s.islands.filter fun i => i != islandOf s a && i != islandOf s b

/-- A merge that leaves another island, of two islands with nothing to stop. -/
theorem exec_islandMerge_of_quiet {a b : Nat} (hp : s.phase = .merging) (hab : islandOf s a ≠ islandOf s b) (hn : noneRuns s)
    (hi : ∃ i ∈ s.islands, i ≠ islandOf s a ∧ i ≠ islandOf s b) (ha : s.arg = .islandMerge a b) :
    exec .islandMerge s =
      if s.now % 256 != 0 then .next (postEv s (nextMultiple 256 s.now) (ordEnd + 1) 0 none .islandMerge s.arg)
      else .next (resumeServed (retimeSamples (setForward { s with islands := islandsMerged s a b } (islandOf s a ++ islandOf s b)
        (roundUp 4096 (max (reticleCyc s a) (reticleCyc s b)))))) := by
  have hlen : (islandsMerged s a b).length ≠ 1 := by
    obtain ⟨i, him, hia, hib⟩ := hi
    have : i ∈ s.islands.filter fun i => i != islandOf s a && i != islandOf s b :=
      List.mem_filter.mpr ⟨him, by simp [hia, hib]⟩
    have := List.length_pos_of_mem this
    simp only [islandsMerged, List.length_cons]
    omega
  unfold islandsMerged at hlen ⊢
  change execIslandMerge s = _
  unfold execIslandMerge
  simp only [ha, hp, hab, hlen, decide_false, mergeCtxs_of_noneRuns hn, bne_self_eq_false, List.isEmpty_nil, Bool.not_true,
    Bool.false_eq_true, if_false]

theorem islandCyc_merged {rs : List Nat} {l : Nat} (hl : s.now ≤ l)
    (hn : t.now = s.now) (ha : t.ahead = rs.foldl (fun a r => tabPut a r (l - s.now)) s.ahead) (x : TileName) :
    islandCyc t x = if reticleOf x ∈ rs then l else islandCyc s x := by
  simp only [islandCyc, aheadOf, ha, hn, tabGetD_foldl_tabPut]
  split
  · omega
  · rfl

/-- Off a multiple of 256 the merge waits for the next one. -/
theorem islandMerge_unaligned {a b : Nat} (hp : s.phase = .merging) (hab : islandOf s a ≠ islandOf s b) (hn : noneRuns s)
    (hi : ∃ i ∈ s.islands, i ≠ islandOf s a ∧ i ≠ islandOf s b) (h256 : s.now % 256 ≠ 0)
    (ha : s.arg = .islandMerge a b) : exec .islandMerge s =
      .next (postEv s ((s.now / 256 + 1) * 256) (ordEnd + 1) 0 none .islandMerge (.islandMerge a b)) := by
  rw [exec_islandMerge_of_quiet hp hab hn hi ha, if_pos (by simpa using h256), ha]
  rfl

/-- On a multiple of 256 both counts are set to the larger of the two, rounded up, and no other is. -/
theorem islandMerge_aligned {a b : Nat} (hp : s.phase = .merging) (hab : islandOf s a ≠ islandOf s b) (hn : noneRuns s)
    (hsvc : ∀ e ∈ s.ctxs, e.2.svcStop = false) (hi : ∃ i ∈ s.islands, i ≠ islandOf s a ∧ i ≠ islandOf s b)
    (h256 : s.now % 256 = 0) :
    handles s (.islandMerge a b) .islandMerge fun st =>
      steady s st ∧ st.phase = .merging ∧ st.islands = islandsMerged s a b ∧
      ∀ x, islandCyc st x = if reticleOf x ∈ islandOf s a ++ islandOf s b then
        (max (reticleCyc s a) (reticleCyc s b) + 4095) / 4096 * 4096 else islandCyc s x := by
  intro ha
  have hx := exec_islandMerge_of_quiet hp hab hn hi ha
  rw [if_neg (by simp [h256])] at hx
  obtain ⟨l, hr⟩ := retimeSamples_eq (setForward { s with islands := islandsMerged s a b } (islandOf s a ++ islandOf s b)
    (roundUp 4096 (max (reticleCyc s a) (reticleCyc s b))))
  rw [hr, resumeServed_of_none ?_] at hx
  · have hnow : s.now ≤ reticleCyc s a := Nat.le_add_right _ _
    have hle := (roundUp_spec (n := 4096) (by decide) (max (reticleCyc s a) (reticleCyc s b))).2.1
    exact ⟨_, hx, ⟨rfl, rfl⟩, hp, rfl, islandCyc_merged (by omega) rfl rfl⟩
  · intro e he
    simp only [setForward, List.mem_map] at he
    obtain ⟨e', he', rfl⟩ := he
    exact hsvc e' he'

/-! ### Reinstatement (19_tile R438) -/

theorem unitOf_putUnit_self (s : State) (u : UnitId) (st : UnitState) (n : Nat) : unitOf (putUnit s u st n) u = (st, n) := by
  simp only [unitOf, putUnit, find?_put, if_true]

/-- A sound record of a unit that has passed n power cycles in a row. -/
theorem repairOk_iff {u : UnitId} {n : Nat} {r : RepairRecord} : repairOk s u n r = true ↔
    r.unit = u ∧ r.second = r.first + 1 ∧ r.second ≤ s.powerCycle ∧ s.powerCycle < r.first + n ∧
      Config.edVerify (Config.sha512 (repairBytes r)) r.sig = true := by
  simp only [repairOk, Bool.and_eq_true, decide_eq_true_eq, and_assoc, eq_comm (a := r.first + 1)]

theorem exec_reinstatement {u : UnitId} {r : RepairRecord} {n : Nat} (hu : unitOf s u = (.retired, n))
    (ha : s.arg = .reinstatement u r) : exec .reinstatement s =
      .next (if repairOk s u n r then putUnit { s with reinstated := u :: s.reinstated.filter (· != u) } u .spare 0 else s) := by
  change execReinstatement s = _
  unfold execReinstatement
  simp only [ha, hu, decide_true, Bool.true_and]

/-! ### Voltage and the clock (19_tile R439) -/

/-- What one trim may make of an island's voltage. -/
def trimStep (v w : Nat) : Prop := w = v ∨ w = max 560 (v - 5) ∨ w = min 660 (v + 5)

theorem trimIsland_self (p : State × Bool) (i : Nat) :
    trimStep (tabGetD 600 p.1.volts i) (tabGetD 600 (trimIsland p i).1.volts i) := by
  obtain ⟨s, short⟩ := p
  simp only [trimIsland, trimStep]
  split
  · exact .inr (.inl (tabGetD_tabPut_self _ _ _ _))
  · split
    · split
      · exact .inl rfl
      · exact .inr (.inr (tabGetD_tabPut_self _ _ _ _))
    · exact .inl rfl

theorem trimIsland_ne (p : State × Bool) {i j : Nat} (h : j ≠ i) :
    tabGetD 600 (trimIsland p i).1.volts j = tabGetD 600 p.1.volts j := by
  obtain ⟨s, short⟩ := p
  simp only [trimIsland]
  split
  · exact tabGetD_tabPut_ne _ _ _ h
  · split
    · split
      · rfl
      · exact tabGetD_tabPut_ne _ _ _ h
    · rfl

theorem posts_trimIsland {p : State × Bool} {i : Nat} (h : Posts s₀ p.1) : Posts s₀ (trimIsland p i).1 := by
  obtain ⟨s, short⟩ := p
  simp only [trimIsland]
  split
  · exact h.of_eq rfl rfl
  · split
    · split
      · exact h.of_eq rfl rfl
      · exact h.of_eq rfl rfl
    · exact h.of_eq rfl rfl

/-- Each island of a list is trimmed once, the others are not. -/
theorem trimAll_volts (p : State × Bool) {is : List Nat} (hd : is.Nodup) (j : Nat) :
    (j ∉ is → tabGetD 600 (is.foldl trimIsland p).1.volts j = tabGetD 600 p.1.volts j) ∧
      (j ∈ is → trimStep (tabGetD 600 p.1.volts j) (tabGetD 600 (is.foldl trimIsland p).1.volts j)) := by
  induction is generalizing p with
  | nil => simp
  | cons i is ih =>
    obtain ⟨hi, hd⟩ := List.nodup_cons.mp hd
    obtain ⟨hout, hin⟩ := ih (trimIsland p i) hd
    refine ⟨fun h => ?_, fun h => ?_⟩
    · obtain ⟨hji, hj⟩ := not_or.mp fun h' => h (List.mem_cons.mpr h')
      exact (hout hj).trans (trimIsland_ne p hji)
    · rcases List.mem_cons.mp h with rfl | hj
      · rw [List.foldl_cons, hout hi]
        exact trimIsland_self p j
      · have hne : j ≠ i := fun e => hi (e ▸ hj)
        have := hin hj
        rwa [trimIsland_ne p hne] at this

theorem posts_trimAll {p : State × Bool} {is : List Nat} (h : Posts s₀ p.1) : Posts s₀ (is.foldl trimIsland p).1 :=
  List.foldlRecOn _ _ (motive := fun q : State × Bool => Posts s₀ q.1) h fun _ hq _ _ => posts_trimIsland hq

theorem postEv_volts (s : State) (y ord sub : Nat) (own : Option Owner) (i : Instr) (a : Operand) :
    (postEv s y ord sub own i a).volts = s.volts := rfl

theorem setDuty_volts (s : State) (short : Bool) : (setDuty s short).volts = s.volts := by
  unfold setDuty postThrottle
  extract_lets
  split
  · rfl
  · split <;> rfl

theorem computes_iff : computes s = true ↔ s.phase = .merging ∨ s.phase = .binding ∨ s.phase = .service := by
  simp only [computes, Bool.or_eq_true, decide_eq_true_eq, or_assoc]

/-- The state after the trim of every island. -/
def trimmed (s : State) : State × Bool := (List.range 768).foldl trimIsland (s, false)

theorem exec_voltageTrim (s : State) : exec .voltageTrim s =
    if !computes s then .next { s with duty := 0 }
    else
      let s₁ := setDuty (trimmed s).1 (trimmed s).2
      .next (postEv s₁ (s₁.now + usCycles s₁ 1000) ordInput 0 none .voltageTrim .none) := by
  change execVoltageTrim s = _
  unfold execVoltageTrim trimmed
  generalize (List.range 768).foldl trimIsland (s, false) = p
  rfl

theorem posts_trimmed (s : State) : Posts s (trimmed s).1 := by
  unfold trimmed
  exact posts_trimAll (Posts.refl s)

theorem trimmed_volts (s : State) {i : Nat} (hi : i < 768) :
    trimStep (tabGetD 600 s.volts i) (tabGetD 600 (trimmed s).1.volts i) := by
  unfold trimmed
  exact (trimAll_volts (s, false) List.nodup_range i).2 (List.mem_range.mpr hi)

theorem voltageTrim_of_computes (h : s.phase = .merging ∨ s.phase = .binding ∨ s.phase = .service) :
    ∃ st, exec .voltageTrim s = .next st ∧ steady s st ∧ eventAt st (s.now + usCycles s 1000) .voltageTrim .none ∧
      ∀ i < 768, trimStep (tabGetD 600 s.volts i) (tabGetD 600 st.volts i) := by
  have hx := exec_voltageTrim s
  have hv (i : Nat) (hi : i < 768) := trimmed_volts s hi
  have hp := posts_trimmed s
  generalize trimmed s = p at hx hv hp
  rw [computes_iff.mpr h] at hx
  have h₁ : Posts s (setDuty p.1 p.2) := posts_setDuty hp
  have hy : usCycles (setDuty p.1 p.2) 1000 = usCycles s 1000 := by simp only [usCycles, h₁.phase]
  refine ⟨_, hx, (posts_postEv h₁).steady, ?_, fun i hi => ?_⟩
  · rw [hy, h₁.now]
    exact eventAt_postEv ..
  · rw [postEv_volts, setDuty_volts]
    exact hv i hi

theorem voltageTrim_of_not_computes (h₁ : s.phase ≠ .merging) (h₂ : s.phase ≠ .binding) (h₃ : s.phase ≠ .service) :
    exec .voltageTrim s = .next { s with duty := 0 } := by
  rw [exec_voltageTrim, if_pos]
  simp [computes, h₁, h₂, h₃]

/-- The edges withheld among the last 4,096. -/
def recentEdges (s : State) : List Nat := s.stretch.filter fun e => s.now + s.withheld < e + 4096

theorem withhold_few (h : (recentEdges s).length < 2048) : steady s (withhold s) ∧ (withhold s).withheld = s.withheld + 1 ∧
    (withhold s).stretch = recentEdges s ++ [s.now + s.withheld] := by
  let s₁ : State := { s with withheld := s.withheld + 1, stretch := recentEdges s ++ [s.now + s.withheld] }
  have hw : withhold s = if s₁.agenda.any fun x => x.instr = .timeTableFiring then postSlot s₁ else s₁ :=
    if_neg (Nat.not_le.mpr h)
  rw [hw]
  split
  · exact ⟨⟨rfl, rfl⟩, rfl, rfl⟩
  · exact ⟨⟨rfl, rfl⟩, rfl, rfl⟩

theorem withhold_many (h : 2048 ≤ (recentEdges s).length) : withhold s = { s with stretch := recentEdges s } := if_pos h

theorem exec_droopAlarm {x : Nat} (ha : s.arg = .droopAlarm x) :
    exec .droopAlarm s = .next (if x < 768 then withhold s else s) := by
  change execDroopAlarm s = _
  unfold execDroopAlarm
  simp only [ha]

/-! ### Power-off (19_tile R429) -/

/-- Events posted anew on a cycle join the agenda, and nothing else changes. -/
theorem foldl_post_agenda (s : State) (es : List Ev) (y : Nat) : ∃ l,
    es.foldl (fun s e => post s { e with at_ := y }) s = { s with agenda := l } ∧
    ∀ e ∈ l, e ∈ s.agenda ∨ ∃ e' ∈ es, e = { e' with at_ := y } := by
  induction es generalizing s with
  | nil => exact ⟨s.agenda, rfl, fun _ => .inl⟩
  | cons x es ih =>
    obtain ⟨l, hl, hm⟩ := ih (post s { x with at_ := y })
    refine ⟨l, hl, fun e he => ?_⟩
    rcases hm e he with he | ⟨e', he', rfl⟩
    · rcases mem_insertEv.mp he with rfl | he
      · exact .inr ⟨x, List.mem_cons_self, rfl⟩
      · exact .inl he
    · exact .inr ⟨e', List.mem_cons_of_mem _ he', rfl⟩

theorem powerOff_clears : ∃ st, exec .powerOff s = .next st ∧
    st.phase = .off ∧ st.mem = [] ∧ st.vault = [] ∧ st.gangs = [] ∧ st.ctxs = [] ∧
    st.units = s.units ∧ st.flash = s.flash ∧ st.bindGen = s.bindGen ∧ ∀ e ∈ st.agenda, e.instr = .powerOn := by
  have hx : exec .powerOff s = execPowerOff s := rfl
  unfold execPowerOff at hx
  extract_lets start reset off at hx
  obtain ⟨l, hl, hm⟩ := foldl_post_agenda off (s.agenda.filter fun e => decide (e.instr = .powerOn)) start
  rw [hl] at hx
  refine ⟨_, hx, rfl, rfl, rfl, rfl, rfl, rfl, rfl, rfl, fun e he => ?_⟩
  rcases hm e he with he | ⟨e', he', rfl⟩
  · cases he
  · exact of_decide_eq_true (List.mem_filter.mp he').2

end Sys2Proof.Machine
end

section
namespace Sys2Proof.Machine

/-! ### What the service controller's work on contexts leaves

A resume, a rollback, a dump, a lane swap and a tile's move change contexts, gangs, slabs and what is due for them; the
phase, the islands and the binding map stay. -/

variable {s₀ s t : State}

/-- The state with the parts left out that this work changes. -/
def State.standing (s : State) : State :=
  { s.still with
    slabs := [], ctxs := [], tasks := [], mem := [], vault := [], frames := [], units := [], remapDue := false, timeTable := []
    cands := [], graphs := [], flash := [], dumpQueue := [], rollQueue := [], faultSeq := 0 }

/-- From one state to another only those parts change, and an event that no context owns and that has no operands, but the start
of a slot, is not lost. -/
structure Serves (s t : State) : Prop where
  standing : t.standing = s.standing
  event : ∀ e ∈ s.agenda, e.own = none → e.arg = .none → e.instr ≠ .timeTableFiring → e ∈ t.agenda

theorem Serves.refl (s : State) : Serves s s := ⟨rfl, fun _ h _ _ _ => h⟩

theorem Serves.of_eq (h : Serves s₀ s) (hs : t.standing = s.standing) (ha : t.agenda = s.agenda) : Serves s₀ t :=
  ⟨hs.trans h.standing, ha ▸ h.event⟩

/-- A part that `State.standing` has is as before. -/
theorem Serves.same {α : Type} (h : Serves s t) (p : State → α) : p t.standing = p s.standing := congrArg p h.standing

theorem Serves.posts (h : Serves s₀ s) (h' : Posts s t) : Serves s₀ t where
  standing := (congrArg (fun x : State => { x with
    slabs := [], ctxs := [], tasks := [], mem := [], vault := [], frames := [], units := [], remapDue := false, timeTable := []
    cands := [], graphs := [], flash := [], dumpQueue := [], rollQueue := [], faultSeq := 0 }) h'.still).trans h.standing
  event e he ho ha hi := h'.event e (h.event e he ho ha hi) hi

theorem Serves.of_mem {m : List Host.Cell} (h : Serves s₀ s) : Serves s₀ { s with mem := m } := h.of_eq rfl rfl

theorem Serves.of_vault {m : List Host.Cell} (h : Serves s₀ s) : Serves s₀ { s with vault := m } := h.of_eq rfl rfl

theorem serves_ite {c : Prop} [Decidable c] (hs : Serves s₀ s) (ht : Serves s₀ t) : Serves s₀ (if c then s else t) := by
  split
  · exact hs
  · exact ht

theorem serves_foldl {α : Type} {l : List α} {f : State → α → State} (h : Serves s₀ s)
    (hf : ∀ s x, Serves s₀ s → Serves s₀ (f s x)) : Serves s₀ (l.foldl f s) :=
  List.foldlRecOn l f h fun s hs x _ => hf s x hs

theorem serves_postEv {y ord sub : Nat} {own : Option Owner} {i : Instr} {a : Operand} (h : Serves s₀ s) :
    Serves s₀ (postEv s y ord sub own i a) := h.posts (posts_postEv (Posts.refl s))

theorem serves_tell {x : HostOut} (h : Serves s₀ s) : Serves s₀ (tell s x) := h.of_eq rfl rfl

theorem serves_modCtx {c : Nat} {f : Ctx → Ctx} (h : Serves s₀ s) : Serves s₀ (modCtx s c f) := h.of_eq rfl rfl

theorem serves_modSlab {n : TileName} {f : Slab → Slab} (h : Serves s₀ s) : Serves s₀ (modSlab s n f) := h.of_eq rfl rfl

/-- Events leave the agenda, none of those that no context owns and that have no operands. -/
theorem serves_filter {p : Ev → Bool} (h : Serves s₀ s) (hp : ∀ e : Ev, e.own = none → e.arg = .none → p e = true) :
    Serves s₀ { s with agenda := s.agenda.filter p } :=
  ⟨h.standing, fun e he ho ha hi => List.mem_filter.mpr ⟨h.event e he ho ha hi, hp e ho ha⟩⟩

/-! #### Faults, dumps and the end of a context's tasks -/

variable {c : Nat}

theorem serves_setEdge {f : Nat} (h : Serves s₀ s) : Serves s₀ (setEdge s c f) := by
  unfold setEdge
  refine serves_ite h ?_
  split
  · exact serves_ite h (serves_postEv (serves_modCtx h))
  · exact serves_postEv (serves_modCtx h)

theorem serves_oweDump {cls cause : Nat} (h : Serves s₀ s) : Serves s₀ (oweDump s c cls cause) := by
  unfold oweDump
  exact serves_ite (serves_postEv (serves_ite (serves_modCtx h) h)) (serves_ite (serves_modCtx h) h)

theorem serves_raiseWith {a : FaultArgs} (h : Serves s₀ s) : Serves s₀ (raiseWith s a) := by
  unfold raiseWith
  extract_lets _ k
  split
  next d s' hd =>
    have h' : Serves s₀ s' := by
      split at hd
      · cases hd
        exact h
      · cases hd
        exact h.of_eq rfl rfl
    extract_lets _ _ _ s₁ s₂
    have h₁ : Serves s₀ s₁ := serves_oweDump (h'.of_eq rfl rfl)
    have h₂ : Serves s₀ s₂ := serves_modCtx h₁
    refine serves_ite (serves_modCtx h₁) (serves_ite (serves_modCtx h₁) ?_)
    exact serves_ite (serves_ite (serves_setEdge h₂) h₂) (serves_ite (serves_tell h₂) h₂)

theorem serves_raiseAux {own : Owner} {cls cause k : Nat} {aux : Word} (h : Serves s₀ s) :
    Serves s₀ (raiseAux s own cls cause aux k) := serves_raiseWith h

theorem serves_postRollback (h : Serves s₀ s) : Serves s₀ (postRollback s) := by
  unfold postRollback
  split
  · exact h
  · exact serves_postEv (h.of_eq rfl rfl)

theorem serves_queueRollback (h : Serves s₀ s) : Serves s₀ (queueRollback s c) :=
  serves_ite h (serves_ite (serves_postRollback (h.of_eq rfl rfl)) (h.of_eq rfl rfl))

theorem serves_leaveRollback (h : Serves s₀ s) : Serves s₀ (leaveRollback s c) := by
  unfold leaveRollback
  exact serves_ite (serves_postRollback (h.of_eq rfl rfl)) (h.of_eq rfl rfl)

theorem serves_dropCtxWork (h : Serves s₀ s) : Serves s₀ (dropCtxWork s c) := by
  unfold dropCtxWork
  refine serves_modCtx (serves_foldl ?_ fun _ _ => serves_modSlab)
  exact (serves_filter (p := fun e => !ofCtx c e) h fun e ho _ => by simp [ofCtx, ho]).of_eq rfl rfl

theorem serves_tellBreaks (h : Serves s₀ s) : Serves s₀ (tellBreaks s c) := by
  unfold tellBreaks
  exact serves_foldl (serves_modCtx h) fun _ _ => serves_tell

theorem serves_endTasks (h : Serves s₀ s) : Serves s₀ (endTasks s c) := by
  unfold endTasks
  extract_lets _ s₁ _ s₂ s₃ s₄
  have h₃ : Serves s₀ s₃ := serves_filter (serves_dropCtxWork (serves_leaveRollback (serves_tellBreaks h)))
    fun e _ ha => by simp [servesCtx, ha]
  have h₄ : Serves s₀ s₄ := serves_foldl h₃ fun _ _ => serves_modSlab
  exact serves_modCtx ((serves_foldl h₄ fun _ _ => serves_modSlab).of_eq rfl rfl)

theorem serves_addSummary {r : FaultRec} (h : Serves s₀ s) : Serves s₀ (addSummary s r) := by
  unfold addSummary
  extract_lets l
  generalize l.drop _ = l'
  exact h.of_eq rfl rfl

theorem serves_beginDump (h : Serves s₀ s) : Serves s₀ (beginDump s) := by
  unfold beginDump
  split
  · exact h
  · exact serves_postEv (h.of_eq rfl rfl)

theorem serves_enterFaulted (h : Serves s₀ s) : Serves s₀ (enterFaulted s c) := by
  unfold enterFaulted
  refine serves_ite h ?_
  extract_lets s₁
  have h₁ : Serves s₀ s₁ := serves_leaveRollback (serves_modCtx h)
  split
  · exact serves_beginDump (h₁.of_eq rfl rfl)
  · refine serves_ite (serves_endTasks ?_) (h₁.of_eq rfl rfl)
    split
    · exact serves_addSummary h₁
    · exact h₁

/-! #### Rollback and resume -/

theorem serves_replayFault {cause : Nat} (h : Serves s₀ s) : Serves s₀ (replayFault s c cause) := by
  unfold replayFault
  extract_lets g had s₁ s₂
  have h₁ : Serves s₀ s₁ := serves_raiseAux h
  have h₂ : Serves s₀ s₂ := by
    unfold s₂
    refine serves_ite ?_ h₁
    split
    · exact serves_tell h₁
    · exact h₁
  exact serves_enterFaulted h₂

theorem serves_padPutWord {x : TileName} {a : Nat} {w : Word} (h : Serves s₀ s) : Serves s₀ (padPutWord s x a w) := h.of_mem

theorem serves_releasePins {x : TileName} {i : Nat} {p : Pin → Bool} (h : Serves s₀ s) :
    Serves s₀ (releasePins s c x i p) :=
  serves_padPutWord (serves_modSlab (serves_foldl h fun _ _ => serves_modCtx))

theorem serves_dropPins {x : TileName} (h : Serves s₀ s) : Serves s₀ (dropPins s c x) :=
  serves_foldl h fun _ _ => serves_releasePins

theorem serves_repin {x : TileName} {pins : Tab (List Pin)} (h : Serves s₀ s) : Serves s₀ (repin s c x pins) := by
  refine serves_foldl (serves_modSlab h) fun s' e h' => serves_modSlab ?_
  refine List.foldlRecOn _ _ (motive := fun q : State × List Pin => Serves s₀ q.1) h' ?_
  rintro ⟨s'', ps⟩ h'' p _
  dsimp only at h'' ⊢
  split
  · dsimp only
    exact serves_modCtx h''
  · exact h''

theorem serves_returnTile {x : TileName} {saved : Slab} (h : Serves s₀ s) : Serves s₀ (returnTile s c x saved) := by
  unfold returnTile
  refine serves_repin (serves_modSlab ?_)
  split
  · exact serves_dropPins h
  · exact h

theorem serves_gvaWrite {va : Nat} {bs : List Byte} (h : Serves s₀ s) : Serves s₀ (gvaWrite s c va bs) := by
  refine serves_foldl h fun _ _ h' => ?_
  dsimp only
  split
  · exact h'.of_vault
  · exact h'

theorem serves_ringTimers (h : Serves s₀ s) : Serves s₀ (ringTimers s c) :=
  serves_foldl h fun _ _ h' => serves_ite (serves_postEv h') h'

theorem serves_unwindUndo (h : Serves s₀ s) : Serves s₀ (unwindUndo s c) := by
  unfold unwindUndo
  exact serves_modCtx (serves_foldl h fun _ _ h' => h'.of_vault)

theorem serves_returnBoundary {b : Boundary} (h : Serves s₀ s) : Serves s₀ (returnBoundary s c b) := by
  unfold returnBoundary
  extract_lets _ _ s₂ s₃ s₄ s₅
  have h₂ : Serves s₀ s₂ := serves_foldl (serves_dropCtxWork (serves_unwindUndo h)) fun _ _ h' =>
    (serves_returnTile h').of_mem
  have h₄ : Serves s₀ s₄ := (serves_foldl h₂ fun _ _ => serves_modSlab).of_eq rfl rfl
  have h₅ : Serves s₀ s₅ := serves_foldl h₄ fun _ _ h' => h'.of_eq rfl rfl
  exact serves_ringTimers (serves_modCtx (serves_foldl h₅ fun _ _ => serves_gvaWrite))

theorem serves_scheduleResume (h : Serves s₀ s) : Serves s₀ (scheduleResume s c).1 := serves_postEv (h.of_eq rfl rfl)

theorem serves_rollbackNow (h : Serves s₀ s) : Serves s₀ (rollbackNow s c) := by
  unfold rollbackNow
  extract_lets
  split
  · exact serves_replayFault h
  · refine serves_ite (serves_replayFault h) (serves_ite (serves_queueRollback h) ?_)
    exact serves_scheduleResume (serves_tell (serves_modCtx (serves_returnBoundary h)))

theorem serves_resumeCtx (h : Serves s₀ s) : Serves s₀ (resumeCtx s c) :=
  serves_ite (serves_rollbackNow h) (serves_scheduleResume h)

theorem serves_resumeServed (h : Serves s₀ s) : Serves s₀ (resumeServed s) :=
  serves_foldl h fun _ _ h' => serves_ite (serves_ite (serves_resumeCtx (serves_modCtx h')) (serves_modCtx h')) h'

/-! #### Lane swaps and moved tiles -/

theorem serves_retireTile {x : TileName} (h : Serves s₀ s) : Serves s₀ (retireTile s x) :=
  serves_ite (h.of_eq rfl rfl) h

theorem serves_laneSwaps {x : TileName} (h : Serves s₀ s) : Serves s₀ (laneSwaps s c x) := by
  unfold laneSwaps
  exact serves_modSlab (serves_foldl h fun _ _ h' => serves_ite (serves_modSlab h') (serves_retireTile (serves_modSlab h')))

theorem serves_swapTiles {ts : List TileName} (h : Serves s₀ s) : Serves s₀ (swapTiles s ts) :=
  serves_foldl h fun _ _ => serves_laneSwaps

theorem serves_moveTile {x : TileName} (h : Serves s₀ s) : Serves s₀ (moveTile s x) := by
  unfold moveTile
  refine serves_modSlab (serves_foldl h fun _ _ h' => ?_)
  split
  · exact serves_ite (serves_enterFaulted (serves_raiseAux h')) h'
  · exact h'

end Sys2Proof.Machine
end

section
namespace Sys2Proof.Machine

variable {s₀ s t : State}

/-! ### The binding map (19_tile R433, R434, R437) -/

/-- What writing a map leaves: the map in force with its generation and attestation, the units moved. -/
theorem writeMap_eq (s : State) (m : BindingMap) (gen : Nat) (a : BitVec 512 × BitVec 512) : ∃ former units out,
    writeMap s m gen a = { s with
      binding := some m, bindGen := gen, attested := some a, remapDue := false, lastSkips := some m.skips
      former := former, units := units, out := out } := by
  unfold writeMap
  extract_lets us move old s₁ s₂
  obtain ⟨f, hf⟩ : ∃ f, s₁ = { s with former := f } := leavePositions_eq _ _ _
  have h₂ : s₂ = { s₁ with
      binding := some m, bindGen := gen, attested := some a, units := s₁.units.map move, remapDue := false
      lastSkips := some m.skips } := rfl
  rw [h₂, hf]
  exact ⟨_, _, _, rfl⟩

/-- A map that may come into force with a generation: R19 and R433 hold of it, and its attestation verifies (R434). -/
def mapSound (s : State) (gen : Nat) (m : BindingMap) : Prop :=
  mapOk s m = true ∧ Config.edVerify (Config.sha512 (mapBytes gen m)) (Config.ed25519 (Config.sha512 (mapBytes gen m))) = true

/-- The attestation of a map. -/
def attestation (gen : Nat) (m : BindingMap) : BitVec 512 × BitVec 512 :=
  (Config.sha512 (mapBytes gen m), Config.ed25519 (Config.sha512 (mapBytes gen m)))

theorem attestMap_some {gen : Nat} {m : BindingMap} (h : mapSound s gen m) : attestMap gen m = some (attestation gen m) :=
  if_pos h.2

theorem attestMap_none {gen : Nat} {m : BindingMap} (hm : mapOk s m = true) (h : ¬ mapSound s gen m) : attestMap gen m = none :=
  if_neg fun h' => h ⟨hm, h'⟩

/-- The cycle of the next bellwether round (19_tile R443). -/
def nextRound (s : State) : Nat := nextMultiple 4096 (islandCyc s 0) - aheadOf s 0

theorem nextRound_spec (s : State) :
    s.now < nextRound s ∧ nextRound s ≤ s.now + 4096 ∧ (nextRound s + aheadOf s 0) % 4096 = 0 := by
  simp only [nextRound, nextMultiple, islandCyc]
  omega

/-- What a map written at the end of bring-up leaves before the contexts resume. -/
def mapInForce (s : State) (m : BindingMap) : State :=
  let s := setPhase (writeMap s m s.bindGen (attestation s.bindGen m)) .service
  postEv s (nextRound s) ordInput 0 none .bellwetherRoundStart .none

theorem bindingMapWrite_sound {m : BindingMap} (hp : s.phase = .binding) (hm : mapSound s s.bindGen m)
    (hk : keepsSpares s m = true) (ha : s.arg = .bindingMapWrite m) :
    exec .bindingMapWrite s = .next (resumeServed (mapInForce s m)) := by
  change execBindingMapWrite s = _
  unfold execBindingMapWrite
  simp only [ha]
  rw [if_neg (by simp [hp]), if_neg (by simp [hm.1, hk]), attestMap_some hm]
  rfl

theorem bindingMapWrite_unsound {m : BindingMap} (hp : s.phase = .binding)
    (hm : ¬ (mapSound s s.bindGen m ∧ keepsSpares s m = true)) (ha : s.arg = .bindingMapWrite m) :
    exec .bindingMapWrite s = .next (leaveService s 430) := by
  change execBindingMapWrite s = _
  unfold execBindingMapWrite
  simp only [ha]
  rw [if_neg (by simp [hp])]
  split
  · rfl
  next h =>
    obtain ⟨hok, hk⟩ : mapOk s m = true ∧ keepsSpares s m = true := by simpa using h
    rw [attestMap_none hok fun h' => hm ⟨h', hk⟩]

theorem bindingMapWrite_ignored {m : BindingMap} (hp : s.phase ≠ .binding) (ha : s.arg = .bindingMapWrite m) :
    exec .bindingMapWrite s = .next s := by
  change execBindingMapWrite s = _
  unfold execBindingMapWrite
  simp only [ha]
  exact if_pos (by simpa using hp)

theorem mapInForce_spec (s : State) (m : BindingMap) : (mapInForce s m).phase = .service ∧ (mapInForce s m).binding = some m ∧
    (mapInForce s m).attested = some (attestation s.bindGen m) ∧
    ∃ e ∈ (mapInForce s m).agenda, e.at_ = nextRound s ∧ e.instr = .bellwetherRoundStart ∧ e.arg = .none ∧ e.own = none := by
  obtain ⟨former, units, out, hw⟩ := writeMap_eq s m s.bindGen (attestation s.bindGen m)
  unfold mapInForce
  rw [hw]
  exact ⟨rfl, rfl, rfl, _, mem_insertEv.mpr (.inl rfl), rfl, rfl, rfl, rfl⟩

/-- The contexts that resume with it leave the map in force and the bellwether round due. -/
theorem bindingMapWrite_inForce {m : BindingMap} (hp : s.phase = .binding) (hm : mapSound s s.bindGen m)
    (hk : keepsSpares s m = true) :
    handles s (.bindingMapWrite m) .bindingMapWrite fun st => st.phase = .service ∧ st.binding = some m ∧
      st.attested = some (attestation s.bindGen m) ∧ eventAt st (nextRound s) .bellwetherRoundStart .none := by
  intro ha
  obtain ⟨hph, hb, hat, e, he, hy, hi, hn, ho⟩ := mapInForce_spec s m
  have h : Serves (mapInForce s m) (resumeServed (mapInForce s m)) := serves_resumeServed (Serves.refl _)
  refine ⟨_, bindingMapWrite_sound hp hm hk ha, (h.same State.phase).trans hph, (h.same State.binding).trans hb,
    (h.same State.attested).trans hat, e, h.event e he ho hn (by simp [hi]), hy, hi, hn⟩

/-! #### Remap (19_tile R437) -/

theorem remap_refused {choice : BindingMap} (h : s.binding = none ∨ s.phase ≠ .service) (ha : s.arg = .remap choice) :
    exec .remap s = .next (answer s 0 1 0) := by
  change execRemap s = _
  unfold execRemap
  simp only [ha]
  split
  · rfl
  next hb => exact if_pos (by simpa [hb] using h)

theorem remap_waits {m choice : BindingMap} (hb : s.binding = some m) (hp : s.phase = .service) (hq : allParked s = false)
    (ha : s.arg = .remap choice) : exec .remap s = .next { s with remapDue := true } := by
  change execRemap s = _
  unfold execRemap
  simp only [ha, hb]
  rw [if_neg (by simp [hp]), if_pos (by simp [hq])]

/-- The tiles whose slab changes move, the map is written, and links that are DOWN train. -/
def remapped (s : State) (m m' : BindingMap) : State :=
  let s₁ := (allTiles.filter fun t => slabUnit m t != slabUnit m' t).foldl moveTile s
  let s₂ := writeMap s₁ m' (s₁.bindGen + 1) (attestation (s.bindGen + 1) m')
  s₂.links.foldl (fun s e => if e.2.1 = .down then postAttempt (setLink s e.1 .training) e.1 else s) s₂

theorem remapped_spec (s : State) (m m' : BindingMap) :
    (remapped s m m').binding = some m' ∧ (remapped s m m').bindGen = s.bindGen + 1 := by
  unfold remapped
  extract_lets s₁ s₂
  have h₁ : Serves s s₁ := serves_foldl (Serves.refl s) fun _ _ => serves_moveTile
  have h₂ : Posts s₂ (s₂.links.foldl (fun s e => if e.2.1 = .down then postAttempt (setLink s e.1 .training) e.1 else s) s₂) :=
    posts_foldl (Posts.refl s₂) fun _ _ h => posts_ite (posts_postAttempt (posts_setLink h)) h
  obtain ⟨former, units, out, hw⟩ : ∃ former units out, s₂ = _ := writeMap_eq _ _ _ _
  refine ⟨(h₂.same State.binding).trans ?_, (h₂.same State.bindGen).trans ?_⟩
  · rw [hw]
    rfl
  · have hg : s₁.bindGen = s.bindGen := h₁.same State.bindGen
    rw [hw, ← hg]
    rfl

/-- What a remap of a module at rest does, once the lane swaps that are due are made. -/
theorem exec_remap {m choice : BindingMap} (hb : s.binding = some m) (hp : s.phase = .service) (hq : allParked s = true)
    (ha : s.arg = .remap choice) {swapped : State} (hsw : swapTiles s (s.slabs.map (·.1)) = swapped) :
    (newSkips swapped m = none → exec .remap s = .next (leaveService swapped 437)) ∧
    (∀ sk, newSkips swapped m = some sk →
      (mapSound swapped (swapped.bindGen + 1) { choice with skips := sk } →
        exec .remap s = .next (remapped swapped m { choice with skips := sk })) ∧
      (¬ mapSound swapped (swapped.bindGen + 1) { choice with skips := sk } →
        exec .remap s = .next (leaveService swapped 437))) := by
  have hx : exec .remap s = execRemap s := rfl
  unfold execRemap at hx
  simp only [ha, hb] at hx
  rw [if_neg (by simp [hp]), if_neg (by simp [hq]), hsw] at hx
  refine ⟨fun hn => ?_, fun sk hn => ⟨fun hm => ?_, fun hm => ?_⟩⟩
  · rw [hx, hn]
  · rw [hx, hn]
    dsimp only
    rw [attestMap_some hm]
    exact if_neg (by simp [hm.1])
  · rw [hx, hn]
    dsimp only
    by_cases hok : mapOk swapped { choice with skips := sk } = true
    · rw [attestMap_none hok hm]
    · split
      · rfl
      · exact if_pos (by simpa using hok)

/-- With R19 met the new map is in force under the next generation; without, the module leaves service. -/
theorem remap_parked {m choice : BindingMap} (hb : s.binding = some m) (hp : s.phase = .service) (hq : allParked s = true) :
    handles s (.remap choice) .remap fun st =>
      let swapped := swapTiles s (s.slabs.map (·.1))
      (newSkips swapped m = none → st.phase = .outOfService) ∧
      (∀ sk, newSkips swapped m = some sk →
        (mapSound swapped (s.bindGen + 1) { choice with skips := sk } →
          st.binding = some { choice with skips := sk } ∧ st.bindGen = s.bindGen + 1) ∧
        (¬ mapSound swapped (s.bindGen + 1) { choice with skips := sk } → st.phase = .outOfService)) := by
  intro ha
  generalize hsw : swapTiles s (s.slabs.map (·.1)) = swapped
  have hg : swapped.bindGen = s.bindGen := by
    rw [← hsw]
    exact (serves_swapTiles (Serves.refl s)).same State.bindGen
  obtain ⟨hnone, hsome⟩ := exec_remap hb hp hq ha hsw
  rw [hg] at hsome
  cases hn : newSkips swapped m with
  | none => exact ⟨_, hnone hn, fun _ => rfl, fun _ h => absurd (hn.symm.trans h) nofun⟩
  | some sk =>
    obtain ⟨hsound, hunsound⟩ := hsome sk hn
    by_cases hm : mapSound swapped (s.bindGen + 1) { choice with skips := sk }
    · obtain ⟨hbind, hgen⟩ := remapped_spec swapped m { choice with skips := sk }
      refine ⟨_, hsound hm, fun h => absurd (hn.symm.trans h) nofun, fun _ h => ?_⟩
      obtain rfl := Option.some.inj (hn.symm.trans h)
      exact ⟨fun _ => ⟨hbind, hgen.trans (by rw [hg])⟩, fun h => absurd hm h⟩
    · refine ⟨_, hunsound hm, fun h => absurd (hn.symm.trans h) nofun, fun _ h => ?_⟩
      obtain rfl := Option.some.inj (hn.symm.trans h)
      exact ⟨fun h => absurd h hm, fun _ => rfl⟩

end Sys2Proof.Machine
end

section
namespace Sys2Proof.Machine

/-- Settles O53: phase by phase, by what each event of bring-up and of the units does. -/
theorem bringUpAndUnits : Obligations.BringUpAndUnits := by
  unfold Obligations.BringUpAndUnits
  intro s
  refine ⟨powerOn_of_off, powerOn_of_not_off, fun _ _ => hostLink_settled, fun _ _ _ => selftestResult_slabs,
    fun _ _ _ => selftestResult_ignored,
    fun a b hp hab hn hsvc hi => ⟨islandMerge_aligned hp hab hn hsvc hi, islandMerge_unaligned hp hab hn hi⟩,
    fun m hp ha => ?_, fun _ => bindingMapWrite_ignored,
    fun _ => remap_refused, fun m choice hb hp => ⟨remap_waits hb hp, remap_parked hb hp⟩,
    fun u r n hu => ⟨fun h ha => ?_, fun h ha => ?_⟩,
    fun h => ?_, voltageTrim_of_not_computes,
    fun x => ⟨fun hx hr ha => ?_, fun hx hr ha => ?_, fun hx ha => ?_⟩, powerOff_clears⟩
  · by_cases hm : mapSound s s.bindGen m ∧ keepsSpares s m = true
    · obtain ⟨⟨hok, hver⟩, hk⟩ := hm
      obtain ⟨st, hx, hph, hb, hat, he⟩ := bindingMapWrite_inForce hp ⟨hok, hver⟩ hk ha
      exact ⟨st, hx, fun _ => ⟨hph, hb, hat, _, he, nextRound_spec s⟩, fun h => absurd ⟨hok, hk, hver⟩ h⟩
    · refine ⟨_, bindingMapWrite_unsound hp hm ha, fun h => ?_, fun _ => ⟨rfl, rfl⟩⟩
      obtain ⟨hok, hk, hver⟩ := h
      exact absurd ⟨⟨hok, hver⟩, hk⟩ hm
  · refine ⟨_, exec_reinstatement hu ha, ?_⟩
    rw [if_pos (repairOk_iff.mpr h)]
    exact ⟨⟨rfl, rfl⟩, unitOf_putUnit_self _ _ _ _, List.mem_cons_self⟩
  · rw [exec_reinstatement hu ha, if_neg fun h' => h (repairOk_iff.mp h')]
  · obtain ⟨st, hx, hs, he, hv⟩ := voltageTrim_of_computes h
    exact ⟨st, hx, hs, he, fun i hi _ _ => hv i hi⟩
  · obtain ⟨hs, hw, hst⟩ := withhold_few hr
    exact ⟨_, (exec_droopAlarm ha).trans (by rw [if_pos hx]), hs, hw, hst⟩
  · rw [exec_droopAlarm ha, if_pos hx, withhold_many hr]
    rfl
  · rw [exec_droopAlarm ha, if_neg (Nat.not_lt.mpr hx)]

end Sys2Proof.Machine
end

section
namespace Sys2Proof.Machine

variable {s : State} {is : Issue} {g : BitVec 5} {src : BitVec 9} {d : Nat}

/-! ### What a trigger of C does when it runs (05_sequencer R111 to R134) -/

/-- An untagged trigger of C has its effect on the state with the slot counted. -/
theorem ctlStep_runs {ra rb : Bool} (h : ctlRuns s is g d src ra rb) (f : Issue → State → Word → Word → Word → State) :
    ctlStep s g d src ra rb f = .next (f (firedIssue is d) (fired s is d) (readFE s is src).val (feOpd s is 256).val
      (feOpd s is 257).val) := by
  obtain ⟨hrun, ht, ha, hb⟩ := h
  have hplain : ¬((readFE s is src).df || (ra && (feOpd s is 256).df) || (rb && (feOpd s is 257).df)) = true := by
    simp only [ht, Bool.false_or, Bool.or_eq_true, Bool.and_eq_true]
    rintro (⟨hra, htag⟩ | ⟨hrb, htag⟩)
    · rw [ha hra] at htag
      contradiction
    · rw [hb hrb] at htag
      contradiction
  rw [ctlStep, slotStep_runs hrun]
  simp only [fired_readFE, fired_feOpd]
  rw [if_neg hplain]

@[simp] theorem firedIssue_gang : (firedIssue is d).gang = is.gang := rfl

/-- Counting the slot leaves what the issuing gang has recorded of its block. -/
@[simp] theorem fired_blk (n : TileName) : (gangOf (fired s is d) n).blk = (gangOf s n).blk :=
  fired_gangOf s is d Gang.blk (fun _ _ => rfl) n

@[simp] theorem fired_origin (n : TileName) : (gangOf (fired s is d) n).origin = (gangOf s n).origin :=
  fired_gangOf s is d Gang.origin (fun _ _ => rfl) n

@[simp] theorem fired_fmtStage (n : TileName) : (gangOf (fired s is d) n).fmtStage = (gangOf s n).fmtStage :=
  fired_gangOf s is d Gang.fmtStage (fun _ _ => rfl) n

@[simp] theorem fired_selectedBounds (n : TileName) (t : Word) :
    selectedBounds (gangOf (fired s is d) n) t = selectedBounds (gangOf s n) t :=
  fired_gangOf s is d (fun gg => selectedBounds gg t) (fun _ _ => rfl) n

@[simp] theorem fired_ctx (n : TileName) : (gangOf (fired s is d) n).ctx = (gangOf s n).ctx :=
  fired_gangOf s is d Gang.ctx (fun _ _ => rfl) n

/-- Two changes of a gang that agree on it leave the same state. -/
theorem modGang_congr {n : TileName} {f f' : Gang → Gang} (h : f (gangOf s n) = f' (gangOf s n)) :
    modGang s n f = modGang s n f' := by
  unfold modGang
  split
  next gg hg =>
    have he : gangOf s n = gg := by simp [gangOf, tabGetD, hg]
    rw [← he, h]
  next => rfl

/-- A change of the block record need only be right for the record as the trigger finds it. -/
theorem modBlk_fired {f f' : Block → Block} (h : f (gangOf s is.gang).blk = f' (gangOf s is.gang).blk) :
    modBlk (fired s is d) is.gang f = withBlock s is d f' :=
  modGang_congr (by rw [fired_blk, h])

/-! ### Exits and checks (R106, R111, R120, R121) -/

/-- The first exit of a block is recorded (02_bundle R51). -/
theorem recordExit_first (h : (gangOf s is.gang).blk.exit = none) (tgt aux : Word) :
    recordExit (fired s is d) (firedIssue is d) tgt aux =
      withBlock s is d fun b => { b with exit := some ⟨d, tgt, aux, is.slot, b.bpos⟩ } :=
  modBlk_fired (by simp only [h, firedIssue])

/-- A mask of k ones takes the low k bits. -/
theorem and_ofNat_mask (t : Word) {k m : Nat} (hk : k ≤ 64) (hm : m = 2 ^ k - 1) :
    t &&& BitVec.ofNat 64 m = (t.extractLsb' 0 k).setWidth 64 := by
  subst hm
  have hlt : 2 ^ k - 1 < 2 ^ 64 :=
    Nat.lt_of_lt_of_le (Nat.sub_lt (Nat.two_pow_pos k) Nat.one_pos) (Nat.pow_le_pow_right Nat.two_pos hk)
  refine BitVec.eq_of_toNat_eq ?_
  rw [BitVec.toNat_and, BitVec.toNat_ofNat, Nat.mod_eq_of_lt hlt, Nat.and_two_pow_sub_one_eq_mod,
    BitVec.toNat_setWidth_of_le hk, BitVec.extractLsb'_toNat, Nat.shiftRight_zero]

/-- An exit records the target and the argument of its row. -/
theorem exec_exitRow {r : ExitRow} (hr : r ∈ exitRows) (s : State) (g : BitVec 5) (src : BitVec 9) :
    exec (r.ins g src) s = ctlStep s g r.port src r.opa false fun is s t a _ => recordExit s is (r.tgt t a) (r.aux t a) := by
  have h16 (t : Word) : t &&& 0xFFFF = (t.extractLsb' 0 16).setWidth 64 := and_ofNat_mask t (by decide) rfl
  have h8 (t : Word) : t &&& 0xFF = (t.extractLsb' 0 8).setWidth 64 := and_ofNat_mask t (by decide) rfl
  simp only [exitRows, List.mem_cons, List.not_mem_nil, or_false] at hr
  rcases hr with rfl | rfl | rfl | rfl | rfl | rfl | rfl | rfl | rfl
  · rfl
  · rfl
  · rfl
  · rfl
  · rfl
  · simp only [← h16]
    rfl
  · simp only [← h16]
    rfl
  · rfl
  · simp only [← h8]
    rfl

/-- CHKDF: an exit to c.opb exactly for a tagged value (R120). -/
theorem exec_chkdf (h : slotRuns s is g 266) (hb : (feOpd s is 257).df = false) (hx : (gangOf s is.gang).blk.exit = none) :
    exec (.chkdf g src) s = .next (if (readFE s is src).df then withBlock s is 266 fun b =>
      { b with exit := some ⟨266, (feOpd s is 257).val, 0, is.slot, b.bpos⟩ } else fired s is 266) := by
  change execChkdf g src s = _
  rw [execChkdf, slotStep_runs h]
  simp [hb, recordExit_first hx]

/-- CHKMX: an exit to c.opb exactly when an engine of the gang meets a condition that the value names (R121). -/
theorem exec_chkmx (h : ctlRuns s is g 267 src false true) (hx : (gangOf s is.gang).blk.exit = none) :
    exec (.chkmx g src) s = .next
      (if (gangTiles s is.gang).any fun t => ((readFE s is src).val.getLsbD 0 && mxParked (srcSlab s is t).mx) ||
          ((readFE s is src).val.getLsbD 1 && (srcSlab s is t).mx.busy) then
        withBlock s is 267 fun b => { b with exit := some ⟨267, (feOpd s is 257).val, 0, is.slot, b.bpos⟩ }
      else fired s is 267) := by
  change execChkmx g src s = _
  rw [execChkmx, ctlStep_runs h]
  simp only [fired_srcSlab, recordExit_first hx, firedIssue_gang, fired_gangTiles]

/-- Settles O9: each exit records the first exit of its block, and a check does so exactly when its condition holds. -/
theorem exitsAndChecks : Obligations.ExitsAndChecks := by
  unfold Obligations.ExitsAndChecks
  refine ⟨fun s is g src r hr h hx => ?_, fun s is g src => exec_chkdf, fun s is g src => exec_chkmx⟩
  rw [exec_exitRow hr, ctlStep_runs h, recordExit_first hx]

/-! ### Loop operations (R114, R117, R118) -/

/-- The first loop operation of a block is recorded. -/
theorem recordLoop_first (h : (gangOf s is.gang).blk.lop = none) (n : Nat) (e strides : Word) :
    recordLoop (fired s is d) (firedIssue is d) n e strides =
      withBlock s is d fun b => { b with lop := some ⟨d, n, e, strides, is.slot⟩ } := by
  rw [recordLoop, if_neg (by rw [firedIssue_gang, fired_blk, h]; decide)]
  exact modBlk_fired rfl

/-- The first control trap of a block is recorded with its slot and port (R110). -/
theorem blockTrap_first (h : (gangOf s is.gang).blk.trap = none) (cause : Nat) :
    blockTrap (fired s is d) (firedIssue is d) cause = withBlock s is d fun b => { b with trap := some (cause, is.slot, d) } :=
  modBlk_fired (f := fun b => { b with trap := if b.trap.isSome then b.trap else some (cause, is.slot, d) }) (by simp [h])

/-- A second loop operation of a block is MULTI. -/
theorem recordLoop_second (h : (gangOf s is.gang).blk.lop.isSome = true) (ht : (gangOf s is.gang).blk.trap = none)
    (n : Nat) (e strides : Word) : recordLoop (fired s is d) (firedIssue is d) n e strides =
      withBlock s is d fun b => { b with trap := some (8, is.slot, d) } := by
  rw [recordLoop, if_pos (by rw [firedIssue_gang, fired_blk, h])]
  exact blockTrap_first ht 8

/-- LOOP: its count, and its end and strides in c.opa and c.opb (R114). -/
theorem exec_loop (h : ctlRuns s is g 263 src true true) : exec (.loop g src) s = .next (recordLoop (fired s is 263)
    (firedIssue is 263) ((readFE s is src).val.toNat % 2 ^ 32) (feOpd s is 256).val (feOpd s is 257).val) := by
  change execLoop g src s = _
  exact ctlStep_runs h _

/-- LOOPM: its count from a mailbox (R114). -/
theorem exec_loopm (h : ctlRuns s is g 264 src true true) : exec (.loopm g src) s = .next (recordLoop (fired s is 264)
    (firedIssue is 264) ((tabGetD 0 (srcGang s is).mbx ((readFE s is src).val.toNat % 8)).toNat % 2 ^ 32)
    (feOpd s is 256).val (feOpd s is 257).val) := by
  rw [← fired_srcGang s is 264 Gang.mbx fun _ _ => rfl]
  change execLoopm g src s = _
  exact ctlStep_runs h _

/-- BRKL: the number of levels it pops (R117). -/
theorem exec_brkl (h : ctlRuns s is g 265 src false false) : exec (.brkl g src) s = .next (recordLoop (fired s is 265)
    (firedIssue is 265) ((readFE s is src).val.toNat % 8) 0 0) := by
  change execBrkl g src s = _
  exact ctlStep_runs h _

/-- Settles O10: by what LOOP, LOOPM and BRKL pass to the one record of a block's loop operation. -/
theorem loopOperationsAreRecorded : Obligations.LoopOperationsAreRecorded := by
  unfold Obligations.LoopOperationsAreRecorded
  refine ⟨fun s is g src h hl => ?_, fun s is g src h hl => ?_, fun s is g src h hl => ?_,
    fun s is g src i d opds hi h hl ht => ?_⟩
  · rw [exec_loop h, recordLoop_first hl]
  · rw [exec_loopm h, recordLoop_first hl]
  · rw [exec_brkl h, recordLoop_first hl]
  · simp only [List.mem_cons, List.not_mem_nil, or_false, Prod.mk.injEq] at hi
    rcases hi with ⟨rfl, rfl, rfl⟩ | ⟨rfl, rfl, rfl⟩ | ⟨rfl, rfl, rfl⟩
    · rw [exec_loop h, recordLoop_second hl ht]
    · rw [exec_loopm h, recordLoop_second hl ht]
    · rw [exec_brkl h, recordLoop_second hl ht]

/-! ### Quiet points and waits of C (R122 to R129) -/

/-- QPOINT joins the kinds of the quiet point (R122). -/
theorem exec_qpoint (h : ctlRuns s is g 268 src false false) :
    exec (.qpoint g src) s = .next (withBlock s is 268 fun b =>
      { b with qp := b.qp ||| (readFE s is src).val.extractLsb' 0 3, qpSlot := is.slot }) := by
  rw [← BitVec.setWidth_eq_extractLsb' (by decide)]
  change execQpoint g src s = _
  exact ctlStep_runs h _

/-- The first wait of C in a block is recorded (R124). -/
theorem recordCWait_first (h : (gangOf s is.gang).blk.cwaits = 0) (w : WaitKind) :
    recordCWait (fired s is d) (firedIssue is d) w =
      withBlock s is d fun b => { b with waits := b.waits ++ [w], cwaits := b.cwaits + 1 } := by
  rw [recordCWait, if_neg (by rw [firedIssue_gang, fired_blk, h]; decide)]
  exact modBlk_fired rfl

/-- WAITEV waits for an event of a class that its value names (R125). -/
theorem exec_waitev (h : ctlRuns s is g 269 src false false) : exec (.waitev g src) s =
    .next (recordCWait (fired s is 269) (firedIssue is 269) (.waitev ((readFE s is src).val.extractLsb' 0 8))) := by
  rw [← BitVec.setWidth_eq_extractLsb' (by decide)]
  change execWaitev g src s = _
  exact ctlStep_runs h _

/-- CYCWAIT waits for the cycle that its value names (R128). -/
theorem exec_cycwait (h : ctlRuns s is g 271 src false false) : exec (.cycwait g src) s =
    .next (recordCWait (fired s is 271) (firedIssue is 271) (.cycwait (readFE s is src).val)) := by
  change execCycwait g src s = _
  exact ctlStep_runs h _

/-- CYCALIGN waits with no value (R129). -/
theorem exec_cycalign (h : ctlRuns s is g 272 src false false) : exec (.cycalign g src) s =
    .next (recordCWait (fired s is 272) (firedIssue is 272) .cycalign) := by
  change execCycalign g src s = _
  exact ctlStep_runs h _

/-- Settles O11: by what QPOINT and each wait of C pass to the block record. -/
theorem waitsAndQuietPointsAreRecorded : Obligations.WaitsAndQuietPointsAreRecorded := by
  unfold Obligations.WaitsAndQuietPointsAreRecorded
  refine ⟨fun s is g src => exec_qpoint, fun s is g src i d w hi h hc => ?_⟩
  simp only [List.mem_cons, List.not_mem_nil, or_false, Prod.mk.injEq] at hi
  rcases hi with ⟨rfl, rfl, rfl⟩ | ⟨rfl, rfl, rfl⟩ | ⟨rfl, rfl, rfl⟩
  · rw [exec_waitev h, recordCWait_first hc]
  · rw [exec_cycwait h, recordCWait_first hc]
  · rw [exec_cycalign h, recordCWait_first hc]

/-! ### Control register writes (R108, R109, R131, R132, R134, 03_element R71) -/

/-- A write of tctl lands at c+1 (R109). -/
theorem exec_tctlWrite (h : ctlRuns s is g 285 src false false) : exec (.tctlWrite g src) s =
    .next (postLand (fired s is 285) (slotOwner s is 285) (s.now + 1) (.tctl (readFE s is src).val)) := by
  change execTctlWrite g src s = _
  rw [execTctlWrite, ctlStep_runs h]
  simp only [fired_issueOwner, fired_now]

/-- A write of tstclr clears at c+1, before the landings of that cycle (R108). -/
theorem exec_tstclr (h : ctlRuns s is g 286 src false false) : exec (.tstclr g src) s =
    .next (postAct (fired s is 286) (slotOwner s is 286) (s.now + 1) ordClear (.tstclr (readFE s is src).val)) := by
  change execTstclr g src s = _
  rw [execTstclr, ctlStep_runs h]
  simp only [fired_issueOwner, fired_now]

/-- The event mask lands at c+1 (R134). -/
theorem exec_evmask (h : ctlRuns s is g 283 src false false) : exec (.evmask g src) s =
    .next (postLand (fired s is 283) (slotOwner s is 283) (s.now + 1) (.evm ((readFE s is src).val.extractLsb' 0 8))) := by
  change execEvmask g src s = _
  rw [execEvmask, ctlStep_runs h, BitVec.setWidth_eq_extractLsb' (by decide)]
  simp only [fired_issueOwner, fired_now]

/-- What FMTSET refuses: a row width of 7, an A or B format from 4 on, a C format from 6 on. -/
theorem fmtBad_iff (f : Fmt) :
    fmtBad f = true ↔ f.aw = 7 ∨ 4 ≤ f.afmt.toNat ∨ 4 ≤ f.bfmt.toNat ∨ 6 ≤ f.cfmt.toNat := by
  simp only [fmtBad, Bool.or_eq_true, decide_eq_true_eq]
  by_cases h : f.aw = 7
  · simp [h]
  · simp only [h, false_or]
    omega

/-- FMTSET takes the staged formats four cycles on, or is the format trap (R131, 03_element R71). -/
theorem exec_fmtset (h : ctlRuns s is g 274 src false false) : exec (.fmtset g src) s =
    .next (if fmtBad (gangOf s is.gang).fmtStage then raise (fired s is 274) (slotOwner s is 274) 6 1
      else postLand (fired s is 274) (slotOwner s is 274) (s.now + 4) (.fmt (gangOf s is.gang).fmtStage)) := by
  change execFmtset g src s = _
  rw [execFmtset, ctlStep_runs h]
  simp only [firedIssue_gang, fired_fmtStage, fired_issueOwner, fired_now]

/-- BNDSET takes the selected staged bounds four cycles on, or is the format trap (R132). -/
theorem exec_bndset (h : ctlRuns s is g 275 src false false) : exec (.bndset g src) s =
    .next (if (selectedBounds (gangOf s is.gang) (readFE s is src).val).any fun e => badBound e.2 then
        raise (fired s is 275) (slotOwner s is 275) 6 2
      else postLand (fired s is 275) (slotOwner s is 275) (s.now + 4)
        (.bnd (selectedBounds (gangOf s is.gang) (readFE s is src).val))) := by
  change execBndset g src s = _
  rw [execBndset, ctlStep_runs h]
  simp only [firedIssue_gang, fired_selectedBounds, fired_issueOwner, fired_now]

/-- BNDSET refuses nothing when every bound that the value selects is a good one. -/
theorem selectedBounds_good {gg : Gang} {t : Word}
    (h : ∀ b < 8, t.getLsbD b = true → badBound (tabGetD boundReset gg.bdStage b) = false) :
    ¬ ((selectedBounds gg t).any fun e => badBound e.2) = true := by
  simp only [selectedBounds, List.any_map, List.any_eq_true, List.mem_filter, List.mem_range, Function.comp_apply,
    not_exists, not_and, Bool.not_eq_true]
  exact fun b hb => h b hb.1 hb.2

/-- Settles O14: each write posts its landing, and the two checked writes by their checks. -/
theorem controlRegisterWrites : Obligations.ControlRegisterWrites := by
  unfold Obligations.ControlRegisterWrites
  refine fun s is g src => ⟨exec_tctlWrite, exec_tstclr, exec_evmask, fun h => ?_, fun h hgood => ?_⟩
  · simp only [exec_fmtset h, fmtBad_iff]
  · rw [exec_bndset h, if_neg (selectedBounds_good hgood)]
    rfl

end Sys2Proof.Machine
end

section
namespace Sys2Proof.Machine

variable {s : State} {is : Issue} {g : BitVec 5} {src : BitVec 9}

/-! ### Cycle read and markers (R127, R130, 21_marker R461 to R463) -/

/-- CYCRD delivers at c+1 (R127). -/
theorem exec_cycrd (h : ctlRuns s is g 270 src false false) : exec (.cycrd g src) s = .next (feLanding s is 270 136 1
    ⟨if (readFE s is src).val.getLsbD 0 then sinceOrigin s is else cycleOf s is, false⟩) := by
  change execCycrd g src s = _
  rw [execCycrd, ctlStep_runs h]
  simp only [firedIssue_gang, fired_tileCyc, fired_origin, fired_issueOwner, fired_now]
  rfl

/-- With no breakpoint set, nothing is matched. -/
theorem matchBreak_none {c : Nat} (h : (ctxOf s c).bps = []) (n : TileName) (k : Nat) (ok : Word → Bool) :
    matchBreak s c n k ok = s := by
  rw [matchBreak, h]
  rfl

/-- With no breakpoint set, MARK starts its comparison and nothing else (R130). -/
theorem exec_mark (h : ctlRuns s is g 273 src false false) (hb : (ctxOf s (gangOf s is.gang).ctx).bps = []) :
    exec (.mark g src) s = .next (postLand (fired s is 273) (slotOwner s is 273) (s.now + 1)
      (.mark ((readFE s is src).val.extractLsb' 0 16) ((readFE s is src).val.extractLsb' 16 32) (sinceOrigin s is)
        (cycleOf s is))) := by
  have hb' : (ctxOf (fired s is 273) (gangOf (fired s is 273) is.gang).ctx).bps = [] := by rw [fired_ctx, fired_ctxOf, hb]
  change execMark g src s = _
  rw [execMark, ctlStep_runs h]
  simp only [firedIssue_gang, matchBreak_none hb', fired_tileCyc, fired_origin,
    fired_issueOwner, fired_now, ← BitVec.setWidth_eq_extractLsb' (show 16 ≤ 64 by decide)]
  rfl

section
variable {own : Owner} {m : BitVec 16} {expect : BitVec 32} {actual cyc : Word}

/-- How late a marker is, its actual offset taken within 32 bits (R461). -/
def markDrift (expect : BitVec 32) (actual : Word) : Int := (min actual.toNat (2 ^ 32 - 1) : Int) - expect.toNat

/-- A drift saturates at the bounds of 32 bits (R461). -/
theorem toInt_ofInt_saturated (x : Int) :
    (BitVec.ofInt 32 (if x < -2 ^ 31 then -2 ^ 31 else if 2 ^ 31 - 1 < x then 2 ^ 31 - 1 else x)).toInt =
      max (-2 ^ 31) (min (2 ^ 31 - 1) x) := by
  have hsat : (if x < -2 ^ 31 then -2 ^ 31 else if 2 ^ 31 - 1 < x then 2 ^ 31 - 1 else x) =
      max (-2 ^ 31) (min (2 ^ 31 - 1) x) := by omega
  rw [hsat]
  exact BitVec.toInt_ofInt_eq_self (by decide) (by omega) (by omega)

/-- A marker on its cycle records nothing. -/
theorem landMark_onTime (h : actual.toNat = expect.toNat) : landMark s own m expect actual cyc = s := if_pos h

/-- The drift records of a gang (R462). -/
def markLog (s : State) (own : Owner) : List MarkRec := tabGetD [] (ctxOf s own.ctx).markers own.gang

/-- A marker off its cycle appends one record to the log of its gang, the oldest of 1,024 making room (R461, R462). -/
theorem landMark_appends (h : actual.toNat ≠ expect.toNat) :
    ∃ r, markLog (landMark s own m expect actual cyc) own =
        (if 1024 ≤ (markLog s own).length then (markLog s own).drop 1 else markLog s own) ++ [r] ∧
      r.marker = m ∧ r.pc = own.pc ∧ r.gang = own.gang ∧ r.replays = min (ctxOf s own.ctx).rollbacks 255 ∧
      r.expect = expect ∧ r.actual.toNat = min actual.toNat (2 ^ 32 - 1) ∧
      r.drift.toInt = max (-2 ^ 31) (min (2 ^ 31 - 1) (markDrift expect actual)) ∧ r.cyc = cyc := by
  have hact : ((min actual.toNat (2 ^ 32 - 1) : Nat) : Int) = min (actual.toNat : Int) (2 ^ 32 - 1) := by omega
  simp only [markLog, landMark, if_neg h, ctxOf_modCtx_self, tabGetD_tabPut_self]
  refine ⟨_, rfl, rfl, rfl, rfl, rfl, rfl, ?_, ?_, rfl⟩
  · exact Nat.mod_eq_of_lt (by omega)
  · rw [toInt_ofInt_saturated, hact, markDrift]

variable (s own m expect actual cyc) in
/-- A marker changes neither memory, no slab and not the bundle in hand. -/
theorem landMark_frame : steady s (landMark s own m expect actual cyc) ∧ (landMark s own m expect actual cyc).slabs = s.slabs ∧
    (landMark s own m expect actual cyc).issue = s.issue := by
  rw [landMark]
  split <;> simp [steady]

/-- The trace of the context stands when a marker is recorded. -/
theorem landMark_trace : (ctxOf (landMark s own m expect actual cyc) own.ctx).trace = (ctxOf s own.ctx).trace := by
  rw [landMark]
  split
  · rfl
  · rw [ctxOf_modCtx_self]
    simp only [ctxOf, bumpCounter_ctxs]

theorem ctxOf_postTrace (s : State) (own : Owner) (c y k : Nat) : ctxOf (postTrace s own c y) k = ctxOf s k := rfl

/-- Whether a marker of this drift starts the trace (R463). -/
def startsTrace (t : TraceSt) (expect : BitVec 32) (actual : Word) : Prop :=
  t.started = none ∧ actual.toNat ≠ expect.toNat ∧ (t.arm.thr : Int) ≤ (markDrift expect actual).natAbs

/-- A drift that reaches the threshold of an armed trace starts it on the next cycle (R463). -/
theorem landMarkTrace_starts {t : TraceSt} (ht : (ctxOf s own.ctx).trace = some t) (h : startsTrace t expect actual) :
    landMarkTrace s own m expect actual cyc =
      postTrace (modCtx (landMark s own m expect actual cyc) own.ctx fun k =>
        { k with trace := some { t with started := some (own.gang, s.now + 1) } }) own own.ctx (s.now + 1) := by
  obtain ⟨hs, hne, hthr⟩ := h
  rw [markDrift] at hthr
  simp only [landMarkTrace, ht]
  exact if_pos (by simp only [hs, Option.isNone_none, bne_iff_ne.mpr hne, hthr, decide_true, Bool.and_true])

/-- Otherwise the marker is all that lands. -/
theorem landMarkTrace_plain (h : ∀ t, (ctxOf s own.ctx).trace = some t → ¬ startsTrace t expect actual) :
    landMarkTrace s own m expect actual cyc = landMark s own m expect actual cyc := by
  rw [landMarkTrace]
  split
  next t ht =>
    refine if_neg fun hc => h t ht ?_
    simpa only [startsTrace, markDrift, Bool.and_eq_true, Option.isNone_iff_eq_none, bne_iff_ne, decide_eq_true_eq,
      and_assoc] using hc
  next => rfl

variable (s own m expect actual cyc) in
/-- A trace that starts changes nothing of what the marker leaves but the trace and the agenda. -/
theorem landMarkTrace_frame : steady s (landMarkTrace s own m expect actual cyc) ∧
    (landMarkTrace s own m expect actual cyc).slabs = s.slabs ∧ (landMarkTrace s own m expect actual cyc).issue = s.issue ∧
    markLog (landMarkTrace s own m expect actual cyc) own = markLog (landMark s own m expect actual cyc) own := by
  obtain ⟨hst, hsl, his⟩ := landMark_frame s own m expect actual cyc
  by_cases h : ∃ t, (ctxOf s own.ctx).trace = some t ∧ startsTrace t expect actual
  · obtain ⟨t, ht, hs⟩ := h
    rw [landMarkTrace_starts ht hs]
    exact ⟨hst, hsl, his, by rw [markLog, ctxOf_postTrace, ctxOf_modCtx_self, markLog]⟩
  · rw [landMarkTrace_plain fun t ht hs => h ⟨t, ht, hs⟩]
    exact ⟨hst, hsl, his, rfl⟩

/-- What lands of a MARK at c+1 (R130). -/
theorem exec_markLanding : exec (.operationLanding own (.mark m expect actual cyc)) s =
    .next (landMarkTrace s own m expect actual cyc) := rfl

end

/-- Settles O12: CYCRD and MARK by what they post, the comparison by the drift record and by the trace that it starts. -/
theorem cycleReadAndMark : Obligations.CycleReadAndMark := by
  unfold Obligations.CycleReadAndMark
  refine ⟨fun s is g src => exec_cycrd, fun s is g src => exec_mark, fun s own m expect actual cyc =>
    ⟨fun he => ?_, fun hne => ?_, fun t hne ht hs => ?_⟩⟩
  · rw [exec_markLanding, landMarkTrace_plain fun _ _ h => h.2.1 he, landMark_onTime he]
  · obtain ⟨hst, hsl, his, hm⟩ := landMarkTrace_frame s own m expect actual cyc
    have hlog := landMark_appends (s := s) (own := own) (m := m) (cyc := cyc) hne
    rw [← hm] at hlog
    exact ⟨_, exec_markLanding, ⟨hst, hsl, his⟩, hlog⟩
  · obtain ⟨hst, hsl, his, -⟩ := landMarkTrace_frame s own m expect actual cyc
    refine ⟨_, exec_markLanding, ⟨hst, hsl, his⟩, fun hthr => ?_, fun hthr => ?_⟩
    · rw [landMarkTrace_starts ht ⟨hs, hne, hthr⟩]
      exact ⟨by rw [ctxOf_postTrace, ctxOf_modCtx_self], _, mem_insertEv.mpr (.inl rfl), rfl, own, rfl⟩
    · have hno : ∀ t', (ctxOf s own.ctx).trace = some t' → ¬ startsTrace t' expect actual := by
        rintro t' ht' ⟨-, -, hle⟩
        rw [ht, Option.some.injEq] at ht'
        subst ht'
        exact Int.not_lt.mpr hle hthr
      rw [landMarkTrace_plain hno, landMark_trace, ht]

end Sys2Proof.Machine
end
